-- ==== Sys2Proof/Word.lean ====
section
/-! DEFINITION. The words of the part: link bytes, dot columns, wrapping counters. -/

namespace Sys2Proof

/-- One byte on a link (R180). -/
abbrev Byte := BitVec 8

/-- The 18 row values of one dot column, or a set of pins: bit `r` is row or pin `r` (R20, R51). -/
abbrev Rows := BitVec 18

/-- A pin, which is also a pin row (R1). -/
abbrev Pin := Fin 18

/-- A sequence number, 0 to 65 535, wrapping (R30). -/
abbrev SeqNo := BitVec 16

/-- An odometer value, wrapping modulo 2³² (R126). -/
abbrev Odo := BitVec 32

end Sys2Proof
end

