-- ==== Sys2Proof/Syntax.lean ====
section
/-! DEFINITION. The commands of the part: one constructor of `Instr` per row of spec/opcode_table.json,
with the operands the event carries (log entries 1, 2, 3). -/

namespace Sys2Proof

/-- The two serial links. -/
inductive Link where
  | job
  | console
  deriving DecidableEq, Repr

/-- The two carriage widths of the WIDTH strap (R3). -/
inductive Width where
  | narrow
  | wide
  deriving DecidableEq, Repr

/-- The two quadrature channels of the encoder (R61). -/
inductive EncoderChannel where
  | chanA
  | chanB
  deriving DecidableEq, Repr

/-- The two pin columns of the head: A holds the even rows, B the odd rows (R1). -/
inductive PinColumn where
  | colA
  | colB
  deriving DecidableEq, Repr

/-- What the pins carry when power-on reset ends: the two straps and the levels that reset samples. -/
structure PowerOnPins where
  /-- The WIDTH strap. -/
  width : Width
  /-- The EDGE strap reads fitted. -/
  edgeFitted : Bool
  encoderA : Bool
  encoderB : Bool
  index : Bool
  /-- The paper sensor sees paper. -/
  paper : Bool
  tally0 : Bool
  tally1 : Bool
  deriving DecidableEq, Repr

/-- The commands. A request carries the bytes of its frame that have not arrived yet, the last byte of
the frame among them. -/
inductive Instr where
  /-- POWER_ON_RESET (R164). -/
  | powerOnReset (pins : PowerOnPins)
  /-- SELECT_RISES (R182). -/
  | selectRises (l : Link)
  /-- NO_OP (R182). -/
  | noOp (l : Link) (bytes : List Byte)
  /-- PUT_LINE (R28). -/
  | putLine (l : Link) (bytes : List Byte)
  /-- PUT_MOTION (R22). -/
  | putMotion (l : Link) (bytes : List Byte)
  /-- SET_FORM (R133). -/
  | setForm (l : Link) (bytes : List Byte)
  /-- SET_HEAD (R184). -/
  | setHead (l : Link) (bytes : List Byte)
  /-- READ_STATE (R185). -/
  | readState (l : Link) (bytes : List Byte)
  /-- READ_POSITION (R143). -/
  | readPosition (l : Link) (bytes : List Byte)
  /-- TAKE_NOTICE (R187). -/
  | takeNotice (l : Link) (bytes : List Byte)
  /-- CANCEL (R173). -/
  | cancel (l : Link) (bytes : List Byte)
  /-- TALLY_SET (R177). -/
  | tallySet (l : Link) (bytes : List Byte)
  /-- TALLY_ARM (R177). -/
  | tallyArm (l : Link) (bytes : List Byte)
  /-- TALLY_MASK (R177). -/
  | tallyMask (l : Link) (bytes : List Byte)
  /-- TALLY_CLEAR (R177). -/
  | tallyClear (l : Link) (bytes : List Byte)
  /-- CLEAR (R172). -/
  | clear (l : Link) (bytes : List Byte)
  /-- ENGINE_RESET (R164). -/
  | engineReset (l : Link) (bytes : List Byte)
  /-- LINK_RESET (R189). -/
  | linkReset (l : Link) (bytes : List Byte)
  /-- COUNT_CHANGE (R61): channel `ch` changes, `dt` ticks after the step before. -/
  | countChange (ch : EncoderChannel) (dt : Nat)
  /-- ILLEGAL_TRANSITION (R62). -/
  | illegalTransition
  /-- STALL (R72). -/
  | stall
  /-- OPEN_PERIOD_SUSPENSION (R70). -/
  | openPeriodSuspension
  /-- AUTOMATIC_HOMING (R74). -/
  | automaticHoming
  /-- HOMING_REST_END (R76). -/
  | homingRestEnd
  /-- INDEX_EDGE (R77): the index input changes to `level`; the rise is the edge. -/
  | indexEdge (level : Bool)
  /-- PLAN_COMPLETE (R42). -/
  | planComplete
  /-- CARRIAGE_START (R42). -/
  | carriageStart
  /-- DELAY_TIMER_EXPIRY (R84). -/
  | delayTimerExpiry (col : PinColumn)
  /-- DRIVE_END (R93): the last sample of DRIVE reads `milliamps`. -/
  | driveEnd (p : Pin) (milliamps : Nat)
  /-- OVERCURRENT (R92). -/
  | overcurrent (p : Pin)
  /-- HOLD_END (R88). -/
  | holdEnd (p : Pin)
  /-- RECOVERY_END (R88). -/
  | recoveryEnd (p : Pin)
  /-- COIL_RISE (R104): the first sample at or above 1.0 A comes `t` ticks after the pulse's start. -/
  | coilRise (t : Nat)
  /-- TEST_PULSE_TIMEOUT (R104). -/
  | testPulseTimeout
  /-- WINDOW_END (R113). -/
  | windowEnd
  /-- TEMPERATURE_CONVERSION (R117) with the 10-bit code of R115. -/
  | temperatureConversion (code : BitVec 10)
  /-- SUPPLY_CONVERSION (R122) with the 10-bit code of R115. -/
  | supplyConversion (code : BitVec 10)
  /-- DWELL_RUNS_OUT (R120). -/
  | dwellRunsOut
  /-- MOVE_START (R146); `paper` is the level of the paper sensor at that instant (R156). -/
  | moveStart (paper : Bool)
  /-- STEP (R127); `paper` and `mark` are the two channels of the sensing station at that step. -/
  | step (paper : Bool) (mark : Bool)
  /-- SENSOR_PULSE (R148). -/
  | sensorPulse
  /-- RETRY_TIMER_EXPIRY (R149). -/
  | retryTimerExpiry
  /-- IDLE_RELEASE_TIMER_EXPIRY (R170). -/
  | idleReleaseTimerExpiry
  /-- AUTOMATIC_TEAR (R175). -/
  | automaticTear
  /-- TALLY_INPUT_CHANGE (R178): input `u` changes to `level`. -/
  | tallyInputChange (u : Fin 2) (level : Bool)
  /-- QUALIFIED_EDGE (R179). -/
  | qualifiedEdge (u : Fin 2)
  /-- SELECT_FALLS (R181). -/
  | selectFalls (l : Link)
  /-- BYTE_ARRIVES (R181). -/
  | byteArrives (l : Link) (b : Byte)
  deriving DecidableEq, Repr

end Sys2Proof
end

