-- ==== Sys2Proof/Config.lean ====
section
/-! DEFINITION. The values that the manual leaves open. Each is a constant without a body: nothing can
be proved of its value. The argument is the free-value index that State holds, which every use advances. -/

namespace Sys2Proof

/-- The position counter after it is counted past -32 768 or 32 767 (R63 gives its range and no rule
beyond it). Log entry 6. -/
opaque Config.counterPastRange : Nat → BitVec 16

/-- What stands for the drive-supply reading, in 0.1 V, where one is used before the first supply
conversion (R114 leaves it absent). Log entry 7. -/
opaque Config.unreadSupply : Nat → Nat

end Sys2Proof
end

