-- ==== Sys2Proof/Machine/State.lean ====
section
/-! DEFINITION. The state of the part, block by block (the table of 00, section 2.1), as plain data, and
the state right after power-on reset. Computed views (engine state, strike enable, ATTN, effective length)
are functions of Machine/Ops.lean and Machine/Form.lean (log entry 9). -/

namespace Sys2Proof.Machine

/-! ## Link ports (chapter 11) -/

/-- The sixteen request kinds (R183). -/
inductive ReqKind where
  | noOp | putLine | putMotion | setForm | setHead | readState | readPosition | takeNotice
  | cancel | tallySet | tallyArm | tallyMask | tallyClear | clear | engineReset | linkReset
  deriving DecidableEq, Repr

/-- The status of a response (R191). -/
inductive Status where
  | ok | noRoom | badLine | malformed | notAllowed | locked
  deriving DecidableEq, Repr

/-- The cause of a MALFORMED response (R181, R182). -/
inductive MalformedCause where
  | unknownKind | length | truncated
  deriving DecidableEq, Repr

/-- A complete request frame (R191). -/
structure Frame where
  kind : ReqKind
  tag : Byte
  payload : List Byte
  deriving DecidableEq, Repr

/-- A frame discarded as MALFORMED while its period goes on: the received kind byte, the tag byte once
it has come, the cause and the number of bytes received in the frame (R181, R182). -/
structure BadFrame where
  kindByte : Byte
  tag : Option Byte
  cause : MalformedCause
  received : Nat
  deriving DecidableEq, Repr

/-- The frame receiver (R181). -/
inductive RxState where
  /-- SEL is high, or no period has begun. -/
  | idle
  /-- The header bytes received so far, 0 to 3 of them. -/
  | header (got : List Byte)
  /-- The header is complete; `got` holds the payload bytes so far, fewer than `len`. -/
  | payload (kind : ReqKind) (tag : Byte) (len : Nat) (got : List Byte)
  /-- The rest of the period is not read; `bad` is present when the frame is MALFORMED. -/
  | discard (bad : Option BadFrame)
  deriving DecidableEq, Repr

/-- A response, before it is laid out on the wire (R191). -/
structure Response where
  kindByte : Byte
  tag : Byte
  status : Status
  payload : List Byte
  deriving DecidableEq, Repr

/-! ## Records and the Line Store (chapter 2) -/

/-- The five densities (R4). -/
inductive Density where
  | dpi120 | dpi144 | dpi180 | dpi240 | dpi360
  deriving DecidableEq, Repr

/-- The direction request of a line record (R19). -/
inductive DirRequest where
  | auto | right | left
  deriving DecidableEq, Repr

/-- The speed classes, fastest first (section 3.3 of 00). -/
inductive SpeedClass where
  | draft | normal | heavy | creep
  deriving DecidableEq, Repr

/-- A direction of carriage travel: rightward is toward increasing counts. -/
inductive Dir where
  | right | left
  deriving DecidableEq, Repr

/-- A segment of a line record (R20). -/
structure Segment where
  start : Nat
  count : Nat
  deriving DecidableEq, Repr

/-- A block of the pool while it is chained: its number, 0 to 383, and the dot columns stored in its
slots (R20, R25). -/
structure Block where
  number : Nat
  cols : List Rows
  deriving DecidableEq, Repr

/-- The fields of a line record as stored (R19), with its segment list and its chain (R20). -/
structure LineFields where
  density : Density
  origin : Nat
  dirRequest : DirRequest
  ceiling : SpeedClass
  urgent : Bool
  unidirAlign : Bool
  tallyHold : Option (Fin 2)
  trailingFeed : Nat
  segments : List Segment
  chain : List Block
  deriving DecidableEq, Repr

/-- The paper paths (R126). -/
inductive PaperPath where
  | tractor | sheet
  deriving DecidableEq, Repr

/-- The kinds of motion record with the parameter as stored (R22). -/
inductive MotionKind where
  | feed (n : Nat)
  | reverse (n : Nat)
  | vtab
  | formfeed
  | tear
  | load
  | park
  | path (p : PaperPath)
  /-- A coil test of one pin, or of all pins when `pin` is absent. -/
  | coilTest (pin : Option Pin)
  deriving DecidableEq, Repr

/-- A record: a line or a motion (R18). -/
inductive Record where
  | line (f : LineFields)
  | motion (k : MotionKind)
  deriving DecidableEq, Repr

/-- The state of an entry in its queue (R33). -/
inductive EntryState where
  | queued | held | granted
  deriving DecidableEq, Repr

/-- The result of a line operation (R21). -/
structure LineResult where
  clipped : Nat := 0
  lost : Nat := 0
  clippedFlag : Bool := false
  repaired : Bool := false
  imperfect : Bool := false
  substituted : Bool := false
  degraded : Bool := false
  short : Bool := false
  deriving DecidableEq, Repr

/-- A live descriptor (R26): an entry of its link's queue. `stamp` is the model's own count of
acceptances over both links, for "accepted first" in R179 (log entry 11). -/
structure Entry where
  seq : SeqNo
  state : EntryState
  blocks : Nat
  record : Record
  result : LineResult
  stamp : Nat
  deriving DecidableEq, Repr

/-- What the Line Store holds for one link: the queue, oldest first (R32), the next sequence number (R30)
and the FLOW output (R31). -/
structure LinkStore where
  queue : List Entry
  nextSeq : SeqNo
  flow : Bool
  deriving DecidableEq, Repr

/-! ## Notices (R186, R192) -/

/-- The cause that failed a pin (R96, R106, R192). -/
inductive PinCause where
  | short | weak | openCoil
  deriving DecidableEq, Repr

/-- The cause of a carriage fault or a homing failure (R73, R77, R192). -/
inductive CarCause where
  | encoder | stall | overrun | noIndex
  deriving DecidableEq, Repr

/-- Why a coil result is INVALID (R103, R109, R192). -/
inductive InvalidCause where
  | limit | supply | carriage | cut
  deriving DecidableEq, Repr

/-- The result of the test of one pin (R104, R106). -/
inductive CoilOutcome where
  | normal (rise : Nat)
  | short (rise : Nat)
  | openCoil
  | invalid (cause : InvalidCause)
  deriving DecidableEq, Repr

/-- A pin's health (R95). -/
inductive Health where
  | good | suspect | failed
  deriving DecidableEq, Repr

/-- A four-level state of the Head Thermal Monitor (R116, R117, R118). -/
inductive Level where
  | cool | warm | hot | limit
  deriving DecidableEq, Repr

/-- The outcome of a motion entry (R160). -/
inductive MoveOutcome where
  | done | short | tail | notMade | noPaper | noEdge
  deriving DecidableEq, Repr

/-- The reason of an entry that is not made (R152, R160). -/
inductive NotMadeReason where
  | path | paper | state
  deriving DecidableEq, Repr

/-- Paper states (R126). `loading` holds whether paper arrival has been seen (R135, R156), `tail` the tail
distance, which is present only in TAIL (R141). -/
inductive PaperState where
  | none
  | loading (arrived : Bool)
  | present
  | tail (distance : Int)
  | parked
  deriving DecidableEq, Repr

/-- Tear states (R126, R154). -/
inductive TearState where
  | atPrint | atTear
  deriving DecidableEq, Repr

/-- Edge learning states (R136). -/
inductive EdgeState where
  | off | seeking | locked | lost
  deriving DecidableEq, Repr

/-- A direction of paper motion (section 3.4 of 00). -/
inductive MoveDir where
  | forward | reverse
  deriving DecidableEq, Repr

/-- The source of a release by a tally unit (R179). -/
inductive ReleaseSource where
  | edge | count | latch
  deriving DecidableEq, Repr

/-- Who asked for a move (R145, R147). -/
inductive MoveSource where
  | entry (l : Link) (seq : SeqNo)
  | line
  | auto
  deriving DecidableEq, Repr

/-- The kinds of single move (R147), with the distance where the requester fixes it. -/
inductive MoveKind where
  /-- The return from the tear position (R155). -/
  | back
  | feed (n : Nat)
  | reverse (n : Nat)
  | vtab
  | formfeed
  /-- The form feed that begins a TEAR (R154). -/
  | tearFeed
  | tearAdvance
  /-- The seek and feed of LOAD (R156). -/
  | load
  | park
  | eject
  /-- The forward substitution move (R56). -/
  | subForward (n : Nat)
  /-- The reverse substitution move (R56). -/
  | subReverse (n : Nat)
  /-- The forward trailing feed of a line (R57). -/
  | trailing (n : Nat)
  /-- The reverse trailing feed of a line (R57). -/
  | trailingReverse (n : Nat)
  deriving DecidableEq, Repr

/-- The carriage states as the notices and READ STATE name them (R66). -/
inductive CarStateName where
  | unhomed | homing | stopped | rampUp | cruise | rampDown | fault
  deriving DecidableEq, Repr

/-- The notices (the table of R192), with the fields of the rule that posts each. -/
inductive Notice where
  /-- LINE DONE (R21, R60). -/
  | lineDone (l : Link) (seq : SeqNo) (r : LineResult)
  /-- MOVE DONE (R160). -/
  | moveDone (l : Link) (seq : SeqNo) (k : MotionKind) (o : MoveOutcome) (reason : Option NotMadeReason)
      (distance : Option Nat) (moved : Int) (back : Int) (stalls : Nat) (form : BitVec 16) (offset : Nat)
      (paper : PaperState) (tear : TearState) (path : PaperPath) (trusted : Bool)
  /-- CANCELLED (R173). -/
  | cancelled (purged : Nat) (granted : Option SeqNo)
  /-- COIL RESULT (R107). -/
  | coilResult (seq : SeqNo) (p : Pin) (o : CoilOutcome) (supply : Nat) (health : Health) (faults : Nat)
      (final : Bool)
  /-- FORM BOUNDARY (R128). -/
  | formBoundary (form : BitVec 16) (offset : Nat) (len : Nat) (dir : MoveDir) (trusted : Bool)
  /-- TEAR POSITION (R154). -/
  | tearPosition (form : BitVec 16) (offset : Nat) (distance : Int) (source : MoveSource)
  /-- PAPER OUT (R141). -/
  | paperOut (form : BitVec 16) (offset : Nat) (distance : Int)
  /-- JAM (R150). -/
  | jam (source : MoveSource) (k : MoveKind) (distance : Nat) (moved : Int) (form : BitVec 16) (offset : Nat)
  /-- PIN FAILED (R96, R106). -/
  | pinFailed (p : Pin) (c : PinCause)
  /-- THERMAL (R118). -/
  | thermal (now before heat temperature : Level) (peak : Nat) (peakPin : Pin) (reading : Option Int)
  /-- LOW SUPPLY (R122). -/
  | lowSupply (set : Bool) (reading : Nat)
  /-- FORM LENGTH (R138). -/
  | formLength (len before programmed removed : Nat) (form : BitVec 16) (offset : Nat)
  /-- EDGE LOST (R140). -/
  | edgeLost (len removed : Nat) (form : BitVec 16) (offset : Nat)
  /-- ENGINE RESET (R164). -/
  | engineReset
  /-- TALLY RELEASE (R179). -/
  | tallyRelease (input : Fin 2) (l : Link) (seq : SeqNo) (source : ReleaseSource)
  /-- CARRIAGE FAULT (R73, R77). -/
  | carriageFault (c : CarCause) (counter : Int) (state : CarStateName)
  deriving DecidableEq, Repr

/-- A link port (chapter 11). -/
structure LinkPort where
  /-- SEL is low: a select period is in progress (R180). -/
  selLow : Bool
  rx : RxState
  /-- The byte position in the select period (R180). -/
  position : Nat
  /-- The pending response (R182). -/
  response : Option Response
  /-- The response built in this period, which becomes pending at the rise of SEL (R182). -/
  built : Option Response
  /-- The notice queue, oldest first (R186). -/
  notices : List Notice
  /-- The LOST flag (R186). -/
  lost : Bool
  deriving DecidableEq, Repr

/-! ## Engine Arbiter (chapter 10) -/

/-- The halt set (R163). -/
structure HaltSet where
  jam : Bool := false
  paperOut : Bool := false
  noPaper : Bool := false
  carriage : Bool := false
  deriving DecidableEq, Repr

/-- The granted entry (R163); its kind is that of the head of its link's queue. -/
structure Granted where
  link : Link
  seq : SeqNo
  deriving DecidableEq, Repr

/-- The head settings (R176, R184). -/
structure HeadSettings where
  gap : Nat
  trim : Int
  /-- The direction mode is UNI. -/
  uni : Bool
  substitution : Bool
  /-- The auto-tear dwell in seconds. -/
  autoTear : Nat
  /-- The idle-release time in units of 0.5 s. -/
  idleRelease : Nat
  deriving DecidableEq, Repr

/-- The Engine Arbiter (R163). A timer is absent while it is stopped and holds the ticks left while it
runs. -/
structure Arbiter where
  halt : HaltSet
  granted : Option Granted
  /-- The form hold is owned by Job. -/
  hold : Bool
  idleTimer : Option Nat
  autoTimer : Option Nat
  head : HeadSettings
  deriving DecidableEq, Repr

/-- The engine states as reported (R163). -/
inductive EngineState where
  | unready | idle | planning | pass | move | coilTest | halted
  deriving DecidableEq, Repr

/-- The sub-states of a line operation that waits (R121, R163). -/
inductive WaitState where
  | waitThermal | waitSupply | dwell
  deriving DecidableEq, Repr

/-! ## Pass Planner (chapter 3) -/

/-- A set of dots: the dot columns that hold any, in ascending order, with the rows of each. -/
abbrev DotSet := List (Nat × Rows)

/-- The whole of a pass's dots, or the dot columns of one parity (R46). -/
inductive Half where
  | whole | even | odd
  deriving DecidableEq, Repr

/-- The passes of a line operation (R40, R44). -/
inductive PassId where
  | main (h : Half)
  | repair
  | up (h : Half)
  | down (h : Half)
  deriving DecidableEq, Repr

/-- The two substitution groups (R55). -/
inductive Group where
  | up | down
  deriving DecidableEq, Repr

/-- Where the line operation stands: the phase of R40 together with what it waits for. -/
inductive LineStage where
  /-- The return from the tear position is due or in progress (R40). -/
  | returning
  /-- The pass has fallen due and is not planned yet: a gate is closed (R42, R121). -/
  | planDue (p : PassId)
  /-- The pass has a plan, BUILDING or READY, and no carriage start yet. -/
  | planned (p : PassId)
  /-- The pass has been given its carriage start. -/
  | striking (p : PassId)
  /-- The substitution move of the group is due or in progress (R56). -/
  | subMove (g : Group)
  /-- The trailing feed is due or in progress (R57). -/
  | feeding
  /-- A move of the line has jammed; the line completes at CLEAR (R59). -/
  | jammed
  /-- The line has nothing left to do, but the engine is halted: it completes when the halt is left (R171, R173,
  log entry 37). -/
  | held
  deriving DecidableEq, Repr

/-- The line context (R40). `unstruck` holds the strikable dots that are neither struck nor lost (R41). -/
structure LineContext where
  link : Link
  stage : LineStage
  netOffset : Int
  unstruck : DotSet
  /-- The repair candidates (R53). -/
  repairs : DotSet
  upGroup : DotSet
  downGroup : DotSet
  lastMainDir : Option Dir
  /-- The odd half has a plan while the even half is struck (R42, R46). -/
  oddPlanned : Bool
  /-- The line has been cancelled (R58). -/
  cancelled : Bool
  deriving DecidableEq, Repr

/-- A strike list entry (R51), with its target in sixteenths (R9) and the dot column it was built from. -/
structure StrikeEntry where
  target : Int
  trigger : Int
  fraction : Nat
  col : PinColumn
  column : Nat
  rowMask : Rows
  struckMask : Rows
  deriving DecidableEq, Repr

/-- A planned pass: the constants of R11, the values of R50 and the entries of R51. `rowShift` is the
dot's row less the striking pin (0, or 1 in an up-group pass, -1 in a down-group pass). -/
structure PassPlan where
  pass : PassId
  dir : Dir
  cls : SpeedClass
  gap : Nat
  trim : Int
  supply : Nat
  lead : Nat
  fraction : Nat
  driveTime : Nat
  cycle : Nat
  spacing : Nat
  startPoint : Int
  endPoint : Int
  firstTrigger : Int
  lastTrigger : Int
  rowShift : Int
  /-- The thermal state at plan time was HOT (R119). -/
  hot : Bool
  entries : List StrikeEntry
  deriving DecidableEq, Repr

/-- A strike list (R52). -/
inductive StrikeList where
  | free
  | building (p : PassPlan)
  | ready (p : PassPlan)
  | striking (p : PassPlan)
  deriving DecidableEq, Repr

/-- The cooling dwell of the plan that waits for its carriage start (R120). -/
inductive Dwell where
  | none
  /-- The plan was taken at HOT; the dwell begins at the plan's completion or the end of the pass being
  struck, whichever is later. -/
  | waiting
  | running (left : Nat)
  | over
  deriving DecidableEq, Repr

/-! ## Carriage Servo (chapter 4) -/

/-- The steps of a homing (R76). -/
inductive HomingStep where
  | rest
  /-- The clear step; `low` holds the counter at which the index input was first low. -/
  | clear (low : Option Int)
  | seek
  | settle
  deriving DecidableEq, Repr

/-- The carriage states (R66). -/
inductive CarState where
  | unhomed
  | homing (h : HomingStep)
  | stopped
  | rampUp
  | cruise
  | rampDown
  | fault
  deriving DecidableEq, Repr

/-- What a carriage in RAMP_UP, CRUISE or RAMP_DOWN is doing: the positioning move from `origin` (R67), or
the pass itself (R68). -/
inductive Leg where
  | positioning (origin : Int)
  | pass
  deriving DecidableEq, Repr

/-- What the Planner handed the servo (R50), and the leg in progress. -/
structure CarMotion where
  leg : Leg
  dir : Dir
  cls : SpeedClass
  startPoint : Int
  endPoint : Int
  firstTrigger : Int
  lastTrigger : Int
  deriving DecidableEq, Repr

/-- The Carriage Servo. -/
structure Carriage where
  encA : Bool
  encB : Bool
  counter : Int
  periodTimer : Nat
  /-- The captured count period P (R64). -/
  period : Nat
  state : CarState
  indexHigh : Bool
  indexArmed : Bool
  motion : Option CarMotion
  /-- Strikes are suspended by the velocity window (R70). -/
  suspended : Bool
  deriving DecidableEq, Repr

/-! ## Strike Sequencer and Pin Drivers (chapters 5, 6) -/

/-- A column delay timer (R80); `entry` is the index of its entry in the strike list. -/
inductive DelayTimer where
  | idle
  | running (left : Nat) (entry : Nat)
  deriving DecidableEq, Repr

/-- An item of the repair list (R87). -/
structure RepairItem where
  column : Nat
  row : Nat
  pin : Pin
  deriving DecidableEq, Repr

/-- The Strike Sequencer (R80). `list` is the index of the STRIKING list, `head` that of the next entry not
yet reached; the repair list and the overflow mark are empty and clear while it is IDLE (log entry 36). -/
structure Sequencer where
  walking : Bool
  list : Fin 2
  dir : Dir
  fraction : Nat
  driveTime : Nat
  head : Nat
  timerA : DelayTimer
  timerB : DelayTimer
  repairs : List RepairItem
  overflow : Bool
  deriving DecidableEq, Repr

/-- The phase of a pin channel with the ticks left (R88); `test` marks a coil test pulse (R105). -/
inductive Channel where
  | ready
  | drive (left : Nat) (test : Bool)
  | hold (left : Nat)
  | recovery (left : Nat)
  deriving DecidableEq, Repr

/-- The last coil result of a pin's record (R101). -/
inductive LastCoil where
  | none | normal | short | openCoil | invalid
  deriving DecidableEq, Repr

/-- A pin health record (R101). -/
structure PinRecord where
  health : Health
  faults : Nat
  lastCoil : LastCoil
  rise : Option Nat
  deriving DecidableEq, Repr

/-- The step of the pin in progress of a coil test (R102); in PULSE, the ticks since the pulse's start. -/
inductive TestStep where
  | waiting
  | pulse (elapsed : Nat)
  deriving DecidableEq, Repr

/-- The test context (R102), with the supply reading held when the test of the pin began (R107). -/
structure TestContext where
  seq : SeqNo
  todo : List Pin
  pin : Option Pin
  step : TestStep
  supply : Nat
  deriving DecidableEq, Repr

/-! ## Head Thermal Monitor (chapter 7) -/

/-- The two inputs of the ADC (R114). -/
inductive AdcInput where
  | temperature | supply
  deriving DecidableEq, Repr

/-- The Head Thermal Monitor. `peak` and `peakPin` are the greatest value judged at the most recent window
end and the pin that held it (R118). -/
structure Thermal where
  acc : Vector Nat 18
  windowLeft : Nat
  scan : AdcInput
  convLeft : Nat
  temperature : Option Int
  supply : Option Nat
  heatState : Level
  tempState : Level
  thermal : Level
  lowSupply : Bool
  peak : Nat
  peakPin : Pin
  deriving DecidableEq, Repr

/-! ## Form Position Unit and Paper Drive (chapters 8, 9) -/

/-- The form position record (R126), with the last sampled level of the paper sensor. -/
structure FormPosition where
  form : BitVec 16
  offset : Nat
  odometer : Odo
  forwardMark : Odo
  path : PaperPath
  paper : PaperState
  tear : TearState
  tearDistance : Int
  edge : EdgeState
  previousEdge : Option Odo
  candidate : Option Nat
  pendingCorrection : Option Odo
  lastCorrection : Option Int
  noPaperRun : Nat
  trusted : Bool
  paperSensor : Bool
  deriving DecidableEq, Repr

/-- The form map (R129). -/
structure FormMap where
  programmed : Nat
  learned : Option Nat
  tof : Nat
  trim : Int
  skip : Nat
  stops : List Nat
  lock : Bool
  deriving DecidableEq, Repr

/-- The drive states (R145): BACKOFF with the reverse steps left, RETRY_WAIT with the ticks left. -/
inductive DriveState where
  | stopped
  | stepping
  | backoff (left : Nat)
  | retryWait (left : Nat)
  deriving DecidableEq, Repr

/-- The move context (R145). While `searching` holds, `distance` is the search limit. `startForm` is the
form number at the move's start (R128). -/
structure MoveContext where
  source : MoveSource
  kind : MoveKind
  dir : MoveDir
  distance : Nat
  searching : Bool
  net : Int
  stalls : Nat
  /-- Forward steps commanded in the attempt, `s` of R148. -/
  steps : Nat
  /-- Sensor pulses received in the attempt, `q` of R148. -/
  pulses : Nat
  startForm : BitVec 16
  deriving DecidableEq, Repr

/-- A move that has fallen due and waits in STOPPED (R146). -/
structure DueMove where
  source : MoveSource
  kind : MoveKind
  deriving DecidableEq, Repr

/-- The progress of the granted motion entry: what its MOVE DONE reports (R160). -/
structure MotionRun where
  link : Link
  seq : SeqNo
  kind : MotionKind
  distance : Nat
  moved : Int
  back : Int
  stalls : Nat
  /-- A move of the entry has jammed; the entry completes at CLEAR (R150). -/
  jammed : Bool
  deriving DecidableEq, Repr

/-- The Paper Drive (R145). -/
structure Drive where
  state : DriveState
  move : Option MoveContext
  due : Option DueMove
  run : Option MotionRun
  deriving DecidableEq, Repr

/-- The two steppers of the Paper Drive (R145, R146): the half-steps that each has been driven, forward less
reverse, since power-on reset (log entry 38). -/
structure Steppers where
  platen : Int
  tractor : Int
  deriving DecidableEq, Repr

/-! ## Tally units (R177) -/

/-- The mode of a tally unit. -/
inductive TallyMode where
  | off | edge | count
  deriving DecidableEq, Repr

/-- The qualification of a tally input (R178); RISING with the ticks elapsed. -/
inductive Qualification where
  | low
  | rising (elapsed : Nat)
  | high
  deriving DecidableEq, Repr

/-- A tally unit. -/
structure TallyUnit where
  mode : TallyMode
  setValue : BitVec 16
  armed : BitVec 16
  present : BitVec 16
  /-- The mask is unmasked. -/
  unmasked : Bool
  latch : Bool
  qual : Qualification
  deriving DecidableEq, Repr

/-! ## The whole part -/

/-- One value for each link. -/
structure PerLink (α : Type) where
  job : α
  console : α
  deriving DecidableEq, Repr

/-- The state of the part. `freeIndex` counts the uses of free values and `acceptCount` the acceptances:
both are the model's own, as is `pending`, the queue of commands. -/
structure State where
  /-- The WIDTH strap as latched (R3, R185). -/
  width : Width
  /-- The EDGE strap as latched reads fitted (R185). -/
  edgeFitted : Bool
  port : PerLink LinkPort
  store : PerLink LinkStore
  acceptCount : Nat
  arb : Arbiter
  line : Option LineContext
  lists : Vector StrikeList 2
  dwell : Dwell
  car : Carriage
  sequ : Sequencer
  channels : Vector Channel 18
  health : Vector PinRecord 18
  test : Option TestContext
  heat : Thermal
  form : FormPosition
  map : FormMap
  drive : Drive
  steppers : Steppers
  tally : Vector TallyUnit 2
  freeIndex : Nat
  pending : List Instr
  deriving DecidableEq, Repr

/-- The reasons the part could stop with a fault. The manual describes no stop of the part: faults of the
mechanism are states and notices. -/
inductive Fault where
  /-- Raised by no command. Safe: no run ends in it. -/
  | neverRaised
  deriving DecidableEq, Repr

/-- The reasons a command is refused. -/
inductive Refusal where
  /-- Raised by an arm of `exec` whose row has no meaning yet; no arm is such an arm. Safe. -/
  | notModelled (mnemonic : String)
  deriving DecidableEq, Repr

/-! ## Power-on reset -/

/-- The head settings after power-on reset and engine reset (R6, R43, R55, R170, R175). -/
def HeadSettings.defaults : HeadSettings :=
  { gap := 1, trim := 0, uni := false, substitution := true, autoTear := 0, idleRelease := 4 }

/-- The form map after power-on reset (R129). -/
def FormMap.powerOn : FormMap :=
  { programmed := 3168, learned := none, tof := 0, trim := 0, skip := 0, stops := [], lock := false }

/-- A link port after power-on reset, with the level that its SEL pin has (R181, R182, R186, R188). -/
def LinkPort.powerOn (selLow : Bool) : LinkPort :=
  { selLow := selLow, rx := .idle, position := 0, response := none, built := none, notices := [],
    lost := false }

/-- The Line Store's part of a link after power-on reset (R26, R30, R31). -/
def LinkStore.powerOn : LinkStore := { queue := [], nextSeq := 0, flow := true }

/-- The record of a pin after power-on reset (R97, R101). -/
def PinRecord.powerOn : PinRecord := { health := .good, faults := 0, lastCoil := .none, rise := none }

/-- The Sequencer while it holds nothing (R80). -/
def Sequencer.empty : Sequencer :=
  { walking := false, list := 0, dir := .right, fraction := 0, driveTime := 0, head := 0, timerA := .idle,
    timerB := .idle, repairs := [], overflow := false }

/-- The Head Thermal Monitor after power-on reset (R111, R113, R114, R116, R117, R118, R122). -/
def Thermal.powerOn : Thermal :=
  { acc := Vector.replicate 18 0, windowLeft := 100000, scan := .temperature, convLeft := 10000,
    temperature := none, supply := none, heatState := .cool, tempState := .cool, thermal := .cool,
    lowSupply := false, peak := 0, peakPin := 0 }

/-- The form position record after power-on reset (R126). -/
def FormPosition.powerOn (edgeFitted paper : Bool) : FormPosition :=
  { form := 0, offset := 0, odometer := 0, forwardMark := 0, path := .tractor, paper := .none,
    tear := .atPrint, tearDistance := 0, edge := if edgeFitted then .seeking else .off,
    previousEdge := none, candidate := none, pendingCorrection := none, lastCorrection := none,
    noPaperRun := 0, trusted := false, paperSensor := paper }

/-- The carriage when power-on reset has ended: UNHOMED as R79 says, with the homing that R75 starts at
once, in its rest step. -/
def Carriage.powerOn (encA encB index : Bool) : Carriage :=
  { encA := encA, encB := encB, counter := 0, periodTimer := 0, period := 200000, state := .homing .rest,
    indexHigh := index, indexArmed := false, motion := none, suspended := false }

/-- A tally unit after power-on reset; an input that is high starts as HIGH (R177, R178). -/
def TallyUnit.powerOn (level : Bool) : TallyUnit :=
  { mode := .off, setValue := 0, armed := 0, present := 0, unmasked := false, latch := false,
    qual := if level then .high else .low }

/-- The state when power-on reset ends with the pins `pins` (R164 and the rules that own each field). The
SEL levels are the masters', not the reset's. -/
def State.powerOn (pins : PowerOnPins) (selJob selConsole : Bool) : State :=
  { width := pins.width, edgeFitted := pins.edgeFitted
    port := ⟨LinkPort.powerOn selJob, LinkPort.powerOn selConsole⟩
    store := ⟨LinkStore.powerOn, LinkStore.powerOn⟩
    acceptCount := 0
    arb := { halt := {}, granted := none, hold := false, idleTimer := none, autoTimer := none,
             head := HeadSettings.defaults }
    line := none
    lists := Vector.replicate 2 .free
    dwell := .none
    car := Carriage.powerOn pins.encoderA pins.encoderB pins.index
    sequ := Sequencer.empty
    channels := Vector.replicate 18 .ready
    health := Vector.replicate 18 PinRecord.powerOn
    test := none
    heat := Thermal.powerOn
    form := FormPosition.powerOn pins.edgeFitted pins.paper
    map := FormMap.powerOn
    drive := { state := .stopped, move := none, due := none, run := none }
    steppers := { platen := 0, tractor := 0 }
    tally := #v[TallyUnit.powerOn pins.tally0, TallyUnit.powerOn pins.tally1]
    freeIndex := 0
    pending := [] }

/-- The pins of `State.reset`: a wide carriage, the edge sensor fitted, every sensed input low (DESIGN
CHOICE, log entry 4). -/
def PowerOnPins.standard : PowerOnPins :=
  { width := .wide, edgeFitted := true, encoderA := false, encoderB := false, index := false,
    paper := false, tally0 := false, tally1 := false }

/-- The part right after power-on reset, with SEL high on both links and no command waiting. -/
def State.reset : State := State.powerOn PowerOnPins.standard false false

end Sys2Proof.Machine
end

