-- ==== Sys2Proof/Machine/Geometry.lean ====
section
/-! DEFINITION. The arithmetic of chapter 1: paper positions, lead, targets, trigger counts, delays, drive
time, pin cycle and spacing. -/

namespace Sys2Proof.Machine

/-- "Clamped to lo–hi" (section 3.5 of 00). -/
def clampNat (lo hi x : Nat) : Nat := max lo (min hi x)

/-- "Clamped to lo–hi" for signed values. -/
def clampInt (lo hi x : Int) : Int := max lo (min hi x)

/-- The nominal speed of a class in counts per second (section 3.3 of 00). -/
def SpeedClass.speed : SpeedClass → Nat
  | .draft => 14400
  | .normal => 10800
  | .heavy => 7200
  | .creep => 3600

/-- The ramp distance of a class in counts (section 3.3 of 00). -/
def SpeedClass.ramp : SpeedClass → Nat
  | .draft => 288
  | .normal => 216
  | .heavy => 144
  | .creep => 72

/-- The place of a class in the order from fastest to slowest. -/
def SpeedClass.rank : SpeedClass → Nat
  | .draft => 0
  | .normal => 1
  | .heavy => 2
  | .creep => 3

/-- The slower of two classes (R45). -/
def slowerClass (a b : SpeedClass) : SpeedClass := if a.rank ≤ b.rank then b else a

/-- The classes from `c` downward, fastest first (R45, R49). -/
def classesFrom (c : SpeedClass) : List SpeedClass :=
  [SpeedClass.draft, .normal, .heavy, .creep].filter (fun d => c.rank ≤ d.rank)

/-- The first class from `c` downward that passes `ok`, CREEP when none above it does (R45, R49). -/
def lowerUntil (ok : SpeedClass → Bool) (c : SpeedClass) : SpeedClass :=
  ((classesFrom c).find? ok).getD .creep

/-- The nominal count period in ticks (R11). -/
def nominalPeriod (c : SpeedClass) : Nat := 10000000 / c.speed

/-- K, the counts between adjacent dot columns (R4). -/
def Density.counts : Density → Nat
  | .dpi120 => 6
  | .dpi144 => 5
  | .dpi180 => 4
  | .dpi240 => 3
  | .dpi360 => 2

/-- The upper end of travel (R3). -/
def travelMost : Width → Int
  | .wide => 10239
  | .narrow => 6655

/-- The lower end of the printable window (R3). -/
def windowLeast : Nat := 216

/-- The upper end of the printable window (R3). -/
def windowMost : Width → Nat
  | .wide => 9719
  | .narrow => 5975

/-- The position lies inside the travel of the width (R3). -/
def inTravel (w : Width) (p : Int) : Bool := 0 ≤ p && p ≤ travelMost w

/-- The pin column of a pin row: even rows in A, odd rows in B (R1). -/
def pinColumnOf (r : Nat) : PinColumn := if r % 2 = 0 then .colA else .colB

/-- The pin column offset in counts (R1). -/
def columnOffset : PinColumn → Int
  | .colA => 0
  | .colB => 72

/-- The paper position of dot column `c` (R4). -/
def paperPosition (f : LineFields) (c : Nat) : Nat := f.origin + c * f.density.counts

/-- A dot at `x` is clipped (R5). -/
def clippedAt (w : Width) (x : Nat) : Bool := x < windowLeast || windowMost w < x

/-- The flight time in µs at a gap level (R7). -/
def flightTime (gap : Nat) : Nat := 300 + 40 * (gap - 1)

/-- The lead in sixteenths of a count (R8). -/
def leadOf (c : SpeedClass) (gap : Nat) : Nat := (c.speed * flightTime gap * 16 + 500000) / 1000000

/-- The target in sixteenths (R9); `base` is the dot's paper position less the striking pin's offset. -/
def targetOf (d : Dir) (base : Int) (lead : Nat) (trim : Int) : Int :=
  match d with
  | .right => 16 * base - lead
  | .left => 16 * base + lead + 16 * trim

/-- The trigger count of a target (R10): floor rightward, ceil leftward. -/
def triggerOf (d : Dir) (target : Int) : Int :=
  match d with
  | .right => target / 16
  | .left => -((-target) / 16)

/-- The fraction of a target (R10). -/
def fractionOf (d : Dir) (target : Int) : Nat :=
  match d with
  | .right => (target - 16 * triggerOf d target).toNat
  | .left => (16 * triggerOf d target - target).toNat

/-- The delay in ticks between arming and fire (R12). -/
def delayTicks (fraction period : Nat) : Nat := fraction * period / 16

/-- The drive time in µs from gap level and supply reading (R14). -/
def driveTimeOf (gap supply : Nat) : Nat :=
  clampNat 60 400 ((120 + 20 * (gap - 1)) * 240 / clampNat 190 300 supply)

/-- The pin cycle in µs (R15). -/
def pinCycle (driveTime : Nat) : Nat := driveTime + 40 + 140

/-- The minimum same-pin spacing in counts (R16). -/
def spacingOf (cycle : Nat) (c : SpeedClass) : Nat := (cycle * c.speed + 999999) / 1000000

end Sys2Proof.Machine
end

