-- ==== Sys2Proof/Machine/Dots.lean ====
section
/-! DEFINITION. Dots and sets of dots: how a chain is read (R20), which dots are clipped (R5), and the set
operations that the accounting of R41 uses. -/

namespace Sys2Proof.Machine

/-- The number of rows (or pins) set. -/
def rowsCount (m : Rows) : Nat := ((List.range 18).filter m.getLsbD).length

/-- The pins of column A (R1). -/
def evenPins : Rows := 0x15555#18

/-- The pins of column B (R1). -/
def oddPins : Rows := 0x2AAAA#18

/-- The pins of a pin column. -/
def columnPins : PinColumn → Rows
  | .colA => evenPins
  | .colB => oddPins

/-- The pins of a mask in ascending order (R87). -/
def pinsOf (m : Rows) : List Pin := (List.finRange 18).filter (fun p => m.getLsbD p.val)

/-- The mask of one pin. -/
def pinBit (p : Nat) : Rows := 1#18 <<< p

/-- The rows that a set of dots holds in dot column `c`. -/
def dotsAt (d : DotSet) (c : Nat) : Rows := (List.lookup c d).getD 0

/-- The number of dots of a set. -/
def dotsCount (d : DotSet) : Nat := (d.map (fun x => rowsCount x.2)).sum

/-- The set with the rows of every column changed by `f`; columns left without a row are dropped. -/
def dotsMap (f : Nat → Rows → Rows) (d : DotSet) : DotSet :=
  d.filterMap (fun x => if f x.1 x.2 = 0 then none else some (x.1, f x.1 x.2))

/-- The dots of `d` whose row is in `m`. -/
def dotsInRows (m : Rows) (d : DotSet) : DotSet := dotsMap (fun _ r => r &&& m) d

/-- The dots of `d` that are not in `e`. -/
def dotsDiff (d e : DotSet) : DotSet := dotsMap (fun c r => r &&& ~~~(dotsAt e c)) d

/-- The dots of `d` that are in `e`. -/
def dotsInter (d e : DotSet) : DotSet := dotsMap (fun c r => r &&& dotsAt e c) d

/-- The dots of the columns that a half takes (R46). -/
def dotsOfHalf (h : Half) (d : DotSet) : DotSet :=
  match h with
  | .whole => d
  | .even => d.filter (fun x => x.1 % 2 = 0)
  | .odd => d.filter (fun x => x.1 % 2 = 1)

/-- One more column of dots, in its place. -/
def dotsInsert (c : Nat) (m : Rows) : DotSet → DotSet
  | [] => [(c, m)]
  | (c', m') :: rest =>
    if c < c' then (c, m) :: (c', m') :: rest
    else if c = c' then (c, m ||| m') :: rest
    else (c', m') :: dotsInsert c m rest

/-- The union of two sets of dots. -/
def dotsUnion (d e : DotSet) : DotSet := d.foldr (fun x acc => dotsInsert x.1 x.2 acc) e

/-! ## Segments, blocks and the chain (R20) -/

/-- The blocks that a segment of `n` columns occupies (R18, R20). -/
def blocksFor (n : Nat) : Nat := (n + 31) / 32

/-- The columns of a segment cut into runs of 32, the last holding the rest (R20). -/
def cutBlocks (cols : List Rows) : List (List Rows) :=
  (List.range (blocksFor cols.length)).map (fun i => (cols.drop (32 * i)).take 32)

/-- The columns that a run of blocks holds, in order (R20). -/
def chainColumns (run : List Block) : List Rows := (run.map (·.cols)).flatten

/-- Every dot column of the segments with its index, read from the chain: each segment has its own run of
blocks, in order (R20). -/
def readChain : List Segment → List Block → List (Nat × Rows)
  | [], _ => []
  | g :: gs, chain =>
    ((chainColumns (chain.take (blocksFor g.count))).zipIdx g.start).map (fun x => (x.2, x.1)) ++
      readChain gs (chain.drop (blocksFor g.count))

/-- The dots of a line: the columns of its chain that hold any row (R4, R20). -/
def lineDots (f : LineFields) : DotSet := (readChain f.segments f.chain).filter (fun x => x.2 ≠ 0)

/-- The strikable dots of a line: those not clipped (R5, R41). -/
def strikableDots (w : Width) (f : LineFields) : DotSet :=
  (lineDots f).filter (fun x => !clippedAt w (paperPosition f x.1))

/-- The clipped count of a line (R5). -/
def clippedCount (w : Width) (f : LineFields) : Nat :=
  dotsCount ((lineDots f).filter (fun x => clippedAt w (paperPosition f x.1)))

end Sys2Proof.Machine
end

