-- ==== Sys2Proof/Machine/Ops.lean ====
section
/-! DEFINITION. The shared operations over links, notices, the Line Store, the head of a queue and the pins:
every access to a part of the state that more than one block uses goes through here. -/

namespace Sys2Proof.Machine

/-! ## One value for each link -/

/-- The value of a link. -/
def PerLink.get {α : Type} (x : PerLink α) : Link → α
  | .job => x.job
  | .console => x.console

/-- The pair with the value of a link replaced. -/
def PerLink.set {α : Type} (x : PerLink α) (l : Link) (v : α) : PerLink α :=
  match l with
  | .job => { x with job := v }
  | .console => { x with console := v }

/-- The state with the port of a link changed. -/
def State.modifyPort (s : State) (l : Link) (f : LinkPort → LinkPort) : State :=
  { s with port := s.port.set l (f (s.port.get l)) }

/-- The state with the Line Store's part of a link changed. -/
def State.modifyStore (s : State) (l : Link) (f : LinkStore → LinkStore) : State :=
  { s with store := s.store.set l (f (s.store.get l)) }

/-! ## Notices (R186) -/

/-- A notice joins the queue of a port, or is dropped and marked LOST when the queue holds 16 (R186). -/
def LinkPort.post (p : LinkPort) (n : Notice) : LinkPort :=
  if 16 ≤ p.notices.length then { p with lost := true } else { p with notices := p.notices ++ [n] }

/-- A notice posted to one link (R186). -/
def State.post (s : State) (l : Link) (n : Notice) : State := s.modifyPort l (·.post n)

/-- A notice posted to both links in one event; the two postings are independent (R186). -/
def State.postBoth (s : State) (n : Notice) : State :=
  { s with port := ⟨s.port.job.post n, s.port.console.post n⟩ }

/-! ## Store accounting (R27) -/

/-- The block reserve of a link (R27). -/
def blockReserve : Link → Nat
  | .job => 96
  | .console => 48

/-- The descriptor reserve of a link (R27). -/
def descReserve : Link → Nat
  | .job => 16
  | .console => 8

/-- The blocks of the shared region (R27). -/
def sharedBlocks : Nat := 240

/-- The descriptors of the shared region (R27). -/
def sharedDescs : Nat := 24

/-- The block usage of a link: the sum of the charges of its live entries (R27). -/
def LinkStore.usedBlocks (t : LinkStore) : Nat := (t.queue.map (·.blocks)).sum

/-- The descriptor usage of a link (R27). -/
def LinkStore.usedDescs (t : LinkStore) : Nat := t.queue.length

/-- Shared in use, for either resource: the parts of the two usages above the reserves (R27). -/
def sharedInUse (reserve use : Link → Nat) : Nat :=
  (use .job - reserve .job) + (use .console - reserve .console)

/-- Available to a link, for either resource (R27). -/
def availableTo (reserve use : Link → Nat) (shared : Nat) (l : Link) : Nat :=
  (reserve l - min (use l) (reserve l)) + (shared - sharedInUse reserve use)

/-- The blocks available to a link (R27). -/
def availableBlocks (t : PerLink LinkStore) (l : Link) : Nat :=
  availableTo blockReserve (fun k => (t.get k).usedBlocks) sharedBlocks l

/-- The descriptors available to a link (R27). -/
def availableDescs (t : PerLink LinkStore) (l : Link) : Nat :=
  availableTo descReserve (fun k => (t.get k).usedDescs) sharedDescs l

/-- The free blocks of the pool: those charged to no live entry (R25, R39). -/
def freeBlocks (t : PerLink LinkStore) : Nat := 384 - (t.job.usedBlocks + t.console.usedBlocks)

/-- The FREE descriptors of the table (R26, R39). -/
def freeDescs (t : PerLink LinkStore) : Nat := 48 - (t.job.usedDescs + t.console.usedDescs)

/-- The blocks of the shared region in nobody's use (R27). -/
def sharedFreeBlocks (t : PerLink LinkStore) : Nat :=
  sharedBlocks - sharedInUse blockReserve (fun k => (t.get k).usedBlocks)

/-- The descriptors of the shared region in nobody's use (R27). -/
def sharedFreeDescs (t : PerLink LinkStore) : Nat :=
  sharedDescs - sharedInUse descReserve (fun k => (t.get k).usedDescs)

/-- FLOW after a re-evaluation (R31). -/
def flowAfter (now : Bool) (blocks descs : Nat) : Bool :=
  match now with
  | true => !(blocks < 32 || descs < 2)
  | false => 64 ≤ blocks && 4 ≤ descs

/-- Both FLOW outputs re-evaluated (R31). -/
def State.reflow (s : State) : State :=
  { s with store :=
    ⟨{ s.store.job with flow := flowAfter s.store.job.flow (availableBlocks s.store .job) (availableDescs s.store .job) },
     { s.store.console with flow := flowAfter s.store.console.flow (availableBlocks s.store .console) (availableDescs s.store .console) }⟩ }

/-! ## The block pool (R25) -/

/-- The chain of a record. -/
def Record.chain : Record → List Block
  | .line f => f.chain
  | .motion _ => []

/-- The numbers of the blocks chained to live entries of a link. -/
def LinkStore.chained (t : LinkStore) : List Nat :=
  (t.queue.map (fun e => e.record.chain.map (·.number))).flatten

/-- The free set of the pool in ascending order: the blocks chained to no live descriptor (R25). Which free
block a chain receives is not visible; the model takes the lowest (log entry 10). -/
def freeBlockNumbers (t : PerLink LinkStore) : List Nat :=
  (List.range 384).filter (fun b => !(t.job.chained ++ t.console.chained).contains b)

/-- The chain that holds the runs of columns of all segments, laid into the given blocks (R20). -/
def layChain (numbers : List Nat) (runs : List (List Rows)) : List Block :=
  List.zipWith (fun n cols => { number := n, cols := cols }) numbers runs

/-! ## Acceptance, release and purge (R28, R35, R36) -/

/-- An accepted record joins the tail of its link's queue, with the link's next sequence number; both FLOW
outputs are re-evaluated, and an accepted Job record stops the idle-release timer (R28, R30, R170). -/
def State.accept (s : State) (l : Link) (r : Record) (blocks : Nat) (st : EntryState) : State :=
  let t := s.store.get l
  let e : Entry := { seq := t.nextSeq, state := st, blocks := blocks, record := r, result := {}, stamp := s.acceptCount }
  let s := s.modifyStore l (fun t => { t with queue := t.queue ++ [e], nextSeq := t.nextSeq + 1 })
  let s := { s with acceptCount := s.acceptCount + 1 }
  let s := if l = .job then { s with arb := { s.arb with idleTimer := none } } else s
  s.reflow

/-- The head of a queue leaves it with its whole charge; both FLOW outputs are re-evaluated (R35). -/
def State.releaseHead (s : State) (l : Link) : State :=
  (s.modifyStore l (fun t => { t with queue := t.queue.tail })).reflow

/-- The entries of a link that a purge takes: those QUEUED or HELD (R36). -/
def LinkStore.purgeable (t : LinkStore) : Nat := (t.queue.filter (fun e => e.state ≠ .granted)).length

/-- A purge of a link's QUEUED and HELD entries; the GRANTED entry stays, and both FLOW outputs are
re-evaluated (R36, R37). -/
def State.purge (s : State) (l : Link) : State :=
  (s.modifyStore l (fun t => { t with queue := t.queue.filter (fun e => e.state = .granted) })).reflow

/-- The state with the head entry of a link's queue changed. -/
def State.modifyHead (s : State) (l : Link) (f : Entry → Entry) : State :=
  s.modifyStore l (fun t => { t with queue := match t.queue with | [] => [] | e :: es => f e :: es })

/-- The head entry of a link's queue (R32). -/
def State.headEntry (s : State) (l : Link) : Option Entry := (s.store.get l).queue.head?

/-- The granted entry with its link, when there is one: it stays at the head of its queue (R32, R163). -/
def State.grantedEntry (s : State) : Option (Link × Entry) :=
  match s.arb.granted with
  | none => none
  | some g => (s.headEntry g.link).map (fun e => (g.link, e))

/-- The result of the line operation of a link, changed (R21). -/
def State.modifyResult (s : State) (l : Link) (f : LineResult → LineResult) : State :=
  s.modifyHead l (fun e => { e with result := f e.result })

/-! ## The form hold and the halt set -/

/-- The form hold becomes owned by no link, and the idle-release timer stops (R169, R170). -/
def State.releaseHold (s : State) : State := { s with arb := { s.arb with hold := false, idleTimer := none } }

/-- A cause enters the halt set, or leaves it (R171). -/
def State.modifyHalt (s : State) (f : HaltSet → HaltSet) : State :=
  { s with arb := { s.arb with halt := f s.arb.halt } }

/-- The halt set holds no cause. -/
def HaltSet.isEmpty (h : HaltSet) : Bool := !h.jam && !h.paperOut && !h.noPaper && !h.carriage

/-- The halt set holds PAPER_OUT, NO_PAPER or both, and nothing else (R171). -/
def HaltSet.onlyPaper (h : HaltSet) : Bool := !h.jam && !h.carriage && (h.paperOut || h.noPaper)

/-- The granted entry completes: its charge is released, it leaves its queue, and a Job entry that
completes at offset 0 releases the form hold (R35, R168, R169). The completion notice is posted before. -/
def State.completeEntry (s : State) (l : Link) : State :=
  let s := s.releaseHead l
  let s := { s with arb := { s.arb with granted := none } }
  if l = .job ∧ s.form.offset = 0 then s.releaseHold else s

/-! ## Pins and channels -/

/-- The phase of a pin's channel. -/
def State.channel (s : State) (p : Pin) : Channel := s.channels[p.val]

/-- The state with the channel of one pin set. -/
def State.setChannel (s : State) (p : Pin) (c : Channel) : State :=
  { s with channels := s.channels.set p.val c }

/-- The health record of a pin. -/
def State.pinRecord (s : State) (p : Pin) : PinRecord := s.health[p.val]

/-- The state with the health record of one pin set. -/
def State.setPinRecord (s : State) (p : Pin) (r : PinRecord) : State :=
  { s with health := s.health.set p.val r }

/-- A pin is FAILED (R95). -/
def State.isFailed (s : State) (p : Pin) : Bool := (s.pinRecord p).health = .failed

/-- The mask of the FAILED pins. -/
def State.failedPins (s : State) : Rows := BitVec.ofFnLE (fun p : Pin => s.isFailed p)

/-- The heat accumulator of a pin (R111). -/
def State.heatOf (s : State) (p : Pin) : Nat := s.heat.acc[p.val]

/-- Energy handed for a pin is added to its accumulator, which saturates at 65 535 (R112). -/
def State.addHeat (s : State) (p : Pin) (energy : Nat) : State :=
  { s with heat := { s.heat with acc := s.heat.acc.set p.val (min 65535 (s.heatOf p + energy)) } }

/-- The ticks of HOLD (R88). -/
def holdTicks : Nat := 400

/-- The ticks of RECOVERY (R88). -/
def recoveryTicks : Nat := 1400

/-- A channel after a cut: DRIVE and HOLD go to RECOVERY, the others stay (R91). -/
def Channel.cut : Channel → Channel
  | .drive _ _ => .recovery recoveryTicks
  | .hold _ => .recovery recoveryTicks
  | c => c

/-! ## Strike lists -/

/-- The state with one strike list set. -/
def State.setList (s : State) (i : Fin 2) (x : StrikeList) : State := { s with lists := s.lists.set i.val x }

/-- The index of the first strike list that `p` holds of. -/
def State.findList (s : State) (p : StrikeList → Bool) : Option (Fin 2) :=
  if p s.lists[0] then some 0 else if p s.lists[1] then some 1 else none

/-- A list is BUILDING or READY: it holds the plan that waits for its carriage start. -/
def StrikeList.isWaiting : StrikeList → Bool
  | .building _ => true
  | .ready _ => true
  | _ => false

/-- A list is STRIKING. -/
def StrikeList.isStriking : StrikeList → Bool
  | .striking _ => true
  | _ => false

/-- A list is FREE. -/
def StrikeList.isFree : StrikeList → Bool
  | .free => true
  | _ => false

/-- The waiting plan is discarded or dropped: its list becomes FREE and its dwell ends with it (R52, R58, R120). -/
def State.dropPlan (s : State) : State :=
  { s with
    lists := s.lists.map (fun x => if x.isWaiting then .free else x)
    dwell := .none }

/-- Both strike lists FREE and no dwell (R40, R52). -/
def State.freeLists (s : State) : State := { s with lists := Vector.replicate 2 .free, dwell := .none }

/-! ## Bytes of the form -/

/-- The effective length L: the learned length while present, else the programmed length (R129). -/
def FormMap.len (m : FormMap) : Nat := m.learned.getD m.programmed

end Sys2Proof.Machine
end

