-- ==== Sys2Proof/Machine/Flags.lean ====
section
/-! DEFINITION. The flags, outputs and states that are functions of the rest of the state: the engine
state, the strike enable, the pass gates, the trust of the position, ATTN (log entry 9). -/

namespace Sys2Proof.Machine

/-- ATTN of a link (R188). -/
def LinkPort.attn (p : LinkPort) : Bool := !p.notices.isEmpty

/-- The pass gates are open: the thermal state is not LIMIT and the low-supply flag is clear (R42, R121). -/
def State.gatesOpen (s : State) : Bool := s.heat.thermal ≠ .limit && !s.heat.lowSupply

/-- The name of a carriage state (R66). -/
def CarState.name : CarState → CarStateName
  | .unhomed => .unhomed
  | .homing _ => .homing
  | .stopped => .stopped
  | .rampUp => .rampUp
  | .cruise => .cruise
  | .rampDown => .rampDown
  | .fault => .fault

/-- The position is trusted (R63, R66). -/
def CarState.trusted : CarState → Bool
  | .stopped => true
  | .rampUp => true
  | .cruise => true
  | .rampDown => true
  | _ => false

/-- The motor is driven so that a stall is judged: RAMP_UP, CRUISE, RAMP_DOWN and the movement steps of
homing (R66, R72, R76). -/
def CarState.driven : CarState → Bool
  | .rampUp => true
  | .cruise => true
  | .rampDown => true
  | .homing .rest => false
  | .homing _ => true
  | _ => false

/-- A pass, not a positioning move, is in motion (R69). -/
def Carriage.inPass (c : Carriage) : Bool :=
  match c.motion with
  | some m => m.leg = .pass
  | none => false

/-- The strike enable (R69). -/
def Carriage.enable (c : Carriage) : Bool := c.inPass && c.state = .cruise && !c.suspended

/-- The Paper Drive holds a move or a due move of the automatic tear (R175). -/
def Drive.autoInFlight (d : Drive) : Bool :=
  (match d.move with | some m => m.source = .auto | none => false) ||
  (match d.due with | some m => m.source = .auto | none => false)

/-- The pass is the second half of a split one: the first half has been given its carriage start (R46). -/
def PassId.isSecondHalf : PassId → Bool
  | .main h => h = .odd
  | .repair => false
  | .up h => h = .odd
  | .down h => h = .odd

/-- The engine state while a pass waits for its start: PASS from the first half's carriage start on, whose sub-state is
then that of the second half, and PLANNING before it (R40, R163, log entry 43). -/
def PassId.waitingEngine (p : PassId) : EngineState := if p.isSecondHalf then .pass else .planning

/-- The engine state while the halt set is empty and a line is granted (R40, R163). -/
def LineStage.engine : LineStage → EngineState
  | .returning => .move
  | .planDue p => p.waitingEngine
  | .planned p => p.waitingEngine
  | .striking _ => .pass
  | .subMove _ => .move
  | .feeding => .move
  | .jammed => .move
  | .held => .move

/-- The engine state (R163). -/
def State.engine (s : State) : EngineState :=
  if !s.arb.halt.isEmpty then .halted
  else if s.arb.granted.isSome then
    match s.line, s.test with
    | some c, _ => c.stage.engine
    | none, some _ => .coilTest
    | none, none => .move
  else if s.drive.autoInFlight then .move
  else if s.car.state = .stopped then .idle
  else .unready

/-- The sub-state of a line operation that waits, in PLANNING or, for the second half of a split pass, in PASS (R120, R121,
R163). It is shown whatever the halt set holds, so also while the engine state shown is HALTED (DESIGN CHOICE, log entry 47). -/
def State.waitState (s : State) : Option WaitState :=
  match s.line with
  | none => none
  | some c =>
    match c.stage, s.dwell with
    | .planDue _, _ =>
      if s.heat.thermal = .limit then some .waitThermal else if s.heat.lowSupply then some .waitSupply else none
    | _, .running _ => some .dwell
    | _, _ => none

/-- Only the engine state IDLE has grants judged, but for the LOAD of R171 (R165). -/
def State.isIdle (s : State) : Bool := s.engine = .idle

/-- The order of the four levels (R118). -/
def Level.rank : Level → Nat
  | .cool => 0
  | .warm => 1
  | .hot => 2
  | .limit => 3

/-- The higher of two levels (R118). -/
def Level.higher (a b : Level) : Level := if a.rank ≤ b.rank then b else a

end Sys2Proof.Machine
end

