-- ==== Sys2Proof/Machine/Form.lean ====
section
/-! DEFINITION. The Form Position Unit (chapter 8): steps and wraps, the form map and its effective length,
distances, perforations and length learning, paper out, phase correction, boundaries. -/

namespace Sys2Proof.Machine

/-- The state with its form position record changed. -/
def State.modifyForm (s : State) (f : FormPosition → FormPosition) : State := { s with form := f s.form }

/-- The state with its form map changed. -/
def State.modifyMap (s : State) (f : FormMap → FormMap) : State := { s with map := f s.map }

/-- The difference of two odometer values, modulo 2³² and read as signed (R126). -/
def odoDiff (a b : Odo) : Int := (a - b).toInt

/-! ## Steps and wraps (R127) -/

/-- The tail distance after a step, while the paper state is TAIL (R127). -/
def PaperState.tailBy (p : PaperState) (k : Int) : PaperState :=
  match p with
  | .tail d => .tail (d + k)
  | q => q

/-- The record after one forward step on a form of length `len` (R127). -/
def FormPosition.forward (f : FormPosition) (len : Nat) : FormPosition :=
  let odo := f.odometer + 1
  { f with
    odometer := odo
    offset := if len ≤ f.offset + 1 then 0 else f.offset + 1
    form := if len ≤ f.offset + 1 then f.form + 1 else f.form
    forwardMark := if 0 < odoDiff odo f.forwardMark then odo else f.forwardMark
    paper := f.paper.tailBy (-1) }

/-- The record after one reverse step on a form of length `len` (R127). -/
def FormPosition.reverse (f : FormPosition) (len : Nat) : FormPosition :=
  { f with
    odometer := f.odometer - 1
    offset := if f.offset = 0 then len - 1 else f.offset - 1
    form := if f.offset = 0 then f.form - 1 else f.form
    paper := f.paper.tailBy 1 }

/-- The record after one step (R127). -/
def FormPosition.moved (f : FormPosition) (len : Nat) (d : MoveDir) : FormPosition :=
  match d with
  | .forward => f.forward len
  | .reverse => f.reverse len

/-- A forward step from `f` carries the odometer beyond the forward mark (R127, R135). -/
def FormPosition.carriesMark (f : FormPosition) : Bool := 0 < odoDiff (f.odometer + 1) f.forwardMark

/-- The record after `k` reverse steps. -/
def FormPosition.withdraw (len : Nat) : Nat → FormPosition → FormPosition
  | 0, f => f
  | k + 1, f => FormPosition.withdraw len k (f.reverse len)

/-- A stall correction of `k` steps: `k` reverse steps in one event; a forward mark that stood equal to the
odometer is lowered with it (R127). -/
def State.stallCorrection (s : State) (k : Nat) : State :=
  s.modifyForm (fun f =>
    let g := FormPosition.withdraw s.map.len k f
    if f.forwardMark = f.odometer then { g with forwardMark := g.odometer } else g)

/-! ## The effective length (R130) -/

/-- How many stops a change to the length now in force removes (R130). -/
def State.stopsBeyond (s : State) : Nat := (s.map.stops.filter (fun x => s.map.len ≤ x)).length

/-- What a change of the effective length does, with the new length already in the map (R130). -/
def State.relength (s : State) : State :=
  let len := s.map.len
  { s with
    form := { s.form with offset := s.form.offset % len, pendingCorrection := none }
    map := { s.map with
      tof := min s.map.tof (min 720 (len - 1))
      skip := min s.map.skip (len / 2)
      stops := s.map.stops.filter (fun x => x < len) } }

/-! ## Distances measured against the form (R131, R132, R154) -/

/-- The distance of a VTAB from offset `o` (R131). -/
def FormMap.vtabDistance (m : FormMap) (o : Nat) : Nat :=
  match m.stops.find? (fun x => o < x) with
  | some x => x - o
  | none => m.len - o

/-- The distance of a FORMFEED from offset `o` (R131). -/
def FormMap.formfeedDistance (m : FormMap) (o : Nat) : Nat := if o = 0 then m.len else m.len - o

/-- The distance of the form feed of a TEAR from offset `o` (R131). -/
def FormMap.tearFeedDistance (m : FormMap) (o : Nat) : Nat := if o = 0 then 0 else m.len - o

/-- The tear advance D (R154). -/
def FormMap.tearAdvanceDistance (m : FormMap) : Nat := (288 + m.trim - m.tof).toNat

/-- A forward distance `n` from offset `o`, lengthened by the skip zone (R132). -/
def FormMap.skipExtended (m : FormMap) (o n : Nat) : Nat :=
  let e := (o + n) % m.len
  if m.skip ≠ 0 ∧ m.len - m.skip ≤ e then n + (m.len - e) else n

/-! ## Perforations and length learning (R135 to R140) -/

/-- The candidate becomes the learned length (R138). -/
def State.migrate (s : State) (candidate : Nat) (e : Odo) : State :=
  let before := s.map.len
  let s := s.modifyMap (fun m => { m with learned := some candidate })
  let removed := s.stopsBeyond
  let s := s.relength
  let s := s.modifyForm (fun f => { f with candidate := none, edge := .locked, pendingCorrection := some e })
  s.postBoth (.formLength s.map.len before s.map.programmed removed s.form.form s.form.offset)

/-- A state of LOCKED becomes SEEKING (R137). -/
def EdgeState.unlocked (e : EdgeState) : EdgeState := if e = .locked then .seeking else e

/-- The measured length lies within 3 of a length (R137). -/
def within3 (m : Int) (len : Nat) : Bool := (len : Int) - 3 ≤ m && m ≤ (len : Int) + 3

/-- A perforation event in PRESENT measures the length since the previous edge (R137). -/
def State.judgeLength (s : State) (prev e : Odo) : State :=
  let m := odoDiff e prev
  let s := s.modifyForm (fun f => { f with previousEdge := some e })
  if within3 m s.map.len then
    s.modifyForm (fun f => { f with edge := .locked, pendingCorrection := some e, candidate := none })
  else if m < 144 ∨ 8640 < m then
    s.modifyForm (fun f => { f with edge := f.edge.unlocked })
  else
    match s.form.candidate with
    | none => s.modifyForm (fun f => { f with candidate := some m.toNat, edge := f.edge.unlocked })
    | some c =>
      if within3 m c then s.migrate c e
      else s.modifyForm (fun f => { f with candidate := some m.toNat, edge := f.edge.unlocked })

/-- A perforation event with odometer `e` (R135, R137). -/
def State.perforation (s : State) (e : Odo) : State :=
  match s.form.paper with
  | .loading _ => s.modifyForm (fun f => { f with previousEdge := some e })
  | .present =>
    match s.form.edge, s.form.previousEdge with
    | .lost, _ => s.modifyForm (fun f => { f with previousEdge := some e, edge := .seeking })
    | _, none => s.modifyForm (fun f => { f with previousEdge := some e, edge := .seeking })
    | _, some prev => s.judgeLength prev e
  | _ => s

/-- The conditions of R135 but for the mark and the step itself: the strap, the path, the learning not OFF
(R136) and the paper state. -/
def State.takesPerforations (s : State) : Bool :=
  s.edgeFitted && s.form.path = .tractor && s.form.edge ≠ .off &&
  (s.form.paper = .loading true || s.form.paper = .present)

/-- Paper arrives at the station during LOAD: it is a perforation of its own (R135). With the learning OFF
no previous edge is recorded, and the one held stays as it is (R136, log entry 23). -/
def State.paperArrives (s : State) : State :=
  s.modifyForm (fun f =>
    { f with
      paper := .loading true
      forwardMark := f.odometer
      previousEdge := if f.edge = .off then f.previousEdge else some f.odometer })

/-- The learning has come too far past the previous edge (R140). -/
def State.agedOut (s : State) : Bool :=
  (s.form.edge = .seeking || s.form.edge = .locked) &&
  (match s.form.previousEdge with
   | some e => 2 * (s.map.len : Int) < odoDiff s.form.forwardMark e
   | none => false)

/-- Aging discards the learning (R140). -/
def State.age (s : State) : State :=
  let had := s.map.learned.isSome
  let s := s.modifyMap (fun m => { m with learned := none })
  let removed := if had then s.stopsBeyond else 0
  let s := if had then s.relength else s
  let s := s.modifyForm (fun f =>
    { f with candidate := none, previousEdge := none, pendingCorrection := none, edge := .lost })
  s.postBoth (.edgeLost s.map.len removed s.form.form s.form.offset)

/-! ## The paper sensor (R141) -/

/-- The no-paper run has reached 72: the paper state becomes TAIL (R141). -/
def State.paperOut (s : State) : State :=
  let s := s.modifyForm (fun f => { f with paper := .tail 792, noPaperRun := 0 })
  s.postBoth (.paperOut s.form.form s.form.offset 792)

/-- The sample of the paper sensor at a step (R141). -/
def State.sensePaper (s : State) (d : MoveDir) (paper : Bool) : State :=
  let s := s.modifyForm (fun f => { f with paperSensor := paper })
  match s.form.paper, paper, d with
  | .present, true, _ => s.modifyForm (fun f => { f with noPaperRun := 0 })
  | .present, false, .reverse => s.modifyForm (fun f => { f with noPaperRun := f.noPaperRun - 1 })
  | .present, false, .forward =>
    if 72 ≤ s.form.noPaperRun + 1 then s.paperOut
    else s.modifyForm (fun f => { f with noPaperRun := f.noPaperRun + 1 })
  | .tail _, true, _ => s.modifyForm (fun f => { f with paper := .present })
  | _, _, _ => s

/-- One step as the Form Position Unit takes it: the record (R127), paper arrival or a perforation event
(R135), aging (R140), the paper sensor (R141), in this order (log entry 22). -/
def State.formStep (s : State) (d : MoveDir) (paper mark : Bool) : State :=
  let carries := s.form.carriesMark
  let s := s.modifyForm (fun f => f.moved s.map.len d)
  match d with
  | .reverse => s.sensePaper d paper
  | .forward =>
    let s :=
      if s.form.paper = .loading false then (if paper then s.paperArrives else s)
      else if mark && carries && s.takesPerforations then s.perforation s.form.odometer
      else s
    let s := if s.agedOut then s.age else s
    s.sensePaper d paper

/-! ## The end of a move (R128, R139) -/

/-- The target offset of a phase correction at odometer `o` for the edge `e` (R139). -/
def FormMap.correctionTarget (m : FormMap) (o e : Odo) : Int :=
  ((m.len : Int) - m.tof + odoDiff o e - 864) % m.len

/-- The correction δ from an offset to a target, reduced into -floor(L/2) to L - 1 - floor(L/2) (R139). -/
def correctionDelta (len : Nat) (target offset : Int) : Int :=
  let r := (target - offset) % len
  if r ≤ (len : Int) - 1 - (len / 2 : Nat) then r else r - len

/-- The phase correction that a pending correction makes at the end of a move (R139). -/
def State.phaseCorrection (s : State) : State :=
  match s.form.pendingCorrection with
  | none => s
  | some e =>
    let target := s.map.correctionTarget s.form.odometer e
    let delta := correctionDelta s.map.len target s.form.offset
    s.modifyForm (fun f =>
      { f with
        offset := target.toNat
        form := if (s.map.len : Int) ≤ f.offset + delta then f.form + 1
                else if (f.offset : Int) + delta < 0 then f.form - 1 else f.form
        lastCorrection := some delta
        trusted := true
        pendingCorrection := none })

/-- The FORM BOUNDARY judgement at the end of a move that started in form `startForm` (R128). -/
def State.judgeBoundary (s : State) (startForm : BitVec 16) (d : MoveDir) : State :=
  if s.form.offset = 0 ∨ s.form.form ≠ startForm then
    s.postBoth (.formBoundary s.form.form s.form.offset s.map.len d s.form.trusted)
  else s

/-! ## Paths, LOAD and resets -/

/-- The edge state when learning begins anew: SEEKING when the strap reads fitted and the path is TRACTOR,
OFF otherwise (R136, R144, R156, R159). -/
def freshEdge (fitted : Bool) (path : PaperPath) : EdgeState :=
  if fitted && path = .tractor then .seeking else .off

/-- The edge state becomes OFF: the learned length, the candidate, the previous edge and the pending
correction are discarded, and R130 applies if a learned length was present (R136). -/
def State.edgeOff (s : State) : State :=
  let had := s.map.learned.isSome
  let s := s.modifyMap (fun m => { m with learned := none })
  let s := if had then s.relength else s
  s.modifyForm (fun f => { f with edge := .off, candidate := none, previousEdge := none, pendingCorrection := none })

/-- A change of path (R159). -/
def State.changePath (s : State) (p : PaperPath) : State :=
  let s := s.modifyForm (fun f => { f with path := p })
  match p with
  | .sheet => s.edgeOff
  | .tractor => s.modifyForm (fun f => { f with edge := freshEdge s.edgeFitted .tractor })

/-- The start of a LOAD's seek (R156). -/
def State.beginLoad (s : State) : State :=
  s.modifyForm (fun f =>
    { f with paper := .loading false, candidate := none, pendingCorrection := none, noPaperRun := 0,
             edge := freshEdge s.edgeFitted f.path })

/-- The end of a LOAD that fed to the top of form (R126, R142, R156). -/
def State.completeLoad (s : State) : State :=
  s.modifyForm (fun f => { f with offset := 0, form := 0, paper := .present, trusted := true })

/-- The engine reset of the Form Position Unit (R144); in LOADING it reads the sensor's level at the last STEP or
MOVE_START (log entry 42). -/
def State.resetForm (s : State) : State :=
  let s := { s with map := FormMap.powerOn }
  s.modifyForm (fun f =>
    { f with
      offset := f.offset % 3168
      candidate := none
      previousEdge := none
      pendingCorrection := none
      lastCorrection := none
      edge := freshEdge s.edgeFitted f.path
      paper := match f.paper with
        | .loading _ => if f.paperSensor then .present else .none
        | p => p
      trusted := true })

/-! ## SET FORM (R133, R134) -/

/-- The fields of a SET FORM request; an absent field keeps its value (R133). -/
structure SetFormFields where
  length : Option Nat
  tof : Option Nat
  trim : Option Int
  skip : Option Nat
  stops : Option (List Nat)
  lock : Bool
  deriving DecidableEq, Repr

/-- A value in its place among ascending values without duplicates. -/
def insertStop (x : Nat) : List Nat → List Nat
  | [] => [x]
  | y :: ys => if x < y then x :: y :: ys else if x = y then y :: ys else y :: insertStop x ys

/-- The stops that a stops list gives on a form of length `len`: the values below it, sorted, without
duplicates, the twelve smallest (R133). -/
def stopsFrom (len : Nat) (xs : List Nat) : List Nat :=
  ((xs.filter (fun x => x < len)).foldr insertStop []).take 12

/-- The length field of a SET FORM (R133, step 1). -/
def State.setLength (s : State) (n : Nat) : State :=
  let s := s.modifyMap (fun m => { m with programmed := clampNat 144 8640 n, learned := none })
  let s := s.relength
  s.modifyForm (fun f => { f with candidate := none, edge := f.edge.unlocked })

/-- A SET FORM that is taken, and the number of stops dropped or removed in the event (R133). -/
def State.applySetForm (s : State) (r : SetFormFields) : State × Nat :=
  let removed := match r.length with
    | some n => (s.modifyMap (fun m => { m with programmed := clampNat 144 8640 n, learned := none })).stopsBeyond
    | none => 0
  let s := match r.length with | some n => s.setLength n | none => s
  let len := s.map.len
  let s := match r.tof with
    | some x => s.modifyMap (fun m => { m with tof := min x (min 720 (len - 1)) })
    | none => s
  let s := match r.trim with
    | some x => s.modifyMap (fun m => { m with trim := clampInt (-72) 72 x })
    | none => s
  let s := match r.skip with
    | some x => s.modifyMap (fun m => { m with skip := min x (len / 2) })
    | none => s
  let dropped := match r.stops with
    | some xs => xs.length - (stopsFrom len xs).length
    | none => 0
  let s := match r.stops with
    | some xs => s.modifyMap (fun m => { m with stops := stopsFrom len xs })
    | none => s
  let s := if r.lock then s.modifyMap (fun m => { m with lock := true }) else s
  (s, removed + dropped)

end Sys2Proof.Machine
end

