-- ==== Sys2Proof/Machine/Strike.lean ====
section
/-! DEFINITION. The Strike Sequencer and the fire requests (chapter 5): reaching, arming, firing and missing
the entries of the STRIKING list, and the phases and judgements of a strike pulse. -/

namespace Sys2Proof.Machine

/-! ## Rows and striking pins (R44, R51) -/

/-- The dot's row less the striking pin's number (R44). -/
def PassId.rowShift : PassId → Int
  | .main _ => 0
  | .repair => 0
  | .up _ => 1
  | .down _ => -1

/-- The rows of the dots that a set of striking pins carries in a pass (R44, R51). -/
def PassId.rowsOfPins (p : PassId) (m : Rows) : Rows :=
  match p with
  | .up _ => m <<< 1
  | .down _ => m >>> 1
  | _ => m

/-- The pins that strike the dots of a set of rows in a pass (R44, R51). -/
def PassId.pinsOfRows (p : PassId) (m : Rows) : Rows :=
  match p with
  | .up _ => m >>> 1
  | .down _ => m <<< 1
  | _ => m

/-! ## The STRIKING list -/

/-- The plan that the Sequencer walks (R80). -/
def State.walkedPlan (s : State) : Option PassPlan :=
  match s.lists[s.sequ.list.val] with
  | .striking p => some p
  | _ => none

/-- The state with the Sequencer changed. -/
def State.modifySequ (s : State) (f : Sequencer → Sequencer) : State := { s with sequ := f s.sequ }

/-- An entry with one more pin in its struck mask (R84). -/
def StrikeEntry.mark (e : StrikeEntry) (p : Pin) : StrikeEntry :=
  { e with struckMask := e.struckMask ||| pinBit p.val }

/-- The state with a pin marked struck in entry `i` of the walked list (R84). -/
def State.markStruck (s : State) (i : Nat) (p : Pin) : State :=
  match s.lists[s.sequ.list.val] with
  | .striking q => s.setList s.sequ.list (.striking { q with entries := q.entries.modify i (·.mark p) })
  | _ => s

/-! ## Misses (R86, R87) -/

/-- A missed pin strike is offered to the repair list, which holds at most 5 120 items (R87). -/
def Sequencer.offer (q : Sequencer) (i : RepairItem) : Sequencer :=
  if 5120 ≤ q.repairs.length then { q with overflow := true } else { q with repairs := q.repairs ++ [i] }

/-- One pin of an entry is missed (R86, R87). -/
def State.missPin (s : State) (pass : PassId) (e : StrikeEntry) (p : Pin) : State :=
  s.modifySequ (·.offer { column := e.column, row := ((p.val : Int) + pass.rowShift).toNat, pin := p })

/-- Every pin of an entry's row mask is missed, in ascending order of pin (R86, R87). -/
def State.missEntry (s : State) (pass : PassId) (e : StrikeEntry) : State :=
  (pinsOf e.rowMask).foldl (fun s p => s.missPin pass e p) s

/-! ## Firing (R84, R89) -/

/-- One pin of a fire request: struck into DRIVE, with its heat handed, or missed (R89, R112). -/
def State.firePin (s : State) (pass : PassId) (i : Nat) (e : StrikeEntry) (p : Pin) : State :=
  if s.isFailed p then s.missPin pass e p
  else
    match s.channel p with
    | .ready =>
      ((s.setChannel p (.drive (s.sequ.driveTime * 10) false)).addHeat p s.sequ.driveTime).markStruck i p
    | _ => s.missPin pass e p

/-- Entry `i` of the walked list fires, or is missed with the strike enable off (R84). -/
def State.fireEntry (s : State) (i : Nat) : State :=
  match s.walkedPlan with
  | none => s
  | some q =>
    match q.entries[i]? with
    | none => s
    | some e =>
      if s.car.enable then (pinsOf e.rowMask).foldl (fun s p => s.firePin q.pass i e p) s
      else s.missEntry q.pass e

/-- The delay timer of a pin column (R80). -/
def Sequencer.timer (q : Sequencer) : PinColumn → DelayTimer
  | .colA => q.timerA
  | .colB => q.timerB

/-- The Sequencer with the delay timer of a pin column set. -/
def Sequencer.setTimer (q : Sequencer) (c : PinColumn) (t : DelayTimer) : Sequencer :=
  match c with
  | .colA => { q with timerA := t }
  | .colB => { q with timerB := t }

/-! ## Reaching and arming (R82, R83) -/

/-- Entry `i` is armed: its column timer is loaded, or it fires at once, or it is missed because that timer
runs for an earlier entry (R83). -/
def State.armEntry (s : State) (pass : PassId) (i : Nat) (e : StrikeEntry) : State :=
  match s.sequ.timer e.col with
  | .running _ _ => s.missEntry pass e
  | .idle =>
    let d := delayTicks s.sequ.fraction s.car.period
    if d = 0 then s.fireEntry i
    else s.modifySequ (·.setTimer e.col (.running d i))

/-- The entry at the head pointer is reached if its trigger count is `p`: armed with the enable on, passed
with it off (R82). -/
def State.reachHead (s : State) (p : Int) : State :=
  match s.walkedPlan with
  | none => s
  | some q =>
    match q.entries[s.sequ.head]? with
    | none => s
    | some e =>
      if e.trigger = p then
        let i := s.sequ.head
        let s := s.modifySequ (fun q => { q with head := q.head + 1 })
        if s.car.enable then s.armEntry q.pass i e else s.missEntry q.pass e
      else s

/-- The Sequencer takes a count change: in the pass direction it reaches the entries at the head pointer
with this trigger count, at most one for each pin column (R82). -/
def State.sequCount (s : State) (d : Dir) (p : Int) : State :=
  if s.sequ.walking ∧ d = s.sequ.dir then (s.reachHead p).reachHead p else s

/-! ## The start and the end of the walk (R81, R85, R98, R99) -/

/-- The Sequencer takes the list that is STRIKING at the start of its pass (R81). -/
def State.walkStart (s : State) : State :=
  match s.findList (·.isStriking) with
  | none => s
  | some i =>
    match s.lists[i.val] with
    | .striking q =>
      { s with sequ :=
        { walking := true, list := i, dir := q.dir, fraction := q.fraction, driveTime := q.driveTime, head := 0,
          timerA := .idle, timerB := .idle, repairs := [], overflow := false } }
    | _ => s

/-- A timer still RUNNING at the pass end is set IDLE and its entry is missed (R85, step 1). -/
def State.endTimer (s : State) (c : PinColumn) : State :=
  match s.sequ.timer c, s.walkedPlan with
  | .running _ i, some q =>
    let s := s.modifySequ (·.setTimer c .idle)
    match q.entries[i]? with
    | some e => s.missEntry q.pass e
    | none => s
  | _, _ => s

/-- The end of the walk with the carriage STOPPED at the end point (R85): running timers and entries not
reached are missed, and the Sequencer becomes IDLE. Its repair list and overflow mark are the report. With both timers
RUNNING, the entry of column A is missed first (log entry 35). -/
def State.walkEnd (s : State) : State :=
  let s := (s.endTimer .colA).endTimer .colB
  let s := match s.walkedPlan with
    | some q => (q.entries.drop s.sequ.head).foldl (fun (s : State) e => s.missEntry q.pass e) s
    | none => s
  s.modifySequ (fun q => { q with walking := false, timerA := .idle, timerB := .idle })

/-- The Planner has taken the report: the repair list is empty and the overflow mark clear, as IDLE has them (R80, R85,
log entry 36). -/
def State.handOver (s : State) : State := s.modifySequ (fun q => { q with repairs := [], overflow := false })

/-- The timers are stopped without firing and the Sequencer becomes IDLE; the repair list and the overflow mark go
without being handed on (R73, R98, R99, log entry 36). -/
def State.walkStop (s : State) : State :=
  s.modifySequ (fun q => { q with walking := false, timerA := .idle, timerB := .idle, repairs := [], overflow := false })

/-- The engine reset of the Sequencer: while WALKING it stops; while IDLE nothing changes (R99). -/
def State.walkReset (s : State) : State := if s.sequ.walking then s.walkStop else s

/-! ## Judgements (R95, R96) -/

/-- A faulty strike of a pin, short or weak: the third in a row makes it FAILED and posts PIN FAILED to both
links (R95, R96). -/
def State.judgeFault (s : State) (p : Pin) (c : PinCause) : State :=
  let r := s.pinRecord p
  if 2 ≤ r.faults then
    (s.setPinRecord p { r with faults := 3, health := .failed }).postBoth (.pinFailed p c)
  else s.setPinRecord p { r with faults := r.faults + 1, health := .suspect }

/-- A good strike of a pin (R95). -/
def State.judgeGood (s : State) (p : Pin) : State :=
  s.setPinRecord p { s.pinRecord p with faults := 0, health := .good }

end Sys2Proof.Machine
end

