-- ==== Sys2Proof/Machine/Planner.lean ====
section
/-! DEFINITION. The Pass Planner (chapter 3): the dots of a pass, class, split, direction, points and strike
list, and the phases of a line operation with the accounting of its dots. -/

namespace Sys2Proof.Machine

/-! ## From dots to a strike list (R44 to R52) -/

/-- An entry before its pass is planned: a dot column and a pin column with the striking pins, and the
paper position less the pins' offset (R46, R51). -/
structure Proto where
  column : Nat
  col : PinColumn
  pins : Rows
  base : Int
  deriving DecidableEq, Repr

/-- The entry of one dot column and one pin column, when it has a striking pin (R51). -/
def protoAt (f : LineFields) (c : Nat) (pins : Rows) (k : PinColumn) : List Proto :=
  if pins &&& columnPins k = 0 then []
  else [{ column := c, col := k, pins := pins &&& columnPins k, base := (paperPosition f c : Int) - columnOffset k }]

/-- The entries that a set of dots makes: one per dot column and pin column with at least one dot (R46, R51). -/
def protosOf (f : LineFields) (p : PassId) (d : DotSet) : List Proto :=
  (d.map (fun x => protoAt f x.1 (p.pinsOfRows x.2) .colA ++ protoAt f x.1 (p.pinsOfRows x.2) .colB)).flatten

/-- Neighbouring columns of one pin lie at least `spacing` counts apart at `k` counts a column (R16). -/
def columnsApart (k spacing : Nat) : List Nat → Bool
  | a :: b :: rest => spacing ≤ (b - a) * k && columnsApart k spacing (b :: rest)
  | _ => true

/-- The dot columns that a pin strikes, in ascending order. -/
def columnsOfPin (ps : List Proto) (p : Pin) : List Nat :=
  (ps.filter (fun x => x.pins.getLsbD p.val)).map (·.column)

/-- The same-pin spacing check of R16: `ps` is in ascending order of dot column. -/
def spacingOk (k spacing : Nat) (ps : List Proto) : Bool :=
  (List.finRange 18).all (fun p => columnsApart k spacing (columnsOfPin ps p))

/-- `a` comes before `b` in the order of targets, the column A entry first at equal targets (R52). -/
def protoBefore (d : Dir) (a b : Proto) : Bool :=
  (match d with
   | .right => a.base < b.base
   | .left => b.base < a.base) || (a.base = b.base && a.col = .colA)

/-- One more entry in its place (R52). -/
def insertProto (d : Dir) (x : Proto) : List Proto → List Proto
  | [] => [x]
  | y :: ys => if protoBefore d x y then x :: y :: ys else y :: insertProto d x ys

/-- The entries in travel order (R52). -/
def sortProtos (d : Dir) (ps : List Proto) : List Proto :=
  match d with
  | .right => ps.foldr (insertProto d) []
  | .left => ps.reverse.foldr (insertProto d) []

/-- The least of a list of counts. -/
def leastOf : List Int → Int
  | [] => 0
  | x :: xs => xs.foldl min x

/-- The greatest of a list of counts. -/
def greatestOf : List Int → Int
  | [] => 0
  | x :: xs => xs.foldl max x

/-- The trigger counts of the entries in a direction, at a class (R8, R9, R10). -/
def triggersOf (d : Dir) (c : SpeedClass) (gap : Nat) (trim : Int) (ps : List Proto) : List Int :=
  ps.map (fun x => triggerOf d (targetOf d x.base (leadOf c gap) trim))

/-- The lower and the upper of the start and end points at a class (R49). -/
def pointsOf (d : Dir) (c : SpeedClass) (gap : Nat) (trim : Int) (ps : List Proto) : Int × Int :=
  let ts := triggersOf d c gap trim ps
  (leastOf ts - c.ramp, greatestOf ts + c.ramp)

/-- The direction under AUTO (R48): rightward when its candidate start is at most as far. -/
def autoDir (c : SpeedClass) (gap : Nat) (trim : Int) (pos : Int) (ps : List Proto) : Dir :=
  let r := (pointsOf .right c gap trim ps).1
  let l := (pointsOf .left c gap trim ps).2
  if (pos - r).natAbs ≤ (pos - l).natAbs then .right else .left

/-- The direction that R47 forces, when it forces one. -/
def forcedDir (f : LineFields) (uni : Bool) : Option Dir :=
  if f.unidirAlign || uni then some .right
  else
    match f.dirRequest with
    | .right => some .right
    | .left => some .left
    | .auto => none

/-- The speed cap of a thermal state (R119); in LIMIT no pass is planned. -/
def speedCap : Level → Option SpeedClass
  | .cool => none
  | .warm => some .normal
  | .hot => some .heavy
  | .limit => some .heavy

/-- The starting class of R45: the slower of the cap and the line's ceiling. -/
def startingClass (thermal : Level) (ceiling : SpeedClass) : SpeedClass :=
  match speedCap thermal with
  | none => ceiling
  | some c => slowerClass c ceiling

/-- The inputs that a plan takes from the rest of the part (R43). -/
structure PlanInputs where
  width : Width
  thermal : Level
  supply : Nat
  gap : Nat
  trim : Int
  uni : Bool
  position : Int
  deriving DecidableEq, Repr

/-- The entry of the strike list that a proto gives in a planned pass (R9, R10, R51). -/
def Proto.entry (x : Proto) (d : Dir) (lead : Nat) (trim : Int) : StrikeEntry :=
  let t := targetOf d x.base lead trim
  { target := t, trigger := triggerOf d t, fraction := fractionOf d t, col := x.col, column := x.column,
    rowMask := x.pins, struckMask := 0 }

/-- The class of R45 for the entries of a pass. -/
def spacingClass (i : PlanInputs) (f : LineFields) (ps : List Proto) : SpeedClass :=
  let cycle := pinCycle (driveTimeOf i.gap i.supply)
  lowerUntil (fun c => spacingOk f.density.counts (spacingOf cycle c) ps) (startingClass i.thermal f.ceiling)

/-- The class after the ramp fit of R49, from the class of R45. -/
def rampClass (i : PlanInputs) (d : Dir) (ps : List Proto) (c : SpeedClass) : SpeedClass :=
  lowerUntil
    (fun k => inTravel i.width (pointsOf d k i.gap i.trim ps).1 && inTravel i.width (pointsOf d k i.gap i.trim ps).2) c

/-- The plan of a pass whose entries, in ascending order of dot column, are `ps` (R45, R47 to R52). `fixed`
is the direction of a repair pass. -/
def makePlan (i : PlanInputs) (f : LineFields) (p : PassId) (fixed : Option Dir) (ps : List Proto) : PassPlan :=
  let cls0 := spacingClass i f ps
  let dir := match fixed, forcedDir f i.uni with
    | some d, _ => d
    | none, some d => d
    | none, none => autoDir cls0 i.gap i.trim i.position ps
  let cls := rampClass i dir ps cls0
  let lead := leadOf cls i.gap
  let ts := triggersOf dir cls i.gap i.trim ps
  let ends := pointsOf dir cls i.gap i.trim ps
  let entries := (sortProtos dir ps).map (·.entry dir lead i.trim)
  { pass := p, dir := dir, cls := cls, gap := i.gap, trim := i.trim, supply := i.supply, lead := lead
    fraction := (16 - lead % 16) % 16
    driveTime := driveTimeOf i.gap i.supply
    cycle := pinCycle (driveTimeOf i.gap i.supply)
    spacing := spacingOf (pinCycle (driveTimeOf i.gap i.supply)) cls
    startPoint := match dir with | .right => ends.1 | .left => ends.2
    endPoint := match dir with | .right => ends.2 | .left => ends.1
    firstTrigger := match dir with | .right => leastOf ts | .left => greatestOf ts
    lastTrigger := match dir with | .right => greatestOf ts | .left => leastOf ts
    rowShift := p.rowShift
    hot := i.thermal = .hot
    entries := entries }

/-- The capacity of one strike list (R46). -/
def listCapacity : Nat := 5120

/-- A pass of a half of a split, or of the whole (R46). -/
def PassId.withHalf (p : PassId) (h : Half) : PassId :=
  match p with
  | .main _ => .main h
  | .repair => .repair
  | .up _ => .up h
  | .down _ => .down h

/-- The half that a pass takes. -/
def PassId.half : PassId → Half
  | .main h => h
  | .repair => .whole
  | .up h => h
  | .down h => h

/-- The dots that the entries of a list stand for, given the mask to read of each (R51). -/
def entryDots (p : PassId) (mask : StrikeEntry → Rows) (es : List StrikeEntry) : DotSet :=
  es.foldr (fun e d => if p.rowsOfPins (mask e) = 0 then d else dotsInsert e.column (p.rowsOfPins (mask e)) d) []

/-- The dots that protos stand for. -/
def protoDots (p : PassId) (ps : List Proto) : DotSet :=
  ps.foldr (fun e d => dotsInsert e.column (p.rowsOfPins e.pins) d) []

/-! ## The line context -/

/-- The state with the line context changed, when there is one. -/
def State.modifyLine (s : State) (f : LineContext → LineContext) : State := { s with line := s.line.map f }

/-- The state with the line's stage set. -/
def State.setStage (s : State) (g : LineStage) : State := s.modifyLine (fun c => { c with stage := g })

/-- The stored fields of the line in flight. -/
def State.lineFields (s : State) : Option LineFields :=
  match s.line with
  | none => none
  | some c =>
    match s.headEntry c.link with
    | none => none
    | some e =>
      match e.record with
      | .line f => some f
      | .motion _ => none

/-- The flag that a loss of dots sets (R41). -/
def LineResult.lose (r : LineResult) (n : Nat) (degraded : Bool) : LineResult :=
  if n = 0 then r
  else if degraded then { r with lost := r.lost + n, degraded := true }
  else { r with lost := r.lost + n, imperfect := true }

/-- The dots `d` of the line that are not struck yet are lost, with DEGRADED or with IMPERFECT (R41). -/
def State.loseDots (s : State) (d : DotSet) (degraded : Bool) : State :=
  match s.line with
  | none => s
  | some c =>
    let gone := dotsInter c.unstruck d
    (s.modifyResult c.link (·.lose (dotsCount gone) degraded)).modifyLine
      (fun c => { c with unstruck := dotsDiff c.unstruck gone })

/-- Every dot of the line that is not struck yet is lost with IMPERFECT (R58, R59, R161). -/
def State.loseAll (s : State) : State :=
  match s.line with
  | none => s
  | some c => s.loseDots c.unstruck false

/-! ## Completion and the trailing feed (R40, R57, R60) -/

/-- The state with a move due (R146). -/
def State.setDue (s : State) (d : Option DueMove) : State := { s with drive := { s.drive with due := d } }

/-- The line operation is complete: LINE DONE, release of the charge, and the context closed (R40, R60). -/
def State.completeLine (s : State) : State :=
  match s.line with
  | none => s
  | some c =>
    let s := match s.headEntry c.link with
      | some e => s.post c.link (.lineDone c.link e.seq e.result)
      | none => s
    ({ s with line := none }.freeLists).completeEntry c.link

/-- The line is complete, but an entry held by a halt stays GRANTED until the halt is left (R173, log entry 37). -/
def State.finishLine (s : State) : State := if s.arb.halt.isEmpty then s.completeLine else s.setStage .held

/-- The trailing feed of R57 falls due, or the line is complete without one. -/
def State.startFeed (s : State) : State :=
  match s.line, s.lineFields with
  | some c, some f =>
    let d := (f.trailingFeed : Int) - c.netOffset
    if 0 < d then (s.setStage .feeding).setDue (some ⟨.line, .trailing d.toNat⟩)
    else if d < 0 then (s.setStage .feeding).setDue (some ⟨.line, .trailingReverse (-d).toNat⟩)
    else s.finishLine
  | _, _ => s.finishLine

/-- Every later phase but FEED is dropped; the dots not struck yet are lost with IMPERFECT (R58, R59). -/
def State.dropPhases (s : State) : State := (s.loseAll.dropPlan).startFeed

/-! ## The phases after a pass (R53 to R56) -/

/-- The down group's move falls due, or the phase is passed over (R56). -/
def State.startDown (s : State) : State :=
  match s.line with
  | none => s
  | some c =>
    if c.downGroup.isEmpty then s.startFeed
    else (s.setStage (.subMove .down)).setDue (some ⟨.line, .subReverse (c.netOffset + 2).toNat⟩)

/-- The up group's move falls due, or the phase is passed over (R56). -/
def State.startUp (s : State) : State :=
  match s.line with
  | none => s
  | some c =>
    if c.upGroup.isEmpty then s.startDown
    else (s.setStage (.subMove .up)).setDue (some ⟨.line, .subForward 2⟩)

/-- The rows of FAILED pins whose dots go to the up group (R55). -/
def upRows (failed : Rows) : Rows := failed &&& ~~~(failed <<< 1) &&& ~~~(1#18)

/-- The rows of FAILED pins whose dots go to the down group (R55). -/
def downRows (failed : Rows) : Rows := failed &&& ~~~(upRows failed) &&& ~~~(failed >>> 1) &&& ~~~(pinBit 17)

/-- The substitution assignment (R55). -/
def State.assignSubstitutes (s : State) : State :=
  match s.line with
  | none => s
  | some c =>
    let failed := s.failedPins
    let dots := dotsInRows failed c.unstruck
    if !s.arb.head.substitution || s.form.path = .sheet then (s.loseDots dots true).startUp
    else
      let up := dotsInRows (upRows failed) c.unstruck
      let down := dotsInRows (downRows failed) c.unstruck
      let s := s.loseDots (dotsInRows (~~~(upRows failed ||| downRows failed)) dots) true
      (s.modifyLine (fun c => { c with upGroup := up, downGroup := down })).startUp

/-- The dots that a pass may take before health is judged (R44). -/
def LineContext.dotsFor (c : LineContext) (p : PassId) : DotSet :=
  match p with
  | .main h => dotsOfHalf h c.unstruck
  | .repair => dotsInter c.repairs c.unstruck
  | .up h => dotsOfHalf h (dotsInter c.upGroup c.unstruck)
  | .down h => dotsOfHalf h (dotsInter c.downGroup c.unstruck)

/-- The rows whose striking pin in the pass is FAILED (R44). -/
def PassId.blockedRows (p : PassId) (failed : Rows) : Rows := p.rowsOfPins failed

/-- The dots that a pass takes, by the pin health map of this instant: those whose striking pin is not FAILED (R44). -/
def State.dotsTaken (s : State) (c : LineContext) (p : PassId) : DotSet :=
  dotsInRows (~~~(p.blockedRows s.failedPins)) (c.dotsFor p)

/-- The last main pass has ended or is not made: the repair pass falls due, or, with no candidate or every candidate's
pin FAILED, none is made and the assignment is made in this event, whatever the gates (R53, R55). A candidate's pin that
becomes FAILED while the repair pass waits for the gates leaves the assignment to the plan time (log entry 51). -/
def State.afterMain (s : State) : State :=
  match s.line with
  | none => s
  | some c => if (s.dotsTaken c .repair).isEmpty then s.assignSubstitutes else s.setStage (.planDue .repair)

/-- The dwell begins when the plan is complete and no pass is being struck (R120). -/
def State.beginDwell (s : State) : State :=
  if s.dwell = .waiting ∧ (s.findList (fun x => match x with | .ready _ => true | _ => false)).isSome
      ∧ (s.findList (·.isStriking)).isNone then
    { s with dwell := .running 500000 }
  else s

/-- The second half of a split pass: it has a plan already, or there is none to make (R42, R46). -/
def State.afterEven (s : State) (odd : PassId) (otherwise : State → State) : State :=
  match s.line with
  | none => s
  | some c =>
    if c.oddPlanned then ((s.modifyLine (fun c => { c with oddPlanned := false })).setStage (.planned odd)).beginDwell
    else otherwise s

/-- What follows a pass that has ended or is not made (R40, R46, R53 to R57); after a cancel, every later
phase but FEED is dropped (R58). -/
def State.afterPass (s : State) (p : PassId) : State :=
  match s.line with
  | none => s
  | some c =>
    if c.cancelled then s.dropPhases
    else
      match p with
      | .main .even => s.afterEven (.main .odd) State.afterMain
      | .main _ => s.afterMain
      | .repair => s.assignSubstitutes
      | .up .even => s.afterEven (.up .odd) State.startDown
      | .up _ => s.startDown
      | .down .even => s.afterEven (.down .odd) State.startFeed
      | .down _ => s.startFeed

/-! ## Plan time (R42 to R44) -/

/-- The inputs of a plan at this instant (R43). -/
def State.planInputs (s : State) (position : Int) : PlanInputs :=
  { width := s.width, thermal := s.heat.thermal, supply := s.heat.supply.getD (Config.unreadSupply s.freeIndex)
    gap := s.arb.head.gap, trim := s.arb.head.trim, uni := s.arb.head.uni, position := position }

/-- The carriage position that a plan takes while no pass is struck (R43). -/
def State.planPosition (s : State) : Int := if s.car.state = .stopped then s.car.counter else 0

/-- A use of a free value: the free-value index advances. -/
def State.useFree (s : State) : State := { s with freeIndex := s.freeIndex + 1 }

/-- A plan begins: it takes the list that is FREE, which becomes BUILDING (R52). -/
def State.putPlan (s : State) (q : PassPlan) : State :=
  { s.setList ((s.findList (·.isFree)).getD 0) (.building q) with dwell := if q.hot then .waiting else .none }

/-- The pass `p` is planned at this instant from the dots it takes (R42 to R46). The answer is the pass
planned (a whole pass whose strike count is too great becomes its even half), or none when the pass takes
no dots and is not made (R44). -/
def State.planPass (s : State) (p : PassId) (position : Int) : State × Option PassId :=
  match s.line, s.lineFields with
  | some c, some f =>
    let dots := c.dotsFor p
    let blocked := p.blockedRows s.failedPins
    let taken := s.dotsTaken c p
    let i := s.planInputs position
    let s := if s.heat.supply.isNone then s.useFree else s
    let s := match p with
      | .up _ => s.loseDots (dotsInRows blocked dots) true
      | .down _ => s.loseDots (dotsInRows blocked dots) true
      | _ => s
    let ps := protosOf f p taken
    if ps.isEmpty then (s, none)
    else if p = .repair then
      let sorted := sortProtos (c.lastMainDir.getD .right) ps
      let kept := protoDots p (sorted.take listCapacity)
      let s := s.loseDots (protoDots p (sorted.drop listCapacity)) false
      (s.putPlan (makePlan i f p (some (c.lastMainDir.getD .right)) (protosOf f p kept)), some p)
    else
      let q := if p.half = .whole ∧ listCapacity < ps.length then p.withHalf .even else p
      let ps := if q.half = p.half then ps else protosOf f q (dotsOfHalf .even taken)
      (s.putPlan (makePlan i f q none ps), some q)
  | _, _ => (s, none)

/-- A pass that has fallen due is planned now: it waits for its carriage start, or, taking no dots, is passed
over (R42, R44). Whether it takes dots is judged here, at its plan time, so a main or substitution pass without dots waits
for the gates too (log entry 15); a repair pass without dots has been passed over by `State.afterMain` (R53, R55). -/
def State.planNow (s : State) (p : PassId) : State :=
  match s.planPass p s.planPosition with
  | (s, some q) => s.setStage (.planned q)
  | (s, none) => s.afterPass p

/-- The second half of a split pass is planned at the first half's carriage start, from that pass's end
point (R42, R43). -/
def State.planOdd (s : State) (odd : PassId) (position : Int) : State :=
  match s.planPass odd position with
  | (s, some _) => s.modifyLine (fun c => { c with oddPlanned := true })
  | (s, none) => s.modifyLine (fun c => { c with oddPlanned := false })

/-- A pass is due and both gates are open: its plan time is now (R42, R121). -/
def State.planDue (s : State) : Option PassId :=
  match s.line with
  | some c =>
    match c.stage with
    | .planDue p => if s.gatesOpen then some p else none
    | _ => none
  | none => none

/-! ## The end of a pass (R50, R53, R54, R87) -/

/-- The plan on the STRIKING list. -/
def State.strikingPlan (s : State) : Option PassPlan :=
  match s.findList (·.isStriking) with
  | none => none
  | some i =>
    match s.lists[i.val] with
    | .striking q => some q
    | _ => none

/-- The STRIKING list becomes FREE (R50). -/
def State.freeStriking (s : State) : State :=
  { s with lists := s.lists.map (fun x => if x.isStriking then .free else x) }

/-- The dots struck by a pass are counted struck; a substitution pass that struck any sets SUBSTITUTED
(R41, R50, R56). -/
def State.countStruck (s : State) (q : PassPlan) : State :=
  match s.line with
  | none => s
  | some c =>
    let struck := entryDots q.pass (·.struckMask) q.entries
    let s := s.modifyLine (fun c => { c with unstruck := dotsDiff c.unstruck struck })
    if q.rowShift ≠ 0 ∧ !struck.isEmpty then s.modifyResult c.link (fun r => { r with substituted := true }) else s

/-- The dots that the repair list names (R87). -/
def repairDots (items : List RepairItem) : DotSet :=
  items.foldr (fun i d => if pinBit i.row = 0 then d else dotsInsert i.column (pinBit i.row) d) []

/-- What becomes of the misses of a pass that ran to its end: the repair candidates of a main pass and the
dots beyond the repair list (R53, R87), the misses of the repair pass (R54), those of a substitution pass (R56). -/
def State.disposeMisses (s : State) (q : PassPlan) : State :=
  let missed := entryDots q.pass (fun e => e.rowMask &&& ~~~e.struckMask) q.entries
  let failed := s.failedPins
  match q.pass with
  | .main _ =>
    let listed := repairDots s.sequ.repairs
    let s := s.modifyLine (fun c => { c with repairs := dotsUnion listed c.repairs })
    if s.sequ.overflow then s.loseDots (dotsInRows (~~~failed) (dotsDiff missed listed)) false else s
  | .repair =>
    let s := s.loseDots (dotsInRows (~~~failed) missed) false
    s.modifyLine (fun c => { c with repairs := [] })
  | .up _ => s.loseDots missed false
  | .down _ => s.loseDots missed false

/-- The carriage is STOPPED at the end point: the Planner takes the report, the list becomes FREE, and the
line goes on (R50, R85). -/
def State.endPass (s : State) : State :=
  match s.strikingPlan with
  | none => s
  | some q =>
    let s := ((s.countStruck q).disposeMisses q).freeStriking
    s.afterPass q.pass

/-- The flag that a fault or a cancel sets, whatever is lost (R58, R73, log entry 17). -/
def State.markImperfect (s : State) : State :=
  match s.line with
  | none => s
  | some c => s.modifyResult c.link (fun r => { r with imperfect := true })

/-- A carriage fault abandons the pass in progress: the struck dots count, IMPERFECT is set, and every later phase
but FEED is dropped (R59, R73, R98). -/
def State.abandonPass (s : State) : State :=
  match s.strikingPlan with
  | none => s
  | some q => (((s.countStruck q).freeStriking).markImperfect).dropPhases

/-! ## Moves and cancel of a line (R56, R58, R59, R161) -/

/-- A move of the line has ended with its distance made (R56, R58, R161). -/
def State.lineMoveDone (s : State) : State :=
  match s.line with
  | none => s
  | some c =>
    match c.stage with
    | .returning => if c.cancelled then s.dropPhases else s.setStage (.planDue (.main .whole))
    | .subMove .up =>
      let s := s.modifyLine (fun c => { c with netOffset := 2 })
      if c.cancelled then s.dropPhases else s.setStage (.planDue (.up .whole))
    | .subMove .down =>
      let s := s.modifyLine (fun c => { c with netOffset := -2 })
      if c.cancelled then s.dropPhases else s.setStage (.planDue (.down .whole))
    | .feeding => s.completeLine
    | _ => s

/-- A move of the line has jammed: every later phase is dropped, and the line waits for CLEAR (R59). -/
def State.lineJammed (s : State) : State :=
  match s.line with
  | none => s
  | some c => ((s.loseAll).modifyResult c.link (fun r => { r with short := true })).setStage .jammed

/-- A move of the line has ended at the tail limit: every later phase is dropped, and the line completes
(R161). -/
def State.lineTail (s : State) : State := s.loseAll.completeLine

/-- The work of a line that a halt held is taken up: nothing is left of it but its completion (R171, R173). -/
def State.takeUpLine (s : State) : State :=
  match s.line with
  | some c => if s.arb.halt.isEmpty ∧ c.stage = .held then s.completeLine else s
  | none => s

/-- A cancel of the line in flight (R58). -/
def State.cancelLine (s : State) : State :=
  match s.line with
  | none => s
  | some c =>
    let s := s.markImperfect.modifyLine (fun c => { c with cancelled := true })
    match c.stage with
    | .planDue _ => s.dropPhases
    | .planned _ => s.dropPhases
    | .striking _ => (s.dropPlan).modifyLine (fun c => { c with oddPlanned := false })
    | _ => s

/-- A line entry is granted: the line context is opened, its result starts at zero and its clipped dots are
counted; the return from the tear position comes first (R5, R21, R40, R155). -/
def State.openLine (s : State) (l : Link) (f : LineFields) : State :=
  let n := clippedCount s.width f
  let s := s.modifyResult l (fun _ => { clipped := n, clippedFlag := n ≠ 0 })
  let back := s.form.tear = .atTear
  let c : LineContext :=
    { link := l, stage := if back then .returning else .planDue (.main .whole), netOffset := 0,
      unstruck := strikableDots s.width f, repairs := [], upGroup := [], downGroup := [], lastMainDir := none,
      oddPlanned := false, cancelled := false }
  let s := { s with line := some c }
  if back then s.setDue (some ⟨.line, .back⟩) else s

end Sys2Proof.Machine
end

