-- ==== Sys2Proof/Machine/CoilTest.lean ====
section
/-! DEFINITION. Coil tests (chapter 6): the test context, the start of a pin's test, results and their effects,
and what a fault or an engine reset makes of a test. -/

namespace Sys2Proof.Machine

/-- The state with the test context set. -/
def State.setTest (s : State) (c : Option TestContext) : State := { s with test := c }

/-- The cause that bars the pin's pulse at the instant its test begins, first in the order of R103. -/
def State.testBar (s : State) : Option InvalidCause :=
  if s.heat.thermal = .limit then some .limit
  else if s.heat.lowSupply then some .supply
  else if s.car.state ≠ .stopped then some .carriage
  else none

/-- The record of a pin after a coil test result (R106). -/
def PinRecord.tested (r : PinRecord) : CoilOutcome → PinRecord
  | .normal t => { health := .good, faults := 0, lastCoil := .normal, rise := some t }
  | .short _ => { health := .failed, faults := 3, lastCoil := .short, rise := none }
  | .openCoil => { health := .failed, faults := 3, lastCoil := .openCoil, rise := none }
  | .invalid _ => { r with lastCoil := .invalid }

/-- The cause of the PIN FAILED notice that a result calls for (R106). -/
def CoilOutcome.failCause : CoilOutcome → Option PinCause
  | .short _ => some .short
  | .openCoil => some .openCoil
  | _ => none

/-- The PIN FAILED notice of a result: posted to both links when the pin was not FAILED before it (R106). -/
def State.postPinFailed (s : State) (p : Pin) (before : Health) (o : CoilOutcome) : State :=
  match o.failCause with
  | some c => if before = .failed then s else s.postBoth (.pinFailed p c)
  | none => s

/-- The test moves on: the next pin to test becomes the pin in progress, or the entry completes and the
context is closed (R102, R107). -/
def State.testAdvance (s : State) (c : TestContext) : State :=
  match c.todo with
  | [] => (s.setTest none).completeEntry .console
  | p :: rest => s.setTest (some { c with todo := rest, pin := some p, step := .waiting })

/-- A result is recorded and posted, COIL RESULT first, then PIN FAILED where R106 asks for it, and the test
moves on (R106, R107). -/
def State.testResult (s : State) (c : TestContext) (p : Pin) (o : CoilOutcome) : State :=
  let before := s.pinRecord p
  let after := before.tested o
  let s := s.setPinRecord p after
  let s := s.post .console (.coilResult c.seq p o c.supply after.health after.faults c.todo.isEmpty)
  let s := s.postPinFailed p before.health o
  s.testAdvance c

/-- The test pulse of a pin begins: the channel leaves READY for DRIVE, and 60 units of heat are handed
(R104, R105, R112). -/
def State.testPulse (s : State) (c : TestContext) (p : Pin) : State :=
  ((s.setChannel p (.drive 600 true)).addHeat p 60).setTest (some { c with step := .pulse 0 })

/-- The pin in progress begins its test if its channel is READY: INVALID, and on to the next pin, or the pulse
(R103). `fuel` bounds the pins passed over in one event; 19 exceeds the eighteen pins. -/
def State.testGo : Nat → State → State
  | 0, s => s
  | fuel + 1, s =>
    match s.test with
    | none => s
    | some c =>
      match c.pin, c.step with
      | some p, .waiting =>
        if s.channel p = .ready then
          let c := { c with supply := s.heat.supply.getD (Config.unreadSupply s.freeIndex) }
          let s := if s.heat.supply.isNone then s.useFree else s
          match s.testBar with
          | some cause => State.testGo fuel (s.testResult c p (.invalid cause))
          | none => s.testPulse c p
        else s
      | _, _ => s

/-- The test proceeds at the first instant at which it can (R103). -/
def State.testProceed (s : State) : State := s.testGo 19

/-- The pins that a coil test entry names (R102). -/
def pinsToTest : Option Pin → List Pin
  | some p => [p]
  | none => List.finRange 18

/-- A coil test entry is granted: the test context is opened, and its first pin is taken (R102). -/
def State.openTest (s : State) (seq : SeqNo) (pin : Option Pin) : State :=
  (s.testAdvance { seq := seq, todo := pinsToTest pin, pin := none, step := .waiting, supply := 0 }).testProceed

/-- The pulse of the pin in progress ends with a result: its channel goes to RECOVERY, the result is recorded
and posted, and the test goes on (R104 to R107). -/
def State.testPulseEnd (s : State) (o : CoilOutcome) : State :=
  match s.test with
  | some c =>
    match c.pin, c.step with
    | some p, .pulse _ => ((s.setChannel p (.recovery recoveryTicks)).testResult c p o).testProceed
    | _, _ => s
  | none => s

/-- The result that a rise time gives (R104). -/
def riseOutcome (t : Nat) : CoilOutcome := if t ≤ 29 then .short t else .normal t

/-- Every channel is cut (R91). -/
def State.cutAll (s : State) : State := { s with channels := s.channels.map Channel.cut }

/-- The cut that a carriage fault makes of a test pulse: INVALID with cause CUT, and the test goes on with the
next pin (R109). The channels have been cut before. -/
def State.testCut (s : State) : State :=
  match s.test with
  | some c =>
    match c.pin, c.step with
    | some p, .pulse _ => (s.testResult c p (.invalid .cut)).testProceed
    | _, _ => s
  | none => s

/-- An engine reset ends the test: the record of the pin in progress becomes INVALID, and the context is closed
without a notice (R110). -/
def State.resetTest (s : State) : State :=
  match s.test with
  | none => s
  | some c =>
    match c.pin with
    | some p => (s.setPinRecord p { s.pinRecord p with lastCoil := .invalid }).setTest none
    | none => s.setTest none

end Sys2Proof.Machine
end

