-- ==== Sys2Proof/Machine/Paper.lean ====
section
/-! DEFINITION. The Paper Drive (chapter 9): starts and ends of moves, steps, slip checking, stalls and jams,
and the course of a granted motion entry. -/

namespace Sys2Proof.Machine

/-- The state with the Paper Drive changed. -/
def State.modifyDrive (s : State) (f : Drive → Drive) : State := { s with drive := f s.drive }

/-- The drive is stopped (R145). -/
def Drive.isStopped (d : Drive) : Bool := d.state = .stopped

/-- How a single move ended. -/
inductive MoveEnd where
  | done | jam | tail | noEdge | noPaper
  deriving DecidableEq, Repr

/-! ## The course of a motion entry (R147, R152 to R160) -/

/-- The kinds whose MOVE DONE carries no distance (R160, log entry 19). -/
def MotionKind.noDistance : MotionKind → Bool
  | .load => true
  | .park => true
  | .path _ => true
  | _ => false

/-- A motion entry completes with MOVE DONE (R160). -/
def State.completeRun (s : State) (r : MotionRun) (o : MoveOutcome) (reason : Option NotMadeReason) : State :=
  let s := s.post r.link (.moveDone r.link r.seq r.kind o reason
    (if r.kind.noDistance then none else some r.distance) r.moved r.back r.stalls
    s.form.form s.form.offset s.form.paper s.form.tear s.form.path s.form.trusted)
  (s.modifyDrive (fun d => { d with run := none })).completeEntry r.link

/-- The entry's next move falls due. -/
def State.runMove (s : State) (r : MotionRun) (k : MoveKind) : State :=
  (s.modifyDrive (fun d => { d with run := some r })).setDue (some ⟨.entry r.link r.seq, k⟩)

/-- The paper state is NONE or PARKED. -/
def PaperState.isAway : PaperState → Bool
  | .none => true
  | .parked => true
  | _ => false

/-- The paper state is TAIL. -/
def PaperState.isTail : PaperState → Bool
  | .tail _ => true
  | _ => false

/-- The paper state is PRESENT or TAIL. -/
def PaperState.isIn (p : PaperState) : Bool := p = .present || p.isTail

/-- The judgement of a motion entry against the path and the paper state held: its first move falls due, or
it completes at once (R152, R154, R158, R159). -/
def State.judgeRun (s : State) (r : MotionRun) : State :=
  let away := s.form.paper.isAway
  let sheet := s.form.path = .sheet
  match r.kind with
  | .feed n => if away then s.completeRun r .notMade (some .paper) else s.runMove r (.feed n)
  | .vtab => if away then s.completeRun r .notMade (some .paper) else s.runMove r .vtab
  | .formfeed => if away then s.completeRun r .notMade (some .paper) else s.runMove r .formfeed
  | .reverse n =>
    if sheet then s.completeRun r .notMade (some .path)
    else if away then s.completeRun r .notMade (some .paper)
    else s.runMove r (.reverse n)
  | .tear =>
    if sheet then s.completeRun r .notMade (some .path)
    else if s.form.paper ≠ .present then s.completeRun r .notMade (some .paper)
    else if s.form.tear = .atTear then s.completeRun r .done none
    else if s.form.offset ≠ 0 then s.runMove r .tearFeed
    else s.runMove r .tearAdvance
  | .load =>
    if s.form.paper = .present then s.completeRun r .notMade (some .state)
    else if s.form.paper.isTail then s.runMove r .eject
    else s.runMove r .load
  | .park =>
    if sheet then s.completeRun r .notMade (some .path)
    else if s.form.paper.isIn then s.runMove r .park
    else s.completeRun r .done none
  | .path p =>
    if p = s.form.path then s.completeRun r .done none
    else if s.form.paper.isIn then s.runMove r (if sheet then .eject else .park)
    else (s.changePath p).completeRun r .done none
  | .coilTest _ => s.completeRun r .done none

/-- The entry begins with a return from the tear position (R155). -/
def State.needsReturn (s : State) (k : MotionKind) : Bool :=
  s.form.tear = .atTear &&
  match k with
  | .feed _ => true
  | .reverse _ => true
  | .vtab => true
  | .formfeed => true
  | .load => s.form.paper.isTail
  | .path p => p ≠ s.form.path && s.form.path = .sheet && s.form.paper.isIn
  | _ => false

/-- A motion entry is handed to the drive at its grant: the return first, then the judgement (R152, R155). -/
def State.startRun (s : State) (l : Link) (seq : SeqNo) (k : MotionKind) : State :=
  let r : MotionRun :=
    { link := l, seq := seq, kind := k, distance := 0, moved := 0, back := 0, stalls := 0, jammed := false }
  if s.needsReturn k then s.runMove r .back else s.judgeRun r

/-- A move of the entry has been made: its next move falls due, or the entry completes (R153 to R159). -/
def State.runNext (s : State) (r : MotionRun) (k : MoveKind) : State :=
  match k, r.kind with
  | .back, _ => s.judgeRun r
  | .tearFeed, _ => s.runMove r .tearAdvance
  | .eject, .load => s.runMove r .load
  | .eject, .path p => (s.changePath p).completeRun r .done none
  | .park, .path p => (s.changePath p).completeRun r .done none
  | _, _ => s.completeRun r .done none

/-- The distance moved by a move as a signed paper motion, forward positive. -/
def MoveContext.signedNet (m : MoveContext) : Int :=
  match m.dir with
  | .forward => m.net
  | .reverse => -m.net

/-- The kinds whose distance is found by a search (R145, R160). -/
def MoveKind.searches : MoveKind → Bool
  | .load => true
  | .park => true
  | .eject => true
  | _ => false

/-- What a move that has ended adds to the entry's report (R160, log entry 19). -/
def MotionRun.add (r : MotionRun) (m : MoveContext) : MotionRun :=
  if m.kind = .back then { r with back := r.back + m.signedNet }
  else
    { r with
      distance := r.distance + (if m.kind.searches then 0 else m.distance)
      moved := r.moved + m.net
      stalls := r.stalls + m.stalls }

/-- A move of the granted motion entry has ended (R147, R150, R151, R156 to R160). -/
def State.runMoveEnded (s : State) (m : MoveContext) (e : MoveEnd) : State :=
  match s.drive.run with
  | none => s
  | some r =>
    let r := r.add m
    match e with
    | .jam => s.modifyDrive (fun d => { d with run := some { r with jammed := true } })
    | .tail => s.completeRun r .tail none
    | .noEdge => s.completeRun r .noEdge none
    | .noPaper => s.completeRun r .noPaper none
    | .done => s.runNext r m.kind

/-! ## The end of a move (R128, R139, R150, R151) -/

/-- What the end of a move makes of the paper and tear states (R150, R154 to R158). A return that ends at the tail limit
leaves AT_TEAR with the tear distance not yet cancelled, as one that jams does (DESIGN CHOICE, log entry 48). -/
def State.settleMove (s : State) (k : MoveKind) (e : MoveEnd) : State :=
  match k, e with
  | .load, .done => s.completeLoad
  | .load, .noPaper => s.modifyForm (fun f => { f with paper := .none })
  | .load, .jam => s.modifyForm (fun f => { f with paper := if f.paperSensor then .present else .none })
  | .park, .done => s.modifyForm (fun f => { f with paper := .parked })
  | .back, .done => s.modifyForm (fun f => { f with tear := .atPrint, tearDistance := 0 })
  | _, _ => s

/-- The halt cause that the end of a move brings (R150, R151, R156, R171). -/
def State.haltMove (s : State) (e : MoveEnd) : State :=
  match e with
  | .jam => s.modifyHalt (fun h => { h with jam := true })
  | .tail => s.modifyHalt (fun h => { h with paperOut := true })
  | .noPaper => s.modifyHalt (fun h => { h with noPaper := true })
  | _ => s

/-- The end of the move in flight: the drive is STOPPED; the Form Position Unit corrects the phase, or on a
jam discards the correction and clears the trusted flag, and judges FORM BOUNDARY; then TEAR POSITION or JAM;
then the source is told (R128, R139, R147, R150, R151, R154). -/
def State.endMove (s : State) (e : MoveEnd) : State :=
  match s.drive.move with
  | none => s
  | some m =>
    let s := s.modifyDrive (fun d => { d with state := .stopped, move := none })
    let s := s.settleMove m.kind e
    let s := match e with
      | .jam => s.modifyForm (fun f => { f with pendingCorrection := none, trusted := false })
      | _ => s.phaseCorrection
    let s := s.judgeBoundary m.startForm m.dir
    let s := match m.kind, e with
      | .tearAdvance, .done =>
        s.postBoth (.tearPosition s.form.form s.form.offset s.form.tearDistance m.source)
      | _, .jam => s.postBoth (.jam m.source m.kind m.distance m.net s.form.form s.form.offset)
      | _, _ => s
    let s := s.haltMove e
    match m.source with
    | .entry _ _ => s.runMoveEnded m e
    | .auto => s
    | .line =>
      match e with
      | .jam => s.lineJammed
      | .tail => s.lineTail
      | _ => s.lineMoveDone

/-! ## The start of a move (R131, R132, R146, R153 to R158) -/

/-- What the start of a move does to the form position record (R154, R156, R157, R158). -/
def State.prepareMove (s : State) (k : MoveKind) : State :=
  match k with
  | .tearAdvance => s.modifyForm (fun f => { f with tear := .atTear, tearDistance := 0 })
  | .park => s.modifyForm (fun f => { f with tear := .atPrint, tearDistance := 0 })
  | .load =>
    let s := s.beginLoad
    if s.form.paperSensor then s.paperArrives else s
  | .eject => s.modifyForm (fun f => { f with paper := if f.paper.isTail then .none else f.paper })
  | _ => s

/-- The direction of a move (R147, R153 to R158); that of a return of no steps is forward (log entry 46). -/
def State.moveDir (s : State) (k : MoveKind) : MoveDir :=
  match k with
  | .back => if 0 < s.form.tearDistance then .reverse else .forward
  | .reverse _ => .reverse
  | .park => .reverse
  | .subReverse _ => .reverse
  | .trailingReverse _ => .reverse
  | _ => .forward

/-- The distance of a move, or the limit of its search, and whether it searches, from the record and the
map at its start (R131, R132, R153 to R158). -/
def State.moveDistance (s : State) (k : MoveKind) : Nat × Bool :=
  let o := s.form.offset
  match k with
  | .back => (s.form.tearDistance.natAbs, false)
  | .feed n => (s.map.skipExtended o n, false)
  | .reverse n => (n, false)
  | .vtab => (s.map.vtabDistance o, false)
  | .formfeed => (s.map.formfeedDistance o, false)
  | .tearFeed => (s.map.tearFeedDistance o, false)
  | .tearAdvance => (s.map.tearAdvanceDistance, false)
  | .load => if s.form.paperSensor then (864 + s.map.tof, false) else (4320, true)
  | .park => (9504, true)
  | .eject =>
    match s.form.paper with
    | .tail d => ((d + 288).toNat, false)
    | _ => (9504, true)
  | .subForward n => (n, false)
  | .subReverse n => (n, false)
  | .trailing n => (s.map.skipExtended o n, false)
  | .trailingReverse n => (n, false)

/-- The due move starts: its distance is fixed, and a move of no distance ends at once (R131, R146, R154, log entry 20). So
does a tear form feed that finds the offset at 0, with FORM BOUNDARY judged (DESIGN CHOICE, log entry 49). -/
def State.beginMove (s : State) (d : DueMove) : State :=
  let dist := s.moveDistance d.kind
  let m : MoveContext :=
    { source := d.source, kind := d.kind, dir := s.moveDir d.kind, distance := dist.1, searching := dist.2,
      net := 0, stalls := 0, steps := 0, pulses := 0, startForm := s.form.form }
  let s := s.prepareMove d.kind
  let s := s.modifyDrive (fun x => { x with state := .stepping, move := some m, due := none })
  if dist.1 = 0 then s.endMove .done else s

/-! ## Steps, stalls and backoffs (R127, R146, R148 to R151) -/

/-- The paper motion of one step in a direction, forward positive. -/
def MoveDir.delta : MoveDir → Int
  | .forward => 1
  | .reverse => -1

/-- The steppers after one step in a direction on a path: both on TRACTOR, the platen alone on SHEET, where the tractor
stepper is not energised (R146). -/
def Steppers.driven (x : Steppers) (p : PaperPath) (d : MoveDir) : Steppers :=
  match p with
  | .tractor => { platen := x.platen + d.delta, tractor := x.tractor + d.delta }
  | .sheet => { x with platen := x.platen + d.delta }

/-- One step is driven on the path held (R146). -/
def State.driveStep (s : State) (d : MoveDir) : State := { s with steppers := s.steppers.driven s.form.path d }

/-- A move that changes the tear distance with each of its steps (R154, R155). -/
def MoveKind.movesTear : MoveKind → Bool
  | .back => true
  | .tearAdvance => true
  | _ => false

/-- The tear distance changes by `k` steps of paper motion, forward positive, within a tear advance or a
return (R154, R155). -/
def State.tearBy (s : State) (k : MoveKind) (n : Int) : State :=
  if k.movesTear then s.modifyForm (fun f => { f with tearDistance := f.tearDistance + n }) else s

/-- A forward step made in this paper state is counted and judged for slip (R148). -/
def PaperState.judgesSlip : PaperState → Bool
  | .none => false
  | .loading false => false
  | _ => true

/-- The move context after a step, before its searches are judged (R145, R148). -/
def MoveContext.stepped (m : MoveContext) (counted : Bool) : MoveContext :=
  { m with net := m.net + 1, steps := if counted then m.steps + 1 else m.steps }

/-- The search of a move has found what it looks for at this step: paper arrival, the paper's end, or the
leading edge (R156, R157, R158). -/
def State.searchFound (s : State) (m : MoveContext) (paper : Bool) : Bool :=
  m.searching &&
  match m.kind with
  | .load => s.form.paper = .loading true
  | .eject => s.form.paper.isTail
  | .park => s.form.paper = .present && !paper
  | _ => false

/-- The distance that a search leaves to make once it has found (R156, R157, R158). -/
def State.afterSearch (s : State) (k : MoveKind) : Int :=
  match k with
  | .load => 864 + s.map.tof
  | .eject => 1080
  | .park => 288
  | _ => 0

/-- A move context with its search ended at this step: from here on its distance is what it has made and what is left
to make (log entry 40). -/
def MoveContext.found (m : MoveContext) (further : Int) : MoveContext :=
  { m with searching := false, distance := (m.net + further).toNat }

/-- The attempt stalls: too few pulses for the commanded steps (R148). -/
def MoveContext.stalls? (m : MoveContext) : Bool := m.pulses + 5 ≤ m.steps / 4

/-- The ticks of the retry wait after stall `c` (R149). -/
def retryTicks (c : Nat) : Nat := 200000 * 2 ^ (c - 1)

/-- A stall: the unconfirmed steps are withdrawn, and the drive backs off, or at a fifth stall jams (R149,
R150). -/
def State.stallMove (s : State) (m : MoveContext) : State :=
  let k := m.steps - 4 * m.pulses
  let s := (s.stallCorrection k).tearBy m.kind (-k)
  let m := { m with net := m.net - k, stalls := m.stalls + 1 }
  if 5 ≤ m.stalls then (s.modifyDrive (fun d => { d with move := some m })).endMove .jam
  else s.modifyDrive (fun d => { d with move := some m, state := .backoff 12 })

/-- The end that a move comes to when its search reaches its limit (R156, R157, R158). -/
def MoveKind.searchFails : MoveKind → MoveEnd
  | .load => .noPaper
  | _ => .noEdge

/-- One step of STEPPING (R127, R146, R148, R151, R156 to R158). It is counted and judged for slip by the paper state
before it (log entry 44). -/
def State.stepMove (s : State) (m : MoveContext) (paper mark : Bool) : State :=
  let before := s.form.paper
  let counted := m.dir = .forward && before.judgesSlip
  let s := ((s.driveStep m.dir).formStep m.dir paper mark).tearBy m.kind m.dir.delta
  let m := m.stepped counted
  let found := s.searchFound m paper
  let s := if found && m.kind = .eject then s.modifyForm (fun f => { f with paper := .none }) else s
  let m := if found then m.found (s.afterSearch m.kind) else m
  let s := s.modifyDrive (fun d => { d with move := some m })
  if m.dir = .forward ∧ before = .tail 73 ∧ s.form.paper = .tail 72 then s.endMove .tail
  else if counted ∧ m.stalls? then s.stallMove m
  else if (m.distance : Int) ≤ m.net then s.endMove (if m.searching then m.kind.searchFails else .done)
  else s

/-- One reverse step of a BACKOFF; the twelfth begins the retry wait (R149). -/
def State.backoffStep (s : State) (m : MoveContext) (left : Nat) (paper : Bool) : State :=
  let s := ((s.driveStep .reverse).formStep .reverse paper false).tearBy m.kind (-1)
  s.modifyDrive (fun d =>
    { d with
      move := some { m with net := m.net - 1 }
      state := if left ≤ 1 then .retryWait (retryTicks m.stalls) else .backoff (left - 1) })

/-- The engine reset of the drive: unconfirmed steps of a forward attempt are withdrawn, and the drive is
STOPPED without a move (R162). -/
def State.resetDrive (s : State) : State :=
  let s : State :=
    match s.drive.move with
    | some m =>
      if s.drive.state = .stepping ∧ m.dir = .forward then
        (s.stallCorrection (m.steps - 4 * m.pulses)).tearBy m.kind (-((m.steps - 4 * m.pulses : Nat) : Int))
      else s
    | none => s
  { s with drive := { state := .stopped, move := none, due := none, run := none } }

end Sys2Proof.Machine
end

