-- ==== Sys2Proof/Machine/Arbiter.lean ====
section
/-! DEFINITION. The Engine Arbiter (chapter 10): the grant order, the judgement for paper, grants, the LOAD of a
paper halt, and the idle-release and auto-tear timers. -/

namespace Sys2Proof.Machine

/-- The state with the Arbiter changed. -/
def State.modifyArb (s : State) (f : Arbiter → Arbiter) : State := { s with arb := f s.arb }

/-! ## The grant order (R166) -/

/-- An entry is ready when it is QUEUED (R165). -/
def Entry.ready (e : Entry) : Bool := e.state = .queued

/-- A line record with URGENT set. -/
def Record.urgent : Record → Bool
  | .line f => f.urgent
  | .motion _ => false

/-- The head of a link is ready (R165). -/
def State.headReady (s : State) (l : Link) : Bool :=
  match s.headEntry l with
  | some e => e.ready
  | none => false

/-- The Console head is a ready URGENT line (R166, step 1). -/
def State.urgentReady (s : State) : Bool :=
  match s.headEntry .console with
  | some e => e.ready && e.record.urgent
  | none => false

/-- The link whose head the grant order selects (R166). -/
def State.select (s : State) : Option Link :=
  if s.urgentReady then some .console
  else if s.arb.hold then (if s.headReady .job then some .job else none)
  else if s.headReady .console then some .console
  else if s.headReady .job then some .job
  else none

/-! ## The judgement for paper (R167) -/

/-- A kind that needs paper (R152). -/
def MotionKind.needsPaper : MotionKind → Bool
  | .feed _ => true
  | .reverse _ => true
  | .vtab => true
  | .formfeed => true
  | .tear => true
  | _ => false

/-- The offset that the form will hold after the return from the tear position (R155, R167). -/
def State.offsetAfterReturn (s : State) : Nat :=
  if s.form.tear = .atTear then (((s.form.offset : Int) - s.form.tearDistance) % (s.map.len : Int)).toNat
  else s.form.offset

/-- What a forward return adds to the forward travel (R167). -/
def State.forwardReturn (s : State) : Nat :=
  if s.form.tear = .atTear ∧ s.form.tearDistance < 0 then s.form.tearDistance.natAbs else 0

/-- The trailing feed as the paper-tail check takes it: lengthened when there is one, and not less than 2 (R167). -/
def State.lineTravel (s : State) (o feed : Nat) : Nat :=
  max 2 (if feed = 0 then 0 else s.map.skipExtended o feed)

/-- The forward travel W of a record (R167). -/
def State.forwardTravel (s : State) (r : Record) : Nat :=
  let o := s.offsetAfterReturn
  match r with
  | .line f => s.lineTravel o f.trailingFeed + s.forwardReturn
  | .motion (.feed n) => s.map.skipExtended o n + s.forwardReturn
  | .motion (.reverse _) => s.forwardReturn
  | .motion .vtab => s.map.vtabDistance o + s.forwardReturn
  | .motion .formfeed => s.map.formfeedDistance o + s.forwardReturn
  | .motion .tear =>
    if s.form.tear = .atTear then 0
    else s.map.tearFeedDistance s.form.offset + s.map.tearAdvanceDistance
  | .motion _ => 0

/-- The verdict on a selected head (R167). -/
inductive Verdict where
  | grant
  | noPaper
  | paperOut
  deriving DecidableEq, Repr

/-- The record is judged against the paper-tail check (R167). -/
def Record.tailChecked : Record → Bool
  | .line _ => true
  | .motion k => k.needsPaper

/-- The record is a line. -/
def Record.isLine : Record → Bool
  | .line _ => true
  | .motion _ => false

/-- A selected head is judged for paper (R167). -/
def State.judgePaper (s : State) (r : Record) : Verdict :=
  if r.isLine ∧ s.form.paper.isAway then .noPaper
  else
    match s.form.paper with
    | .tail d => if r.tailChecked ∧ d - (s.forwardTravel r : Int) ≤ 72 then .paperOut else .grant
    | _ => .grant

/-! ## Grants (R168, R169, R171) -/

/-- The grant of the head entry `e` of a link (R40, R102, R152, R168, R169, R171, R175). -/
def State.grant (s : State) (l : Link) (e : Entry) : State :=
  let s := s.modifyHead l (fun e => { e with state := .granted })
  let s := s.modifyArb (fun a => { a with granted := some { link := l, seq := e.seq }, autoTimer := none })
  match e.record with
  | .line f =>
    let s := if l = .job then s.modifyArb (fun a => { a with hold := true }) else s
    s.openLine l f
  | .motion (.coilTest p) => s.openTest e.seq p
  | .motion .load => (s.modifyHalt (fun h => { h with paperOut := false, noPaper := false })).startRun l e.seq .load
  | .motion k => s.startRun l e.seq k

/-- A selected head is granted, or the engine halts (R165, R167, R171). -/
def State.judgeHead (s : State) (l : Link) : State :=
  match s.headEntry l with
  | none => s
  | some e =>
    match s.judgePaper e.record with
    | .grant => s.grant l e
    | .noPaper => s.modifyHalt (fun h => { h with noPaper := true })
    | .paperOut => s.modifyHalt (fun h => { h with paperOut := true })

/-- The LOAD at the head of the Console queue that a paper halt lets in (R171). -/
def State.loadReady (s : State) : Option Entry :=
  if s.arb.halt.onlyPaper && s.arb.granted.isNone then
    match s.headEntry .console with
    | some e => if e.ready && e.record = .motion .load then some e else none
    | none => none
  else none

/-- One step of what an event brings with it: a plan whose gates are open, a LOAD in a paper halt, or a grant
of the grant order (R42, R121, R165, R171). -/
def State.settleOnce (s : State) : Option State :=
  match s.planDue with
  | some p => some (s.planNow p)
  | none =>
    match s.loadReady with
    | some e => some (s.grant .console e)
    | none =>
      if s.isIdle then
        match s.select with
        | some l => some (s.judgeHead l)
        | none => none
      else none

/-- The steps that an event brings with it, one after another; `fuel` bounds them (log entry 30). -/
def State.settleLoop : Nat → State → State
  | 0, s => s
  | fuel + 1, s =>
    match s.settleOnce with
    | some t => State.settleLoop fuel t
    | none => s

/-! ## The timers (R170, R175) -/

/-- The ticks of the idle-release time (R170). -/
def HeadSettings.idleTicks (h : HeadSettings) : Nat := h.idleRelease * 5000000

/-- The ticks of the auto-tear dwell (R175). -/
def HeadSettings.tearTicks (h : HeadSettings) : Nat := h.autoTear * 10000000

/-- The idle-release timer runs: it starts when the Job queue is empty under the Job hold and no entry is
granted (R168, R170, log entry 18). -/
def State.judgeIdleTimer (s : State) : State :=
  if s.arb.hold ∧ s.store.job.queue = [] ∧ s.arb.granted = none ∧ s.arb.idleTimer = none then
    s.modifyArb (fun a => { a with idleTimer := some a.head.idleTicks })
  else s

/-- The conditions of the auto-tear timer (R175). -/
def State.tearCondition (s : State) : Bool :=
  s.isIdle && s.store.job.queue.isEmpty && s.store.console.queue.isEmpty && s.form.path = .tractor &&
  s.form.paper = .present && s.form.offset = 0 && s.form.tear = .atPrint && s.arb.head.autoTear ≠ 0

/-- The auto-tear timer starts, runs on or stops (R175). -/
def State.judgeTearTimer (s : State) : State :=
  if s.tearCondition then
    (if s.arb.autoTimer = none then s.modifyArb (fun a => { a with autoTimer := some a.head.tearTicks }) else s)
  else s.modifyArb (fun a => { a with autoTimer := none })

/-- Both timers are judged (R168). -/
def State.judgeTimers (s : State) : State := s.judgeIdleTimer.judgeTearTimer

/-- What an event brings with it, to its end: plans, grants and halts, then the timers (R165, R168). -/
def State.settle (s : State) : State := (s.settleLoop 1024).judgeTimers

end Sys2Proof.Machine
end

