-- ==== Sys2Proof/Machine/Heat.lean ====
section
/-! DEFINITION. The Head Thermal Monitor (chapter 7): judgements of the levels, the decay, conversions and the
low-supply flag. -/

namespace Sys2Proof.Machine

/-- The state with the Head Thermal Monitor changed. -/
def State.modifyHeat (s : State) (f : Thermal → Thermal) : State := { s with heat := f s.heat }

/-! ## Judgements (R116, R117) -/

/-- One judgement of a level: `reached` is the highest level whose entry value the value reaches, and `leaves`
says that the value has gone past the exit value of a level (R116). -/
def judgeLevel (reached : Level) (leaves : Level → Bool) (s : Level) : Level :=
  if s.rank < reached.rank then reached
  else
    match s with
    | .cool => .cool
    | .warm => if leaves .warm then .cool else .warm
    | .hot => if leaves .hot then (if leaves .warm then .cool else .warm) else .hot
    | .limit =>
      if leaves .limit then (if leaves .hot then (if leaves .warm then .cool else .warm) else .hot) else .limit

/-- The highest heat level whose entry value `h` reaches (R116). -/
def heatReached (h : Nat) : Level :=
  if 48000 ≤ h then .limit else if 36000 ≤ h then .hot else if 24000 ≤ h then .warm else .cool

/-- `h` is below the exit value of a heat level (R116). -/
def heatLeaves (h : Nat) : Level → Bool
  | .cool => false
  | .warm => h < 20000
  | .hot => h < 32000
  | .limit => h < 44000

/-- The highest temperature level whose entry value `t` reaches (R117). -/
def tempReached (t : Int) : Level :=
  if 100 ≤ t then .limit else if 85 ≤ t then .hot else if 70 ≤ t then .warm else .cool

/-- `t` is at or below the exit value of a temperature level (R117). -/
def tempLeaves (t : Int) : Level → Bool
  | .cool => false
  | .warm => t ≤ 65
  | .hot => t ≤ 80
  | .limit => t ≤ 95

/-! ## Accumulators (R113, R118) -/

/-- The pin that holds the greatest accumulator value, the lowest-numbered one of several (R118). -/
def peakPinOf (acc : Vector Nat 18) : Pin :=
  (List.finRange 18).foldl (fun best p => if acc[best.val] < acc[p.val] then p else best) 0

/-- An accumulator after the decay of a window end (R113). -/
def decayed (h : Nat) : Nat := h - (h + 7) / 8

/-- The thermal state is re-evaluated; a change posts THERMAL to both links (R118). -/
def State.rejudgeThermal (s : State) : State :=
  let now := s.heat.heatState.higher s.heat.tempState
  let before := s.heat.thermal
  if now = before then s
  else
    (s.modifyHeat (fun h => { h with thermal := now })).postBoth
      (.thermal now before s.heat.heatState s.heat.tempState s.heat.peak s.heat.peakPin s.heat.temperature)

/-- The heat-state judged at a window end from the accumulators before the decay (R113, R116, R118). -/
def State.judgeHeat (s : State) : State :=
  let p := peakPinOf s.heat.acc
  let h := s.heat.acc[p.val]
  (s.modifyHeat (fun t =>
    { t with heatState := judgeLevel (heatReached h) (heatLeaves h) t.heatState, peak := h, peakPin := p })).rejudgeThermal

/-! ## The ADC (R114, R115, R122) -/

/-- The temperature of a code in °C (R115). -/
def temperatureOf (code : BitVec 10) : Int := ((code.toNat / 6 : Nat) : Int) - 20

/-- The supply reading of a code in 0.1 V (R115). -/
def supplyOf (code : BitVec 10) : Nat := code.toNat * 400 / 1023

/-- The low-supply flag after a reading (R122). -/
def lowSupplyAfter (held : Bool) (reading : Nat) : Bool :=
  match held with
  | false => reading < 190
  | true => reading < 200

/-- The temperature conversion completes with a reading (R114, R117, R118). -/
def State.takeTemperature (s : State) (t : Int) : State :=
  (s.modifyHeat (fun h =>
    { h with
      scan := .supply
      convLeft := 10000
      temperature := some t
      tempState := judgeLevel (tempReached t) (tempLeaves t) h.tempState })).rejudgeThermal

/-- The supply conversion completes with a reading; a change of the flag posts LOW SUPPLY to both links (R114,
R122). -/
def State.takeSupply (s : State) (v : Nat) : State :=
  let before := s.heat.lowSupply
  let after := lowSupplyAfter before v
  let s := s.modifyHeat (fun h =>
    { h with scan := .temperature, convLeft := 10000, supply := some v, lowSupply := after })
  if after = before then s else s.postBoth (.lowSupply after v)

/-- A pass that waits for the gates is planned in the event that opens both (R42, R121), behind the notice of the change
that opened them (log entry 45). -/
def State.judgeGates (s : State) : State := if s.planDue.isSome then s.settle else s

end Sys2Proof.Machine
end

