-- ==== Sys2Proof/Machine/Servo.lean ====
section
/-! DEFINITION. The Carriage Servo (chapter 4): counts, the profile of positioning moves and passes, the velocity
window, faults, homing, and the carriage start of a planned pass. -/

namespace Sys2Proof.Machine

/-- The state with the carriage changed. -/
def State.modifyCar (s : State) (f : Carriage → Carriage) : State := { s with car := f s.car }

/-! ## The decoder and the counter (R61, R63, R64) -/

/-- The direction of a change of one channel (R61). -/
def countDir (a b : Bool) : EncoderChannel → Dir
  | .chanA => if a = b then .right else .left
  | .chanB => if a = b then .left else .right

/-- The levels after a change of one channel. -/
def Carriage.toggled (c : Carriage) : EncoderChannel → Carriage
  | .chanA => { c with encA := !c.encA }
  | .chanB => { c with encB := !c.encB }

/-- The movement of the counter at one count (R61). -/
def Dir.delta : Dir → Int
  | .right => 1
  | .left => -1

/-- A value that the position counter can hold (R63). -/
def inCounter (x : Int) : Bool := -32768 ≤ x && x ≤ 32767

/-- The counter after one count; past its range it holds a free value (R61, R63, log entry 6). -/
def State.countCounter (s : State) (d : Dir) : State :=
  let x := s.car.counter + d.delta
  if inCounter x then s.modifyCar (fun c => { c with counter := x })
  else { s.modifyCar (fun c => { c with counter := (Config.counterPastRange s.freeIndex).toInt }) with
         freeIndex := s.freeIndex + 1 }

/-- The greatest value of the period timer: 20 ms (R64). -/
def standstillTicks : Nat := 200000

/-- The count period captured from the period timer (R64, log entry 8). -/
def capturedPeriod (timer : Nat) : Nat := clampNat 1 standstillTicks timer

/-- One count: the levels, the counter, P and the period timer (R61, R64). -/
def State.takeCount (s : State) (ch : EncoderChannel) (d : Dir) : State :=
  (s.modifyCar (fun c => { c.toggled ch with period := capturedPeriod c.periodTimer, periodTimer := 0 })).countCounter d

/-! ## Faults (R72, R73) -/

/-- The carriage enters FAULT (R73): the drive and the enable are off, the timers stopped, the pulses cut, a
test pulse INVALID, the pass abandoned, and CARRIAGE FAULT posted, after the COIL RESULTs of the test (log
entry 41). -/
def State.enterFault (s : State) (cause : CarCause) : State :=
  let held := s.car.state.name
  let inMotion := s.car.motion.isSome
  let s := s.modifyCar (fun c => { c with state := .fault, motion := none, suspended := false })
  let s := if s.sequ.walking then s.walkStop else s
  let s := s.cutAll.testCut
  let s := if inMotion then s.abandonPass else s
  s.postBoth (.carriageFault cause s.car.counter held)

/-- A homing fails (R77, R171). -/
def State.failHoming (s : State) (cause : CarCause) : State :=
  let s := s.modifyCar (fun c => { c with state := .unhomed, indexArmed := false })
  let s := s.postBoth (.carriageFault cause s.car.counter .homing)
  s.modifyHalt (fun h => { h with carriage := true })

/-- What an illegal transition or a stall does in the state held: a homing fails, a carriage whose position is
trusted enters FAULT (R62, R72). -/
def State.carriageFails (s : State) (cause : CarCause) : State :=
  match s.car.state with
  | .homing _ => s.failHoming cause
  | .stopped => s.enterFault cause
  | .rampUp => s.enterFault cause
  | .cruise => s.enterFault cause
  | .rampDown => s.enterFault cause
  | .unhomed => s
  | .fault => s

/-! ## Positioning moves (R67) -/

/-- The direction from a position toward a target. -/
def dirToward (origin target : Int) : Dir := if origin ≤ target then .right else .left

/-- The counts of acceleration of a positioning move of `dist` counts (R67). -/
def accelCounts (ramp dist : Nat) : Nat := min ramp (dist / 2)

/-- The counts of deceleration of a positioning move of `dist` counts (R67). -/
def decelCounts (ramp dist : Nat) : Nat := min ramp (dist - dist / 2)

/-- The carriage state of a positioning move at `made` of its `dist` counts, a count back from the origin being
negative (R67); a part of no counts is left at once (log entry 39). -/
def positioningState (ramp dist : Nat) (made : Int) (held : CarState) : CarState :=
  if made = (dist - decelCounts ramp dist : Nat) then .rampDown
  else if made = accelCounts ramp dist ∧ held = .rampUp then .cruise
  else held

/-- The pass begins at its start point: RAMP_UP, a clear window, and the Sequencer walks the STRIKING list (R68,
R70, R81); a repair pass sets REPAIRED (R53). -/
def State.startPass (s : State) : State :=
  let s := s.modifyCar (fun c =>
    { c with state := .rampUp, suspended := false, motion := c.motion.map (fun m => { m with leg := .pass }) })
  let s := s.walkStart
  match s.line, s.strikingPlan with
  | some c, some q =>
    if q.pass = .repair then s.modifyResult c.link (fun r => { r with repaired := true }) else s
  | _, _ => s

/-- A count in a positioning move; one against its direction leaves the carriage state (R67, log entry 39). -/
def State.countPositioning (s : State) (m : CarMotion) (origin : Int) (d : Dir) : State :=
  if d ≠ dirToward origin m.startPoint then s
  else if s.car.counter = m.startPoint then s.startPass
  else
    s.modifyCar (fun c =>
      { c with state := positioningState m.cls.ramp (m.startPoint - origin).natAbs ((c.counter - origin) * d.delta) c.state })

/-! ## Passes (R68, R69, R70) -/

/-- P lies inside the velocity window of a class (R70). -/
def insideWindow (cls : SpeedClass) (p : Nat) : Bool :=
  7 * nominalPeriod cls ≤ 8 * p && 8 * p ≤ 9 * nominalPeriod cls

/-- The greatest P inside the window of a class (R70). -/
def greatestInside (cls : SpeedClass) : Nat := 9 * nominalPeriod cls / 8

/-- The first count of the cruise zone (R68). -/
def CarMotion.cruiseFirst (m : CarMotion) : Int := m.firstTrigger - 12 * m.dir.delta

/-- The first count of the deceleration zone (R68). -/
def CarMotion.decelFirst (m : CarMotion) : Int := m.lastTrigger + 13 * m.dir.delta

/-- The carriage state of a pass after a count in the pass direction onto `x`, short of the end point (R68). -/
def passState (m : CarMotion) (x : Int) (held : CarState) : CarState :=
  if x = m.decelFirst then .rampDown
  else if x = m.cruiseFirst ∧ held = .rampUp then .cruise
  else held

/-- The suspension after a count of the pass in CRUISE (R70); outside CRUISE the window is not judged. -/
def suspensionAfter (m : CarMotion) (d : Dir) (p : Nat) (state : CarState) (held : Bool) : Bool :=
  if state = .cruise then !(d = m.dir && insideWindow m.cls p) else held

/-- The pass ends at its end point: STOPPED, and the Sequencer and the Planner take their reports (R50, R68, R85). -/
def State.finishPass (s : State) : State :=
  (((s.modifyCar (fun c => { c with state := .stopped, motion := none, suspended := false })).walkEnd).endPass).handOver

/-- A count in a pass: the zones, the window, the Sequencer, and the end of the pass (R65, R68, R70, R82, R85). -/
def State.countPass (s : State) (m : CarMotion) (d : Dir) : State :=
  let s := s.modifyCar (fun c =>
    let state := if d = m.dir then passState m c.counter c.state else c.state
    { c with state := state, suspended := suspensionAfter m d c.period state c.suspended })
  let s := s.sequCount d s.car.counter
  if d = m.dir ∧ s.car.counter = m.endPoint then s.finishPass else s

/-! ## Homing (R75, R76, R77) -/

/-- The state with the carriage in a step of homing. -/
def State.setHoming (s : State) (h : HomingStep) : State := s.modifyCar (fun c => { c with state := .homing h })

/-- A homing starts: its rest step (R75, R76). -/
def State.startHoming (s : State) : State :=
  s.modifyCar (fun c =>
    { c with state := .homing .rest, motion := none, suspended := false, indexArmed := false })

/-- The seek step begins: the counter is 0 and the index is armed (R76, R77). -/
def State.beginSeek (s : State) : State :=
  s.modifyCar (fun c => { c with state := .homing .seek, counter := 0, indexArmed := true })

/-- The homing is complete (R77). -/
def State.completeHoming (s : State) : State := s.modifyCar (fun c => { c with state := .stopped })

/-- A count in a step of homing (R76, R77); the settle step ends on a count up, and the seek step begins at the last of
the 144 counts of the clear step (log entry 34). -/
def State.countHoming (s : State) (h : HomingStep) (d : Dir) : State :=
  match h with
  | .rest => s
  | .clear none => s
  | .clear (some low) => if low + 144 ≤ s.car.counter then s.beginSeek else s
  | .seek => if s.car.counter ≤ -10600 then s.failHoming .noIndex else s
  | .settle =>
    if s.car.counter < -144 then s.failHoming .overrun
    else if s.car.counter = 0 ∧ d = .right then s.completeHoming
    else s

/-! ## One count in the carriage state held (R66, R72) -/

/-- A count while the position is trusted: overrun first, then the motion in progress (R67, R68, R72). -/
def State.countTrusted (s : State) (d : Dir) : State :=
  if !inTravel s.width s.car.counter then s.enterFault .overrun
  else
    match s.car.motion with
    | none => s
    | some m =>
      match m.leg with
      | .positioning origin => s.countPositioning m origin d
      | .pass => s.countPass m d

/-- What a count does beyond the counter and the period, in the carriage state held. -/
def State.countEffect (s : State) (d : Dir) : State :=
  match s.car.state with
  | .unhomed => s
  | .fault => s
  | .homing h => s.countHoming h d
  | .stopped => s.countTrusted d
  | .rampUp => s.countTrusted d
  | .cruise => s.countTrusted d
  | .rampDown => s.countTrusted d

/-! ## The carriage start (R42, R50, R52, R67, R68) -/

/-- The plan that is READY. -/
def State.readyPlan (s : State) : Option (Fin 2 × PassPlan) :=
  match s.findList (fun x => match x with | .ready _ => true | _ => false) with
  | none => none
  | some i =>
    match s.lists[i.val] with
    | .ready q => some (i, q)
    | _ => none

/-- The conditions of a carriage start but for the gates: the plan is complete, its dwell has run out, the
Paper Drive is stopped, the carriage is STOPPED and no pass is being struck (R42). -/
def State.startReady (s : State) : Option (PassId × Fin 2 × PassPlan) :=
  match s.line, s.readyPlan with
  | some c, some (i, q) =>
    match c.stage with
    | .planned p =>
      if (s.dwell = .none ∨ s.dwell = .over) ∧ s.drive.isStopped ∧ s.car.state = .stopped
          ∧ (s.findList (·.isStriking)).isNone then some (p, i, q) else none
    | _ => none
  | _, _ => none

/-- The pass that is due again when its plan is discarded: an even half is planned again from the whole pass,
an odd half stays one (R42, R46). -/
def PassId.again (p : PassId) : PassId :=
  match p with
  | .main .even => .main .whole
  | .up .even => .up .whole
  | .down .even => .down .whole
  | p => p

/-- The second half that is planned at a pass's carriage start (R42, R46). -/
def PassId.second? : PassId → Option PassId
  | .main .even => some (.main .odd)
  | .up .even => some (.up .odd)
  | .down .even => some (.down .odd)
  | _ => none

/-- The direction of a main pass is recorded when it starts (R47). -/
def State.recordDir (s : State) (p : PassId) (d : Dir) : State :=
  match p with
  | .main _ => s.modifyLine (fun c => { c with lastMainDir := some d })
  | _ => s

/-- The servo takes the pass (R50): it starts at once at the start point, or makes a positioning move (R67). -/
def State.launch (s : State) (q : PassPlan) : State :=
  let m : CarMotion :=
    { leg := .positioning s.car.counter, dir := q.dir, cls := q.cls, startPoint := q.startPoint, endPoint := q.endPoint
      firstTrigger := q.firstTrigger, lastTrigger := q.lastTrigger }
  let held := positioningState q.cls.ramp (q.startPoint - s.car.counter).natAbs 0 .rampUp
  let s := s.modifyCar (fun c => { c with state := held, motion := some m, suspended := false })
  if s.car.counter = q.startPoint then s.startPass else s

/-- The carriage start of a planned pass: its list becomes STRIKING, the servo takes it, and the second half of
a split pass is planned (R42, R47, R50, R52). -/
def State.giveStart (s : State) (p : PassId) (i : Fin 2) (q : PassPlan) : State :=
  let s := { s.setList i (.striking q) with dwell := .none }
  let s := (s.recordDir p q.dir).setStage (.striking p)
  let s := s.launch q
  match p.second? with
  | some odd => s.planOdd odd q.endPoint
  | none => s

/-- The plan is discarded because a gate is closed, and its pass is due again (R42). -/
def State.discardPlan (s : State) (p : PassId) : State := (s.dropPlan).setStage (.planDue p.again)

end Sys2Proof.Machine
end

