-- ==== Sys2Proof/Machine/Tally.lean ====
section
/-! DEFINITION. The tally units (section 10.7): requests, qualification, qualified edges and releases. -/

namespace Sys2Proof.Machine

/-- A tally unit of the state. -/
def State.tallyUnit (s : State) (u : Fin 2) : TallyUnit := s.tally[u.val]

/-- The state with a tally unit changed. -/
def State.modifyTally (s : State) (u : Fin 2) (f : TallyUnit → TallyUnit) : State :=
  { s with tally := s.tally.set u.val (f (s.tallyUnit u)) }

/-- An entry is HELD for the input `u` (R33, R179). -/
def Entry.heldFor (u : Fin 2) (e : Entry) : Bool :=
  e.state = .held &&
  match e.record with
  | .line f => f.tallyHold = some u
  | .motion _ => false

/-- The oldest HELD record of a link for an input. -/
def State.oldestHeldOf (s : State) (u : Fin 2) (l : Link) : Option Entry :=
  (s.store.get l).queue.find? (Entry.heldFor u)

/-- The oldest HELD record for an input, taken across both links (R179). -/
def State.oldestHeld (s : State) (u : Fin 2) : Option (Link × Entry) :=
  match s.oldestHeldOf u .job, s.oldestHeldOf u .console with
  | some a, some b => if a.stamp < b.stamp then some (.job, a) else some (.console, b)
  | some a, none => some (.job, a)
  | none, some b => some (.console, b)
  | none, none => none

/-- The queue with one HELD entry made QUEUED (R179). -/
def releaseEntry (stamp : Nat) (q : List Entry) : List Entry :=
  q.map (fun e => if e.stamp = stamp ∧ e.state = .held then { e with state := .queued } else e)

/-- A release: the oldest HELD record for the input becomes QUEUED and TALLY RELEASE is posted, or, with none
HELD, the pending latch is set (R179). -/
def State.release (s : State) (u : Fin 2) (source : ReleaseSource) : State :=
  match s.oldestHeld u with
  | some (l, e) =>
    (s.modifyStore l (fun t => { t with queue := releaseEntry e.stamp t.queue })).postBoth
      (.tallyRelease u l e.seq source)
  | none => s.modifyTally u (fun t => { t with latch := true })

/-- A unit is unmasked in EDGE or COUNT mode with its latch set (R179). -/
def TallyUnit.latchReady (t : TallyUnit) : Bool := t.unmasked && t.mode ≠ .off && t.latch

/-- The release that a pending latch makes at an event of R179. -/
def State.latchRelease (s : State) (u : Fin 2) : State :=
  if (s.tallyUnit u).latchReady ∧ (s.oldestHeld u).isSome then
    (s.modifyTally u (fun t => { t with latch := false })).release u .latch
  else s

/-- A qualified edge acts according to the mode and the mask (R179). -/
def State.qualifiedEdge (s : State) (u : Fin 2) : State :=
  let t := s.tallyUnit u
  match t.mode, t.unmasked with
  | .off, _ => s
  | .edge, true => s.release u .edge
  | .count, true =>
    if t.present = 0 then s
    else if t.present = 1 then (s.modifyTally u (fun t => { t with present := t.armed })).release u .count
    else s.modifyTally u (fun t => { t with present := t.present - 1 })
  | _, false => s.modifyTally u (fun t => { t with latch := true })

/-- A level change at an input (R178). -/
def Qualification.input (q : Qualification) (level : Bool) : Qualification :=
  match level, q with
  | true, .low => .rising 0
  | true, q => q
  | false, _ => .low

/-- The engine reset of a unit: every field but the qualification (R177, R178). -/
def TallyUnit.engineReset (t : TallyUnit) : TallyUnit :=
  { mode := .off, setValue := 0, armed := 0, present := 0, unmasked := false, latch := false, qual := t.qual }

end Sys2Proof.Machine
end

