-- ==== Sys2Proof/Machine/Clock.lean ====
section
/-! DEFINITION. The passing of time: every timer of the part moves on by a number of ticks. No event happens in
it: the event of an expiry is a command (log entry 2). -/

namespace Sys2Proof.Machine

/-- A delay timer after `n` ticks (R80). -/
def DelayTimer.advance (n : Nat) : DelayTimer → DelayTimer
  | .idle => .idle
  | .running left e => .running (left - n) e

/-- A channel after `n` ticks (R88). -/
def Channel.advance (n : Nat) : Channel → Channel
  | .ready => .ready
  | .drive left t => .drive (left - n) t
  | .hold left => .hold (left - n)
  | .recovery left => .recovery (left - n)

/-- The step of a coil test after `n` ticks (R104). -/
def TestStep.advance (n : Nat) : TestStep → TestStep
  | .waiting => .waiting
  | .pulse e => .pulse (e + n)

/-- The cooling dwell after `n` ticks (R120). -/
def Dwell.advance (n : Nat) : Dwell → Dwell
  | .running left => .running (left - n)
  | d => d

/-- The drive state after `n` ticks (R149). -/
def DriveState.advance (n : Nat) : DriveState → DriveState
  | .retryWait left => .retryWait (left - n)
  | d => d

/-- The qualification of a tally input after `n` ticks (R178). -/
def Qualification.advance (n : Nat) : Qualification → Qualification
  | .rising e => .rising (e + n)
  | q => q

/-- The state after `n` ticks in which no event happens. -/
def State.advance (s : State) (n : Nat) : State :=
  { s with
    arb := { s.arb with
      idleTimer := s.arb.idleTimer.map (fun t => t - n), autoTimer := s.arb.autoTimer.map (fun t => t - n) }
    dwell := s.dwell.advance n
    car := { s.car with periodTimer := min standstillTicks (s.car.periodTimer + n) }
    sequ := { s.sequ with timerA := s.sequ.timerA.advance n, timerB := s.sequ.timerB.advance n }
    channels := s.channels.map (Channel.advance n)
    test := s.test.map (fun c => { c with step := c.step.advance n })
    heat := { s.heat with windowLeft := s.heat.windowLeft - n, convLeft := s.heat.convLeft - n }
    drive := { s.drive with state := s.drive.state.advance n }
    tally := s.tally.map (fun t => { t with qual := t.qual.advance n }) }

end Sys2Proof.Machine
end

