-- ==== Sys2Proof/Machine/ArbiterCommands.lean ====
section
/-! DEFINITION. The commands of the Engine Arbiter's timers and of the tally inputs: IDLE_RELEASE_TIMER_EXPIRY,
AUTOMATIC_TEAR, TALLY_INPUT_CHANGE, QUALIFIED_EDGE. -/

namespace Sys2Proof.Machine

/-- IDLE_RELEASE_TIMER_EXPIRY: the form hold is released (R169, R170). -/
def execIdleReleaseTimerExpiry (s : State) : Host.Outcome State Fault Refusal :=
  if s.arb.idleTimer.isSome then .next (s.releaseHold.settle) else .next s

/-- The automatic tear is asked for: its advance falls due on the TRACTOR path with paper PRESENT (R154, R175). -/
def State.askTear (s : State) : State :=
  if s.form.path = .tractor ∧ s.form.paper = .present then s.setDue (some ⟨.auto, .tearAdvance⟩) else s

/-- AUTOMATIC_TEAR: the auto-tear timer expires (R175). -/
def execAutomaticTear (s : State) : Host.Outcome State Fault Refusal :=
  if s.arb.autoTimer.isSome then .next ((s.modifyArb (fun a => { a with autoTimer := none })).askTear.settle)
  else .next s

/-- TALLY_INPUT_CHANGE (R178). -/
def execTallyInputChange (u : Fin 2) (level : Bool) (s : State) : Host.Outcome State Fault Refusal :=
  .next (s.modifyTally u (fun t => { t with qual := t.qual.input level }))

/-- QUALIFIED_EDGE: the input has been high for 2 ms (R178, R179). -/
def execQualifiedEdge (u : Fin 2) (s : State) : Host.Outcome State Fault Refusal :=
  match (s.tallyUnit u).qual with
  | .rising _ => .next (((s.modifyTally u (fun t => { t with qual := .high })).qualifiedEdge u).settle)
  | _ => .next s

end Sys2Proof.Machine
end

