-- ==== Sys2Proof/Machine/CarriageCommands.lean ====
section
/-! DEFINITION. The commands of the carriage: COUNT_CHANGE, ILLEGAL_TRANSITION, STALL, OPEN_PERIOD_SUSPENSION,
AUTOMATIC_HOMING, HOMING_REST_END, INDEX_EDGE. -/

namespace Sys2Proof.Machine

/-- The direction of a change of one channel from the levels held (R61). -/
def State.countDir (s : State) (ch : EncoderChannel) : Dir := Machine.countDir s.car.encA s.car.encB ch

/-- A count change: the counter, P, and what the carriage state held makes of it (R61, R64 to R72). -/
def State.countChange (s : State) (ch : EncoderChannel) : State :=
  (((s.takeCount ch (s.countDir ch)).countEffect (s.countDir ch))).settle

/-- COUNT_CHANGE: `dt` ticks pass, then channel `ch` changes (R61). -/
def execCountChange (ch : EncoderChannel) (dt : Nat) (s : State) : Host.Outcome State Fault Refusal :=
  .next ((s.advance dt).countChange ch)

/-- ILLEGAL_TRANSITION (R62). -/
def execIllegalTransition (s : State) : Host.Outcome State Fault Refusal :=
  .next (((s.modifyCar (fun c => { c with encA := !c.encA, encB := !c.encB })).carriageFails .encoder).settle)

/-- The period timer stands at 20 ms (R64). -/
def State.atStandstill (s : State) : State := s.modifyCar (fun c => { c with periodTimer := standstillTicks })

/-- STALL, while the carriage is driven (R72). -/
def execStall (s : State) : Host.Outcome State Fault Refusal :=
  if s.car.state.driven then .next (((s.atStandstill).carriageFails .stall).settle) else .next s

/-- The window suspends strikes on the open period (R70). -/
def Carriage.openPeriod (c : Carriage) : Carriage :=
  match c.motion with
  | some m =>
    if c.inPass ∧ c.state = .cruise then
      { c with suspended := true, periodTimer := max c.periodTimer (greatestInside m.cls + 1) }
    else c
  | none => c

/-- OPEN_PERIOD_SUSPENSION, in CRUISE during a pass (R70). -/
def execOpenPeriodSuspension (s : State) : Host.Outcome State Fault Refusal :=
  .next (s.modifyCar Carriage.openPeriod)

/-- AUTOMATIC_HOMING: from FAULT, with the Paper Drive stopped (R74). -/
def execAutomaticHoming (s : State) : Host.Outcome State Fault Refusal :=
  if s.car.state = .fault ∧ s.drive.isStopped then .next s.atStandstill.startHoming else .next s

/-- HOMING_REST_END: the clear step begins when the index input is high, else the seek step (R76). -/
def execHomingRestEnd (s : State) : Host.Outcome State Fault Refusal :=
  if s.car.state = .homing .rest ∧ s.drive.isStopped then
    .next (if s.car.indexHigh then s.atStandstill.setHoming (.clear none) else s.atStandstill.beginSeek)
  else .next s

/-- The index input rises: an armed index takes the edge, and the settle step begins at counter 0 (R76, R77). -/
def Carriage.indexRises (c : Carriage) : Carriage :=
  if !c.indexHigh && c.indexArmed then
    { c with indexHigh := true, indexArmed := false, counter := 0, state := .homing .settle }
  else { c with indexHigh := true }

/-- The index input is low: in the clear step the 144 further counts begin here (R76). -/
def Carriage.indexFalls (c : Carriage) : Carriage :=
  if c.indexHigh ∧ c.state = .homing (.clear none) then
    { c with indexHigh := false, state := .homing (.clear (some c.counter)) }
  else { c with indexHigh := false }

/-- INDEX_EDGE (R77). -/
def execIndexEdge (level : Bool) (s : State) : Host.Outcome State Fault Refusal :=
  .next (s.modifyCar (fun c => if level then c.indexRises else c.indexFalls))

end Sys2Proof.Machine
end

