-- ==== Sys2Proof/Machine/HeatCommands.lean ====
section
/-! DEFINITION. The commands of the Head Thermal Monitor: WINDOW_END, TEMPERATURE_CONVERSION, SUPPLY_CONVERSION,
DWELL_RUNS_OUT. -/

namespace Sys2Proof.Machine

/-- Every accumulator decays, and the next window begins (R113). -/
def State.decay (s : State) : State :=
  s.modifyHeat (fun h => { h with acc := h.acc.map decayed, windowLeft := 100000 })

/-- WINDOW_END (R113, R116, R118, R121); THERMAL is posted before what the waiting pass posts (log entry 45). -/
def execWindowEnd (s : State) : Host.Outcome State Fault Refusal :=
  .next (s.judgeHeat.decay.judgeGates)

/-- TEMPERATURE_CONVERSION, when the scan converts the thermistor (R114, R115, R117, R118, R121); THERMAL is
posted before what the waiting pass posts (log entry 45). -/
def execTemperatureConversion (code : BitVec 10) (s : State) : Host.Outcome State Fault Refusal :=
  if s.heat.scan = .temperature then .next ((s.takeTemperature (temperatureOf code)).judgeGates) else .next s

/-- SUPPLY_CONVERSION, when the scan converts the supply (R114, R115, R121, R122); LOW SUPPLY is posted
before what the waiting pass posts (log entry 45). -/
def execSupplyConversion (code : BitVec 10) (s : State) : Host.Outcome State Fault Refusal :=
  if s.heat.scan = .supply then .next ((s.takeSupply (supplyOf code)).judgeGates) else .next s

/-- The dwell has run out. -/
def Dwell.expire : Dwell → Dwell
  | .running _ => .over
  | d => d

/-- DWELL_RUNS_OUT (R120). -/
def execDwellRunsOut (s : State) : Host.Outcome State Fault Refusal :=
  .next { s with dwell := s.dwell.expire }

end Sys2Proof.Machine
end

