-- ==== Sys2Proof/Machine/Operands.lean ====
section
/-! DEFINITION. How requests are read: the frame receiver (R181), and the fields of each request payload (R22 to
R24, R133, R183, R184, R191, R192). -/

namespace Sys2Proof.Machine

/-! ## Numbers on the wire (R192) -/

/-- Byte `i` of a payload, 0 beyond its end. -/
def byteAt (bs : List Byte) (i : Nat) : Nat := ((bs[i]?).getD 0).toNat

/-- A 2-byte number at byte `i`, low byte first (R192). -/
def wordAt (bs : List Byte) (i : Nat) : Nat := byteAt bs i + 256 * byteAt bs (i + 1)

/-- A signed byte at byte `i` (R192). -/
def signedAt (bs : List Byte) (i : Nat) : Int := ((bs[i]?).getD 0).toInt

/-- Bit `n` of byte `i`. -/
def bitAt (bs : List Byte) (i n : Nat) : Bool := ((bs[i]?).getD 0).getLsbD n

/-! ## Request kinds (R183, R191) -/

/-- The code of a request kind (R191). -/
def ReqKind.code : ReqKind → Byte
  | .noOp => 0x00
  | .putLine => 0x01
  | .putMotion => 0x02
  | .setForm => 0x03
  | .setHead => 0x04
  | .readState => 0x05
  | .readPosition => 0x06
  | .takeNotice => 0x07
  | .cancel => 0x08
  | .tallySet => 0x09
  | .tallyArm => 0x0A
  | .tallyMask => 0x0B
  | .tallyClear => 0x0C
  | .clear => 0x0D
  | .engineReset => 0x0E
  | .linkReset => 0x0F

/-- The request kinds in the order of their codes (R191). -/
def ReqKind.all : List ReqKind :=
  [.noOp, .putLine, .putMotion, .setForm, .setHead, .readState, .readPosition, .takeNotice, .cancel, .tallySet,
   .tallyArm, .tallyMask, .tallyClear, .clear, .engineReset, .linkReset]

/-- The request kind of a kind byte, when it is one (R181, R191). -/
def kindOfByte (b : Byte) : Option ReqKind := ReqKind.all[b.toNat]?

/-- The payload length of a kind of fixed length (R191). -/
def ReqKind.fixedLength : ReqKind → Option Nat
  | .noOp => some 0
  | .putLine => none
  | .putMotion => none
  | .setForm => none
  | .setHead => some 7
  | .readState => some 0
  | .readPosition => some 0
  | .takeNotice => some 1
  | .cancel => some 0
  | .tallySet => some 4
  | .tallyArm => some 1
  | .tallyMask => some 2
  | .tallyClear => some 1
  | .clear => some 0
  | .engineReset => some 0
  | .linkReset => some 0

/-- The declared payload length is good at byte 3 (R181). -/
def lengthGood (k : ReqKind) (n : Nat) : Bool :=
  n ≤ 16384 &&
  match k.fixedLength, k with
  | some m, _ => n = m
  | none, .setForm => 10 ≤ n && n ≤ 42 && n % 2 = 0
  | none, _ => true

/-! ## The frame receiver (R181) -/

/-- What one byte makes of the receiver: its next state, and the request when the byte completes a frame. -/
structure RxStep where
  rx : RxState
  taken : Option Frame
  deriving DecidableEq, Repr

/-- The receiver moves on without a request. -/
def rxTo (r : RxState) : RxStep := { rx := r, taken := none }

/-- The frame is complete: the request is taken, and the rest of the period is not read (R181). -/
def rxDone (k : ReqKind) (tag : Byte) (payload : List Byte) : RxStep :=
  { rx := .discard none, taken := some { kind := k, tag := tag, payload := payload } }

/-- The frame is bad (R181). -/
def rxBad (kindByte : Byte) (tag : Option Byte) (c : MalformedCause) (n : Nat) : RxStep :=
  rxTo (.discard (some { kindByte := kindByte, tag := tag, cause := c, received := n }))

/-- The header is complete: its declared length is judged (R181). -/
def rxHeader (k tag lo hi : Byte) : RxStep :=
  match kindOfByte k with
  | none => rxBad k (some tag) .unknownKind 1
  | some kind =>
    let n := lo.toNat + 256 * hi.toNat
    if !lengthGood kind n then rxBad k (some tag) .length 4
    else if n = 0 then rxDone kind tag []
    else rxTo (.payload kind tag n [])

/-- A payload byte: the stop count of a SET FORM is judged against the declared length, and the last byte
completes the frame (R181). -/
def rxPayload (k : ReqKind) (tag : Byte) (len : Nat) (got : List Byte) (b : Byte) : RxStep :=
  let got := got ++ [b]
  if k = .setForm ∧ got.length = 10 ∧ len ≠ 10 + 2 * b.toNat then rxBad k.code (some tag) .length 14
  else if len ≤ got.length then rxDone k tag got
  else rxTo (.payload k tag len got)

/-- One byte at the receiver (R181). -/
def rxByte (r : RxState) (b : Byte) : RxStep :=
  match r with
  | .idle => rxTo .idle
  | .header [] =>
    match kindOfByte b with
    | none => rxBad b none .unknownKind 1
    | some _ => rxTo (.header [b])
  | .header [k] => rxTo (.header [k, b])
  | .header [k, t] => rxTo (.header [k, t, b])
  | .header [k, t, lo] => rxHeader k t lo b
  | .header got => rxTo (.header got)
  | .payload k tag len got => rxPayload k tag len got b
  | .discard (some bad) => rxTo (.discard (some { bad with tag := some (bad.tag.getD b) }))
  | .discard none => rxTo (.discard none)

/-- Bytes at the receiver, one after another; the request is the first that a byte completes (R181). -/
def rxRun (r : RxState) : List Byte → RxStep
  | [] => rxTo r
  | b :: bs =>
    let x := rxByte r b
    let y := rxRun x.rx bs
    { y with taken := x.taken.or y.taken }

/-- The MALFORMED frame that a period leaves at the rise of SEL (R181, R182): a frame already bad, or one that
is truncated. -/
def RxState.malformed : RxState → Option BadFrame
  | .idle => none
  | .header [] => none
  | .header (k :: rest) =>
    some { kindByte := k, tag := rest.head?, cause := .truncated, received := rest.length + 1 }
  | .payload k tag _ got =>
    some { kindByte := k.code, tag := some tag, cause := .truncated, received := 4 + got.length }
  | .discard bad => bad

/-! ## PUT LINE (R19, R20, R23, R192) -/

/-- The density of a code (R4, R192). -/
def densityOf (n : Nat) : Option Density :=
  if n = 120 then some .dpi120 else if n = 144 then some .dpi144 else if n = 180 then some .dpi180
  else if n = 240 then some .dpi240 else if n = 360 then some .dpi360 else none

/-- The direction request of a code (R192). -/
def dirRequestOf (n : Nat) : Option DirRequest :=
  match n with
  | 0 => some .auto
  | 1 => some .right
  | 2 => some .left
  | _ => none

/-- The speed ceiling of a code (R192). -/
def ceilingOf (n : Nat) : Option SpeedClass :=
  match n with
  | 0 => some .draft
  | 1 => some .normal
  | 2 => some .heavy
  | _ => none

/-- The tally hold of a code, when it is one (R192). -/
def tallyHoldOf (n : Nat) : Option (Option (Fin 2)) :=
  match n with
  | 0 => some (some 0)
  | 1 => some (some 1)
  | 255 => some none
  | _ => none

/-- The segment table of a PUT LINE payload (R192). -/
def segmentsOf (bs : List Byte) (n : Nat) : List Segment :=
  (List.range n).map (fun i => { start := wordAt bs (12 + 4 * i), count := wordAt bs (14 + 4 * i) })

/-- The rows of the dot column whose 3 bytes begin at byte `i` (R192). -/
def columnAt (bs : List Byte) (i : Nat) : Rows :=
  BitVec.ofNat 18 (byteAt bs i + 256 * byteAt bs (i + 1) + 65536 * byteAt bs (i + 2))

/-- The segments lie in ascending order without overlap (R23, check 4). -/
def segmentsAscend : List Segment → Bool
  | a :: b :: rest => a.start + a.count - 1 < b.start && segmentsAscend (b :: rest)
  | _ => true

/-- The column counts of the segments, together. -/
def totalColumns (segs : List Segment) : Nat := (segs.map (·.count)).sum

/-- The blocks that the segments need (R18). -/
def blocksNeeded (segs : List Segment) : Nat := (segs.map (fun g => blocksFor g.count)).sum

/-- The number of the lowest check of R23 that a line payload fails. -/
def lineCheck (bs : List Byte) : Option Nat :=
  let n := wordAt bs 6
  let segs := segmentsOf bs n
  if bs.length < 12 ∨ (1 ≤ n ∧ n ≤ 16 ∧ bs.length < 12 + 4 * n) then some 0
  else if n = 0 ∨ 16 < n then some 1
  else if segs.any (fun g => g.count = 0 || 4896 < g.count) then some 2
  else if segs.any (fun g => 4895 < g.start || 4895 < g.start + g.count - 1) then some 3
  else if !segmentsAscend segs then some 4
  else if bs.length ≠ 12 + 4 * n + 3 * totalColumns segs then some 5
  else if (densityOf (wordAt bs 0)).isNone then some 6
  else if (dirRequestOf (byteAt bs 8)).isNone || (ceilingOf (byteAt bs 9)).isNone || (tallyHoldOf (byteAt bs 11)).isNone
    then some 7
  else if 153 < blocksNeeded segs then some 8
  else none

/-- The dot columns of the segments, segment by segment, read from byte `at` on (R192). -/
def segmentColumns (bs : List Byte) : Nat → List Segment → List (List Rows)
  | _, [] => []
  | pos, g :: gs => (List.range g.count).map (fun i => columnAt bs (pos + 3 * i)) :: segmentColumns bs (pos + 3 * g.count) gs

/-- The runs of columns that the blocks of the chain hold, in the order of the chain (R20). -/
def chainRuns (cols : List (List Rows)) : List (List Rows) := (cols.map cutBlocks).flatten

/-- The left origin as stored (R19). -/
def originOf (bs : List Byte) : Nat := if bitAt bs 10 2 then min 9719 (wordAt bs 2) else 216

/-- The fields of a line payload that passes R23, as stored for a link, with its chain in the given blocks (R19,
R20). -/
def lineFieldsOf (l : Link) (bs : List Byte) (free : List Nat) : LineFields :=
  let segs := segmentsOf bs (wordAt bs 6)
  { density := (densityOf (wordAt bs 0)).getD .dpi120
    origin := originOf bs
    dirRequest := (dirRequestOf (byteAt bs 8)).getD .auto
    ceiling := (ceilingOf (byteAt bs 9)).getD .draft
    urgent := bitAt bs 10 0 && l = .console
    unidirAlign := bitAt bs 10 1
    tallyHold := (tallyHoldOf (byteAt bs 11)).getD none
    trailingFeed := min 1023 (wordAt bs 4)
    segments := segs
    chain := layChain free (chainRuns (segmentColumns bs (12 + 4 * segs.length) segs)) }

/-! ## PUT MOTION (R22, R24, R192) -/

/-- The motion of a payload of the right length (R22, R192). -/
def motionOf (bs : List Byte) : Option MotionKind :=
  match byteAt bs 0, bs.length with
  | 1, 3 => some (.feed (clampNat 1 1023 (wordAt bs 1)))
  | 2, 3 => some (.reverse (clampNat 1 144 (wordAt bs 1)))
  | 3, 1 => some .vtab
  | 4, 1 => some .formfeed
  | 5, 1 => some .tear
  | 6, 1 => some .load
  | 7, 1 => some .park
  | 8, 2 => match byteAt bs 1 with
    | 0 => some (.path .tractor)
    | 1 => some (.path .sheet)
    | _ => none
  | 9, 2 =>
    if h : byteAt bs 1 < 18 then some (.coilTest (some ⟨byteAt bs 1, h⟩))
    else if byteAt bs 1 = 255 then some (.coilTest none) else none
  | _, _ => none

/-- The payload names a kind that Console alone may send (R22). -/
def consoleKind (bs : List Byte) : Bool := 6 ≤ byteAt bs 0 && byteAt bs 0 ≤ 9 && !bs.isEmpty

/-! ## SET FORM, SET HEAD, TALLY, TAKE NOTICE (R133, R183, R184, R187, R192) -/

/-- The fields of a SET FORM payload (R133, R192). -/
def setFormOf (bs : List Byte) : SetFormFields :=
  { length := if bitAt bs 0 0 then some (wordAt bs 1) else none
    tof := if bitAt bs 0 1 then some (wordAt bs 3) else none
    trim := if bitAt bs 0 2 then some (signedAt bs 5) else none
    skip := if bitAt bs 0 3 then some (wordAt bs 6) else none
    stops := if bitAt bs 0 4 then some ((List.range (byteAt bs 9)).map (fun i => wordAt bs (10 + 2 * i))) else none
    lock := bitAt bs 0 5 }

/-- The head settings after a SET HEAD payload: each present field is clamped and stored (R184). -/
def setHeadOf (bs : List Byte) (h : HeadSettings) : HeadSettings :=
  { gap := if bitAt bs 0 0 then clampNat 1 6 (byteAt bs 1) else h.gap
    trim := if bitAt bs 0 1 then clampInt (-8) 7 (signedAt bs 2) else h.trim
    uni := if bitAt bs 0 2 then byteAt bs 3 ≠ 0 else h.uni
    substitution := if bitAt bs 0 3 then byteAt bs 4 ≠ 0 else h.substitution
    autoTear := if bitAt bs 0 4 then min 15 (byteAt bs 5) else h.autoTear
    idleRelease := if bitAt bs 0 5 then clampNat 1 30 (byteAt bs 6) else h.idleRelease }

/-- The tally input of a payload: a value above 1 becomes 1 (R183). -/
def tallyInputOf (bs : List Byte) : Fin 2 := if byteAt bs 0 = 0 then 0 else 1

/-- The tally mode of a byte: a value above COUNT becomes COUNT (R183). -/
def tallyModeOf (n : Nat) : TallyMode :=
  match n with
  | 0 => .off
  | 1 => .edge
  | _ => .count

/-- The count of a TAKE NOTICE payload (R183, R187). -/
def noticeCountOf (bs : List Byte) : Nat := clampNat 1 8 (byteAt bs 0)

end Sys2Proof.Machine
end

