-- ==== Sys2Proof/Machine/Codec.lean ====
section
/-! DEFINITION. How responses and notices are written: the conventions and layouts of R191 and R192, the state
report of R185, the snapshot of R143, and the byte on SDO (R180). The codings that the manual leaves open are
those of log entry 13. -/

namespace Sys2Proof.Machine

/-! ## Numbers (R192) -/

/-- A number of 1 byte. -/
def u8 (n : Nat) : List Byte := [BitVec.ofNat 8 n]

/-- A number of 2 bytes, low byte first. -/
def u16 (n : Nat) : List Byte := [BitVec.ofNat 8 n, BitVec.ofNat 8 (n / 256)]

/-- A number of 4 bytes, low byte first. -/
def u32 (n : Nat) : List Byte := u16 n ++ u16 (n / 65536)

/-- A signed number of 1 byte, in two's complement. -/
def i8 (x : Int) : List Byte := u8 (BitVec.ofInt 8 x).toNat

/-- A signed number of 2 bytes, in two's complement. -/
def i16 (x : Int) : List Byte := u16 (BitVec.ofInt 16 x).toNat

/-- A flag in one byte: 1 while it is set, or while the line it stands for is high (log entry 13). -/
def flagByte (b : Bool) : List Byte := u8 (if b then 1 else 0)

/-- A flag set in one byte, bit 0 for the first flag (R192). -/
def flagSet : List Bool → Nat
  | [] => 0
  | b :: bs => (if b then 1 else 0) + 2 * flagSet bs

/-- An optional field of `width` bytes: an absent field still occupies its width as zeros (R192). -/
def optional (width : Nat) : Option (List Byte) → List Byte
  | none => 0 :: List.replicate width 0
  | some bs => 1 :: bs

/-- A list preceded by its count (R192). -/
def counted (items : List (List Byte)) : List Byte := u8 items.length ++ items.flatten

/-! ## Codes (R192) -/

/-- The code of a link: Job 0, Console 1. -/
def linkCode : Link → Nat
  | .job => 0
  | .console => 1

/-- The code of a status (R191). -/
def Status.code : Status → Nat
  | .ok => 0
  | .noRoom => 1
  | .badLine => 2
  | .malformed => 3
  | .notAllowed => 4
  | .locked => 5

/-- The code of a MALFORMED cause, in the order of R182. -/
def MalformedCause.code : MalformedCause → Nat
  | .unknownKind => 0
  | .length => 1
  | .truncated => 2

/-- The code of an entry state (R33). -/
def EntryState.code : EntryState → Nat
  | .queued => 0
  | .held => 1
  | .granted => 2

/-- The code of a motion kind in a PUT MOTION payload (R192). -/
def MotionKind.code : MotionKind → Nat
  | .feed _ => 1
  | .reverse _ => 2
  | .vtab => 3
  | .formfeed => 4
  | .tear => 5
  | .load => 6
  | .park => 7
  | .path _ => 8
  | .coilTest _ => 9

/-- The kind of a record: 0 for a line, else the code of the motion kind (log entry 13). -/
def Record.code : Record → Nat
  | .line _ => 0
  | .motion k => k.code

/-- The parameter of a motion record as stored, in the layout of the request (R22, R192). -/
def MotionKind.param : MotionKind → List Byte
  | .feed n => u16 n
  | .reverse n => u16 n
  | .path .tractor => u8 0
  | .path .sheet => u8 1
  | .coilTest (some p) => u8 p.val
  | .coilTest none => u8 255
  | _ => []

/-- The code of a level (R118). -/
def Level.code (l : Level) : Nat := l.rank

/-- The code of a health (R95). -/
def Health.code : Health → Nat
  | .good => 0
  | .suspect => 1
  | .failed => 2

/-- The code of a last coil result, in the order of R101 (log entry 13). -/
def LastCoil.code : LastCoil → Nat
  | .none => 0
  | .normal => 1
  | .short => 2
  | .openCoil => 3
  | .invalid => 4

/-- The code of a coil result: its values are first named in the list of R101, whose first value is NONE (R192, log
entry 13). -/
def CoilOutcome.code : CoilOutcome → Nat
  | .normal _ => 1
  | .short _ => 2
  | .openCoil => 3
  | .invalid _ => 4

/-- The rise time of a coil result (R107). -/
def CoilOutcome.rise : CoilOutcome → Option Nat
  | .normal t => some t
  | .short t => some t
  | _ => none

/-- The code of an INVALID cause (R192). -/
def InvalidCause.code : InvalidCause → Nat
  | .limit => 0
  | .supply => 1
  | .carriage => 2
  | .cut => 3

/-- The INVALID cause of a coil result (R107). -/
def CoilOutcome.cause : CoilOutcome → Option InvalidCause
  | .invalid c => some c
  | _ => none

/-- The code of a PIN FAILED cause (R192). -/
def PinCause.code : PinCause → Nat
  | .short => 0
  | .weak => 1
  | .openCoil => 2

/-- The code of a CARRIAGE FAULT cause (R192). -/
def CarCause.code : CarCause → Nat
  | .encoder => 0
  | .stall => 1
  | .overrun => 2
  | .noIndex => 3

/-- The code of a carriage state, in the order of R66, the rule that lists the states (log entry 13). -/
def CarStateName.code : CarStateName → Nat
  | .unhomed => 0
  | .homing => 1
  | .stopped => 2
  | .rampUp => 3
  | .cruise => 4
  | .rampDown => 5
  | .fault => 6

/-- The code of a motion outcome, in the order of the table of R160 (log entry 13). -/
def MoveOutcome.code : MoveOutcome → Nat
  | .done => 0
  | .short => 1
  | .tail => 2
  | .notMade => 3
  | .noPaper => 4
  | .noEdge => 5

/-- The code of a NOT MADE reason (R160, log entry 13). -/
def NotMadeReason.code : NotMadeReason → Nat
  | .path => 0
  | .paper => 1
  | .state => 2

/-- The code of a paper state (R126). -/
def PaperState.code : PaperState → Nat
  | .none => 0
  | .loading _ => 1
  | .present => 2
  | .tail _ => 3
  | .parked => 4

/-- The tail distance, in TAIL (R126). -/
def PaperState.tailDistance : PaperState → Option Int
  | .tail d => some d
  | _ => Option.none

/-- The code of a tear state (R126). -/
def TearState.code : TearState → Nat
  | .atPrint => 0
  | .atTear => 1

/-- The code of a path (R126). -/
def PaperPath.code : PaperPath → Nat
  | .tractor => 0
  | .sheet => 1

/-- The code of an edge state (R126). -/
def EdgeState.code : EdgeState → Nat
  | .off => 0
  | .seeking => 1
  | .locked => 2
  | .lost => 3

/-- The code of a direction of paper motion in FORM BOUNDARY: forward 0, reverse 1 (R128; DESIGN CHOICE, log entry 13). -/
def MoveDir.code : MoveDir → Nat
  | .forward => 0
  | .reverse => 1

/-- The code of a release source, in the order of R179 (log entry 13). -/
def ReleaseSource.code : ReleaseSource → Nat
  | .edge => 0
  | .count => 1
  | .latch => 2

/-- The source of a move: 0 for an entry, 1 LINE, 2 AUTO, then the link and the sequence number (log entry 13). -/
def MoveSource.bytes : MoveSource → List Byte
  | .entry l q => u8 0 ++ u8 (linkCode l) ++ u16 q.toNat
  | .line => u8 1 ++ u8 0 ++ u16 0
  | .auto => u8 2 ++ u8 0 ++ u16 0

/-- The code of a single move's kind (log entry 13). -/
def MoveKind.code : MoveKind → Nat
  | .back => 0
  | .feed _ => 1
  | .reverse _ => 2
  | .vtab => 3
  | .formfeed => 4
  | .tearFeed => 5
  | .tearAdvance => 6
  | .load => 7
  | .park => 8
  | .eject => 9
  | .subForward _ => 10
  | .subReverse _ => 11
  | .trailing _ => 12
  | .trailingReverse _ => 13

/-- The code of a drive state (R145). -/
def DriveState.code : DriveState → Nat
  | .stopped => 0
  | .stepping => 1
  | .backoff _ => 2
  | .retryWait _ => 3

/-- The code of an engine state (R163). -/
def EngineState.code : EngineState → Nat
  | .unready => 0
  | .idle => 1
  | .planning => 2
  | .pass => 3
  | .move => 4
  | .coilTest => 5
  | .halted => 6

/-- The code of a wait sub-state (R125). -/
def WaitState.code : WaitState → Nat
  | .waitThermal => 0
  | .waitSupply => 1
  | .dwell => 2

/-- The code of a tally mode, in the order of R177 (log entry 13). -/
def TallyMode.code : TallyMode → Nat
  | .off => 0
  | .edge => 1
  | .count => 2

/-- A halt set as a flag set (R163). -/
def HaltSet.bytes (h : HaltSet) : List Byte := u8 (flagSet [h.jam, h.paperOut, h.noPaper, h.carriage])

/-! ## Notices (R192) -/

/-- The kind code of a notice (R192). -/
def Notice.code : Notice → Nat
  | .lineDone _ _ _ => 0x01
  | .moveDone _ _ _ _ _ _ _ _ _ _ _ _ _ _ _ => 0x02
  | .cancelled _ _ => 0x03
  | .coilResult _ _ _ _ _ _ _ => 0x04
  | .formBoundary _ _ _ _ _ => 0x05
  | .tearPosition _ _ _ _ => 0x06
  | .paperOut _ _ _ => 0x07
  | .jam _ _ _ _ _ _ => 0x08
  | .pinFailed _ _ => 0x09
  | .thermal _ _ _ _ _ _ _ => 0x0A
  | .lowSupply _ _ => 0x0B
  | .formLength _ _ _ _ _ _ => 0x0C
  | .edgeLost _ _ _ _ => 0x0D
  | .engineReset => 0x0E
  | .tallyRelease _ _ _ _ => 0x0F
  | .carriageFault _ _ _ => 0x10

/-- The result fields of a LINE DONE: the counts before the flags, and the flags in the order of R21, where R60 has
another (log entry 13). -/
def LineResult.bytes (r : LineResult) : List Byte :=
  u32 r.clipped ++ u32 r.lost ++
    u8 (flagSet [r.clippedFlag, r.repaired, r.imperfect, r.substituted, r.degraded, r.short])

/-- The body of a notice, with the fields of its posting rule in their order (R192); in LINE DONE the link and the
sequence number come first (log entry 13). -/
def Notice.body : Notice → List Byte
  | .lineDone l q r => u8 (linkCode l) ++ u16 q.toNat ++ r.bytes
  | .moveDone l q k o reason distance moved back stalls form offset paper tear path trusted =>
    u8 (linkCode l) ++ u16 q.toNat ++ u8 k.code ++ u8 o.code ++ optional 1 (reason.map (fun x => u8 x.code)) ++
      optional 2 (distance.map u16) ++ i16 moved ++ i16 back ++ u8 stalls ++ u16 form.toNat ++ u16 offset ++
      u8 paper.code ++ u8 tear.code ++ u8 path.code ++ flagByte trusted
  | .cancelled n granted => u8 n ++ optional 2 (granted.map (fun q => u16 q.toNat))
  | .coilResult q p o supply health faults final =>
    u16 q.toNat ++ u8 p.val ++ u8 o.code ++ optional 2 (o.rise.map u16) ++
      optional 1 (o.cause.map (fun c => u8 c.code)) ++ u16 supply ++ u8 health.code ++ u8 faults ++ flagByte final
  | .formBoundary form offset len dir trusted =>
    u16 form.toNat ++ u16 offset ++ u16 len ++ u8 dir.code ++ flagByte trusted
  | .tearPosition form offset distance source => u16 form.toNat ++ u16 offset ++ i16 distance ++ source.bytes
  | .paperOut form offset distance => u16 form.toNat ++ u16 offset ++ i16 distance
  | .jam source k distance moved form offset =>
    source.bytes ++ u8 k.code ++ u16 distance ++ i16 moved ++ u16 form.toNat ++ u16 offset
  | .pinFailed p c => u8 p.val ++ u8 c.code
  | .thermal now before heat temperature peak peakPin reading =>
    u8 now.code ++ u8 before.code ++ u8 heat.code ++ u8 temperature.code ++ u16 peak ++ u8 peakPin.val ++
      optional 2 (reading.map i16)
  | .lowSupply held reading => flagByte held ++ u16 reading
  | .formLength len before programmed removed form offset =>
    u16 len ++ u16 before ++ u16 programmed ++ u8 removed ++ u16 form.toNat ++ u16 offset
  | .edgeLost len removed form offset => u16 len ++ u8 removed ++ u16 form.toNat ++ u16 offset
  | .engineReset => []
  | .tallyRelease u l q source => u8 u.val ++ u8 (linkCode l) ++ u16 q.toNat ++ u8 source.code
  | .carriageFault c counter state => u8 c.code ++ i16 counter ++ u8 state.code

/-- A notice in a TAKE NOTICE response: its kind code, its body length, its body (R192). -/
def Notice.bytes (n : Notice) : List Byte := u8 n.code ++ u8 n.body.length ++ n.body

/-! ## Reports -/

/-- The six head settings (R184). -/
def HeadSettings.bytes (h : HeadSettings) : List Byte :=
  u8 h.gap ++ i8 h.trim ++ flagByte h.uni ++ flagByte h.substitution ++ u8 h.autoTear ++ u8 h.idleRelease

/-- The stops list with its count (R192). -/
def stopBytes (stops : List Nat) : List Byte := counted (stops.map u16)

/-- The whole form map (R129, R133). -/
def FormMap.bytes (m : FormMap) : List Byte :=
  u16 m.programmed ++ optional 2 (m.learned.map u16) ++ u16 m.tof ++ i8 m.trim ++ u16 m.skip ++ stopBytes m.stops ++
    flagByte m.lock

/-- Every field of a tally unit (R177); the latch is 1 while it is set, 0 while clear (log entry 13). -/
def TallyUnit.bytes (t : TallyUnit) : List Byte :=
  u8 t.mode.code ++ u16 t.setValue.toNat ++ u16 t.armed.toNat ++ u16 t.present.toNat ++ flagByte t.unmasked ++
    flagByte t.latch ++
    (match t.qual with
     | .low => u8 0 ++ u16 0
     | .rising e => u8 1 ++ u16 e
     | .high => u8 2 ++ u16 0)

/-- The position snapshot (R143). -/
def State.positionReport (s : State) : List Byte :=
  let f := s.form
  let m := s.map
  u16 f.form.toNat ++ u16 f.offset ++ u16 m.len ++ u16 m.programmed ++ optional 2 (m.learned.map u16) ++
    u8 f.edge.code ++ optional 2 (f.candidate.map u16) ++ optional 2 (f.lastCorrection.map i16) ++
    flagByte f.pendingCorrection.isSome ++
    u32 f.odometer.toNat ++ u8 f.path.code ++ u8 f.paper.code ++ optional 2 (f.paper.tailDistance.map i16) ++
    u8 f.tear.code ++ flagByte f.trusted ++
    u16 m.tof ++ i8 m.trim ++ u16 m.skip ++ stopBytes m.stops ++ flagByte m.lock ++
    i16 s.car.counter ++ u8 s.car.state.name.code

/-- A count of ticks in units of `unit` ticks, rounded up (R125, R163). -/
def ticksIn (unit n : Nat) : Nat := (n + (unit - 1)) / unit

/-- The straps (R185); that narrow is 0 and wide 1 is log entry 13. -/
def State.strapReport (s : State) : List Byte :=
  u8 (match s.width with | .narrow => 0 | .wide => 1) ++ flagByte s.edgeFitted

/-- The granted entry: its link, sequence number and kind (R163). -/
def State.grantedReport (s : State) : List Byte :=
  optional 4 (s.grantedEntry.map (fun x => u8 (linkCode x.1) ++ u16 x.2.seq.toNat ++ u8 x.2.record.code))

/-- The engine group of the report (R163, R185). -/
def State.engineReport (s : State) : List Byte :=
  u8 s.engine.code ++ optional 1 (s.waitState.map (fun w => u8 w.code)) ++ s.arb.halt.bytes ++ s.grantedReport ++
    u8 (if s.arb.hold then 0 else 1) ++ optional 1 (s.arb.idleTimer.map (fun t => u8 (ticksIn 1000000 t))) ++
    optional 1 (s.arb.autoTimer.map (fun t => u8 (ticksIn 1000000 t))) ++ s.arb.head.bytes

/-- The Line Store figures of one link (R39); the FLOW level is 1 while high, 0 while low (log entry 13). -/
def State.linkStoreReport (s : State) (l : Link) : List Byte :=
  let t := s.store.get l
  u16 t.usedBlocks ++ u8 t.usedDescs ++ u16 (availableBlocks s.store l) ++ u8 (availableDescs s.store l) ++
    flagByte t.flow ++ u8 t.queue.length ++ u16 t.nextSeq.toNat ++
    optional 4 (t.queue.head?.map (fun e => u16 e.seq.toNat ++ u8 e.record.code ++ u8 e.state.code))

/-- The Line Store group of the report (R39, R185); the figures of Job stand before those of Console (DESIGN CHOICE, log
entry 13). -/
def State.storeReport (s : State) : List Byte :=
  u16 (freeBlocks s.store) ++ u8 (freeDescs s.store) ++ u8 (sharedFreeBlocks s.store) ++
    u8 (sharedFreeDescs s.store) ++ s.linkStoreReport .job ++ s.linkStoreReport .console

/-- The notice queue of one link (R185); the ATTN level is 1 while high, 0 while low (log entry 13). -/
def LinkPort.noticeReport (p : LinkPort) : List Byte := u8 p.notices.length ++ flagByte p.lost ++ flagByte p.attn

/-- The four fields of a pin's record (R101). -/
def PinRecord.bytes (r : PinRecord) : List Byte :=
  u8 r.health.code ++ u8 r.faults ++ u8 r.lastCoil.code ++ optional 2 (r.rise.map u16)

/-- The pin health group of the report (R101, R185): the eighteen records without a count (log entry 13). -/
def State.healthReport (s : State) : List Byte := (s.health.toList.map (·.bytes)).flatten

/-- The ticks left of a running dwell (R125). -/
def Dwell.left? : Dwell → Option Nat
  | .running n => some n
  | _ => Option.none

/-- The dwell's remaining time in ms, while DWELL is shown (R125). -/
def State.dwellReport (s : State) : List Byte :=
  optional 1 (if s.waitState = some .dwell then s.dwell.left?.map (fun n => u8 (ticksIn 10000 n)) else none)

/-- The heat group of the report (R125, R185): the eighteen accumulators without a count (log entry 13). -/
def State.heatReport (s : State) : List Byte :=
  (s.heat.acc.toList.map u16).flatten ++ optional 2 (s.heat.temperature.map i16) ++
    optional 2 (s.heat.supply.map u16) ++ u8 s.heat.heatState.code ++ u8 s.heat.tempState.code ++
    u8 s.heat.thermal.code ++ flagByte s.heat.lowSupply ++ optional 1 (s.waitState.map (fun w => u8 w.code)) ++
    s.dwellReport

/-- The carriage group of the report (R185). -/
def State.carriageReport (s : State) : List Byte := u8 s.car.state.name.code ++ i16 s.car.counter

/-- The paper drive group of the report (R185). -/
def State.driveReport (s : State) : List Byte :=
  u8 s.drive.state.code ++
    optional 10 (s.drive.move.map (fun m =>
      m.source.bytes ++ u8 m.kind.code ++ u16 m.distance ++ i16 m.net ++ u8 m.stalls))

/-- The state report, group by group (R185); the notice queue of Job stands before that of Console (DESIGN CHOICE, log entry
13). -/
def State.stateReport (s : State) : List Byte :=
  s.strapReport ++ s.engineReport ++ s.storeReport ++ s.port.job.noticeReport ++ s.port.console.noticeReport ++
    s.healthReport ++ s.heatReport ++ s.carriageReport ++ s.driveReport ++
    (s.tallyUnit 0).bytes ++ (s.tallyUnit 1).bytes

/-! ## Responses (R182, R191) -/

/-- The kind byte of a response: the received kind with its top bit set (R191). -/
def responseKind (k : Byte) : Byte := k ||| 0x80

/-- The response to a request (R182, R191). -/
def Frame.answer (f : Frame) (st : Status) (payload : List Byte) : Response :=
  { kindByte := responseKind f.kind.code, tag := f.tag, status := st, payload := payload }

/-- The MALFORMED response (R182). -/
def BadFrame.response (b : BadFrame) : Response :=
  { kindByte := responseKind b.kindByte, tag := b.tag.getD 0, status := .malformed,
    payload := u8 b.cause.code ++ u16 b.received }

/-- A response as it is shifted out (R191). -/
def Response.wire (r : Response) : List Byte :=
  [r.kindByte, r.tag] ++ u8 r.status.code ++ u16 r.payload.length ++ r.payload

/-- The byte that SDO carries in the present byte position; absent while SEL is high (R180). -/
def LinkPort.sdo (p : LinkPort) : Option Byte :=
  if p.selLow then
    some (match p.response with
      | none => 0xFF
      | some r => (r.wire[p.position]?).getD 0xFF)
  else none

end Sys2Proof.Machine
end

