-- ==== Sys2Proof/Machine/Resets.lean ====
section
/-! DEFINITION. The three resets (section 3.7 of 00): what power-on reset, engine reset and link reset make of
each block's state. -/

namespace Sys2Proof.Machine

/-- Power-on reset with the given pins. The levels of SEL are the masters', and the queue of commands and the
free-value index are the model's own: they stay (R164, log entry 4). -/
def State.powerOnReset (s : State) (pins : PowerOnPins) : State :=
  { State.powerOn pins s.port.job.selLow s.port.console.selLow with
    pending := s.pending
    freeIndex := s.freeIndex }

/-- The engine reset of the Planner: no line context, both lists FREE, no dwell (R40, R52, R120). -/
def State.resetPlanner (s : State) : State := { s with line := none }.freeLists

/-- Both queues purged completely; the sequence numbers stay, and both FLOW outputs are re-evaluated (R38, R30). -/
def State.purgeAll (s : State) : State :=
  ({ s with store := ⟨{ s.store.job with queue := [] }, { s.store.console with queue := [] }⟩ }).reflow

/-- The engine reset of the Arbiter: empty halt set, no granted entry, no hold, timers stopped, default head
settings (R164). -/
def State.resetArbiter (s : State) : State :=
  { s with
    arb := { halt := {}, granted := none, hold := false, idleTimer := none, autoTimer := none,
             head := HeadSettings.defaults } }

/-- The engine reset of the tally units (R177). -/
def State.resetTally (s : State) : State := { s with tally := s.tally.map TallyUnit.engineReset }

/-- The engine reset (R164): the Arbiter; the blocks in flight (R78, R91, R99, R110, R144, R162); the homing
(R75); the purge (R38); the tally units; and last the ENGINE RESET notice. -/
def State.engineReset (s : State) : State :=
  let s := s.resetArbiter
  let s := ((s.walkReset.cutAll).resetTest).resetPlanner
  let s := (s.startHoming.resetDrive).resetForm
  let s := s.purgeAll
  (s.resetTally).postBoth .engineReset

/-- The port of a link after its LINK RESET: the pending response discarded, the notice queue emptied, LOST
cleared, and the receiver in DISCARD for the rest of the period (R181, R189). -/
def LinkPort.linkReset (p : LinkPort) : LinkPort :=
  { p with response := none, notices := [], lost := false, rx := .discard none }

/-- A link reset: the link's QUEUED and HELD entries purged and its sequence number 0, a Job hold released, the
port reset (R37, R174, R189). -/
def State.linkReset (s : State) (l : Link) : State :=
  let s := (s.purge l).modifyStore l (fun t => { t with nextSeq := 0 })
  let s := if l = .job then s.releaseHold else s
  s.modifyPort l LinkPort.linkReset

end Sys2Proof.Machine
end

