-- ==== Sys2Proof/Machine/Requests.lean ====
section
/-! DEFINITION. What each request does in the event in which it is taken, and the response it builds there (R181
to R190). The response is built before the grants that the event leads to (log entry 26). -/

namespace Sys2Proof.Machine

/-- The response to a request is built; it becomes pending at the rise of SEL (R182). -/
def State.respond (s : State) (l : Link) (f : Frame) (st : Status) (payload : List Byte) : State :=
  s.modifyPort l (fun p => { p with built := some (f.answer st payload) })

/-- NO-OP is answered OK with an empty payload (R182). -/
def State.takeNoOp (s : State) (l : Link) (f : Frame) : State := s.respond l f .ok []

/-! ## Records (R18, R24, R28, R183) -/

/-- The payload of a NOROOM response (R28). -/
def noRoomBytes (t : PerLink LinkStore) (l : Link) (blocks : Nat) : List Byte :=
  u8 blocks ++ u16 (availableBlocks t l) ++ u8 (availableDescs t l)

/-- The record fits what is available to its link (R28). -/
def fits (t : PerLink LinkStore) (l : Link) (blocks : Nat) : Bool :=
  blocks ≤ availableBlocks t l && 1 ≤ availableDescs t l

/-- The payload of an acceptance: the sequence number, the blocks charged, the stored values, and what is
available after the acceptance (R28). -/
def State.acceptedBytes (s : State) (l : Link) (seq : SeqNo) (blocks : Nat) (stored : List Byte) : List Byte :=
  u16 seq.toNat ++ u8 blocks ++ stored ++ u16 (availableBlocks s.store l) ++ u8 (availableDescs s.store l)

/-- The stored values that the response to a PUT LINE reports (R19). -/
def LineFields.storedBytes (f : LineFields) : List Byte :=
  u16 f.origin ++ u8 (flagSet [f.urgent, f.unidirAlign]) ++ u16 f.trailingFeed

/-- The entry state in which a line record joins its queue (R28, R33). -/
def LineFields.entryState (f : LineFields) : EntryState := if f.tallyHold.isSome then .held else .queued

/-- The latch release that the acceptance of a line record may lead to (R179). -/
def State.acceptLatch (s : State) (f : LineFields) : State :=
  match f.tallyHold with
  | some u => s.latchRelease u
  | none => s

/-- PUT LINE: BADLINE, NOROOM, or acceptance (R23, R28). -/
def State.takePutLine (s : State) (l : Link) (f : Frame) : State :=
  match lineCheck f.payload with
  | some n => s.respond l f .badLine (u8 n)
  | none =>
    let blocks := blocksNeeded (segmentsOf f.payload (wordAt f.payload 6))
    if fits s.store l blocks then
      let fields := lineFieldsOf l f.payload (freeBlockNumbers s.store)
      let seq := (s.store.get l).nextSeq
      let s := (s.accept l (.line fields) blocks fields.entryState).acceptLatch fields
      (s.respond l f .ok (s.acceptedBytes l seq blocks fields.storedBytes)).settle
    else s.respond l f .noRoom (noRoomBytes s.store l blocks)

/-- PUT MOTION: NOTALLOWED, BADLINE with check 9, NOROOM, or acceptance (R22, R24, R28). -/
def State.takePutMotion (s : State) (l : Link) (f : Frame) : State :=
  if l = .job ∧ consoleKind f.payload then s.respond l f .notAllowed []
  else
    match motionOf f.payload with
    | none => s.respond l f .badLine (u8 9)
    | some k =>
      if fits s.store l 0 then
        let seq := (s.store.get l).nextSeq
        let s := s.accept l (.motion k) 0 .queued
        (s.respond l f .ok (s.acceptedBytes l seq 0 k.param)).settle
      else s.respond l f .noRoom (noRoomBytes s.store l 0)

/-! ## Settings and reads -/

/-- SET FORM: NOTALLOWED, LOCKED, or the request is applied (R133, R134). -/
def State.takeSetForm (s : State) (l : Link) (f : Frame) : State :=
  let r := setFormOf f.payload
  if l = .job ∧ r.lock then s.respond l f .notAllowed []
  else if l = .job ∧ s.map.lock then s.respond l f .locked []
  else
    let x := s.applySetForm r
    (x.1.respond l f .ok (x.1.map.bytes ++ u16 x.1.map.len ++ u8 x.2)).judgeTimers

/-- SET HEAD (R176, R184). -/
def State.takeSetHead (s : State) (l : Link) (f : Frame) : State :=
  let s := s.modifyArb (fun a => { a with head := setHeadOf f.payload a.head })
  (s.respond l f .ok s.arb.head.bytes).judgeTimers

/-- READ STATE (R185). -/
def State.takeReadState (s : State) (l : Link) (f : Frame) : State := s.respond l f .ok s.stateReport

/-- READ POSITION (R143). -/
def State.takeReadPosition (s : State) (l : Link) (f : Frame) : State := s.respond l f .ok s.positionReport

/-- TAKE NOTICE (R187). -/
def State.takeTakeNotice (s : State) (l : Link) (f : Frame) : State :=
  let p := s.port.get l
  let n := noticeCountOf f.payload
  let removed := p.notices.take n
  let left := p.notices.drop n
  let s := s.modifyPort l (fun p => { p with notices := left, lost := false })
  s.respond l f .ok (u8 removed.length ++ flagByte p.lost ++ u8 left.length ++ (removed.map (·.bytes)).flatten)

/-! ## Cancel, clear and resets -/

/-- The sequence number of a link's GRANTED entry (R173). -/
def State.grantedSeq (s : State) (l : Link) : Option SeqNo :=
  match s.arb.granted with
  | some g => if g.link = l then some g.seq else none
  | none => none

/-- The GRANTED entry of a link is cancelled as its kind requires: a line by R58; the others run to their ends
(R173). -/
def State.cancelGranted (s : State) (l : Link) : State :=
  match s.line with
  | some c => if c.link = l then s.cancelLine else s
  | none => s

/-- CANCEL (R36, R173). -/
def State.takeCancel (s : State) (l : Link) (f : Frame) : State :=
  let n := (s.store.get l).purgeable
  let granted := s.grantedSeq l
  let s := (s.purge l).cancelGranted l
  let s := if l = .job then s.releaseHold else s
  let s := s.post l (.cancelled n granted)
  (s.respond l f .ok (u8 n)).settle

/-- The entry whose move jammed completes at CLEAR (R59, R150, R160, R172). -/
def State.clearJam (s : State) : State :=
  match s.drive.run, s.line with
  | some r, _ => if r.jammed then s.completeRun r .short none else s
  | none, some c => if c.stage = .jammed then s.completeLine else s
  | none, none => s

/-- Step 1 of CLEAR: JAM leaves the halt set (R172). -/
def State.leaveJam (s : State) : State :=
  if s.arb.halt.jam then (s.modifyHalt (fun h => { h with jam := false })).clearJam else s

/-- The homing request of the Arbiter, taken in UNHOMED alone (R75). -/
def State.requestHoming (s : State) : State := if s.car.state = .unhomed then s.startHoming else s

/-- Step 2 of CLEAR: CARRIAGE leaves the halt set, and a homing is requested (R172). -/
def State.leaveCarriage (s : State) : State :=
  if s.arb.halt.carriage then (s.modifyHalt (fun h => { h with carriage := false })).requestHoming else s

/-- CLEAR, from Console alone; a line that the halt held is taken up when the set is empty (R171, R172, R183, R190). -/
def State.takeClear (s : State) (l : Link) (f : Frame) : State :=
  if l = .job then s.respond l f .notAllowed []
  else
    let s := s.leaveJam.leaveCarriage.takeUpLine
    (s.respond l f .ok s.arb.halt.bytes).settle

/-- ENGINE RESET, from Console alone (R164, R183, R190). -/
def State.takeEngineReset (s : State) (l : Link) (f : Frame) : State :=
  if l = .job then s.respond l f .notAllowed []
  else (s.engineReset).respond l f .ok []

/-- LINK RESET (R189). -/
def State.takeLinkReset (s : State) (l : Link) (f : Frame) : State :=
  let n := (s.store.get l).purgeable
  ((s.linkReset l).respond l f .ok (u8 n)).settle

/-! ## Tally requests (R177, R179, R183) -/

/-- The response of a tally request: every field of the unit after the request, and not the input number that was applied
(R177, R183; DESIGN CHOICE, log entry 50). -/
def State.respondTally (s : State) (l : Link) (f : Frame) (u : Fin 2) : State :=
  s.respond l f .ok (s.tallyUnit u).bytes

/-- TALLY SET; a change of the mode from OFF may release from the latch (R177, R179). -/
def State.takeTallySet (s : State) (l : Link) (f : Frame) : State :=
  let u := tallyInputOf f.payload
  let off := (s.tallyUnit u).mode = .off
  let s := s.modifyTally u (fun t =>
    { t with mode := tallyModeOf (byteAt f.payload 1), setValue := BitVec.ofNat 16 (wordAt f.payload 2) })
  let s := if off then s.latchRelease u else s
  (s.respondTally l f u).settle

/-- TALLY ARM (R177). -/
def State.takeTallyArm (s : State) (l : Link) (f : Frame) : State :=
  let u := tallyInputOf f.payload
  (s.modifyTally u (fun t => { t with armed := t.setValue, present := t.setValue })).respondTally l f u

/-- TALLY MASK; unmasking may release from the latch (R177, R179). -/
def State.takeTallyMask (s : State) (l : Link) (f : Frame) : State :=
  let u := tallyInputOf f.payload
  let unmask := byteAt f.payload 1 ≠ 0
  let s := s.modifyTally u (fun t => { t with unmasked := unmask })
  let s := if unmask then s.latchRelease u else s
  (s.respondTally l f u).settle

/-- TALLY CLEAR (R177). -/
def State.takeTallyClear (s : State) (l : Link) (f : Frame) : State :=
  let u := tallyInputOf f.payload
  (s.modifyTally u (fun t => { t with latch := false })).respondTally l f u

/-! ## Taking a request (R181) -/

/-- A request is taken by the block that owns its kind (R183). -/
def State.takeRequest (s : State) (l : Link) (f : Frame) : State :=
  match f.kind with
  | .noOp => s.takeNoOp l f
  | .putLine => s.takePutLine l f
  | .putMotion => s.takePutMotion l f
  | .setForm => s.takeSetForm l f
  | .setHead => s.takeSetHead l f
  | .readState => s.takeReadState l f
  | .readPosition => s.takeReadPosition l f
  | .takeNotice => s.takeTakeNotice l f
  | .cancel => s.takeCancel l f
  | .tallySet => s.takeTallySet l f
  | .tallyArm => s.takeTallyArm l f
  | .tallyMask => s.takeTallyMask l f
  | .tallyClear => s.takeTallyClear l f
  | .clear => s.takeClear l f
  | .engineReset => s.takeEngineReset l f
  | .linkReset => s.takeLinkReset l f

/-- The state in which the link's receiver has moved on by `n` bytes (R180, R181). -/
def State.receive (s : State) (l : Link) (r : RxState) (n : Nat) : State :=
  s.modifyPort l (fun p => { p with rx := r, position := p.position + n })

/-- The frame that the link's receiver completes with these bytes (R181). -/
def State.frameOf (s : State) (l : Link) (bytes : List Byte) : Option Frame :=
  if (s.port.get l).selLow then (rxRun (s.port.get l).rx bytes).taken else none

/-- A request command: its bytes arrive, and the request of kind `k` that they complete is taken by `take`. A
command whose bytes complete no frame of its kind is no event of the part (log entries 1, 3). -/
def State.request (s : State) (k : ReqKind) (l : Link) (bytes : List Byte)
    (take : State → Link → Frame → State) : State :=
  match s.frameOf l bytes with
  | some f =>
    if f.kind = k then take (s.receive l (rxRun (s.port.get l).rx bytes).rx bytes.length) l f else s
  | none => s

end Sys2Proof.Machine
end

