-- ==== Sys2Proof/Machine/LinkCommands.lean ====
section
/-! DEFINITION. The commands of power and of the select periods: POWER_ON_RESET, SELECT_FALLS, SELECT_RISES,
BYTE_ARRIVES. -/

namespace Sys2Proof.Machine

/-- POWER_ON_RESET (R164 and the rules that own each piece of state). -/
def execPowerOnReset (pins : PowerOnPins) (s : State) : Host.Outcome State Fault Refusal :=
  .next (s.powerOnReset pins)

/-- A port at the fall of SEL (R180, R181). -/
def LinkPort.selectFalls (p : LinkPort) : LinkPort :=
  if p.selLow then p else { p with selLow := true, rx := .header [], position := 0, built := none }

/-- SELECT_FALLS (R181). -/
def execSelectFalls (l : Link) (s : State) : Host.Outcome State Fault Refusal :=
  .next (s.modifyPort l LinkPort.selectFalls)

/-- The pending response after the rise of SEL: that of a MALFORMED frame, or the one built in the period, or,
with neither, the one held before (R182). -/
def LinkPort.responseAtRise (p : LinkPort) : Option Response :=
  match p.rx.malformed with
  | some b => some b.response
  | none => p.built.or p.response

/-- A port at the rise of SEL (R181, R182). -/
def LinkPort.selectRises (p : LinkPort) : LinkPort :=
  if p.selLow then
    { p with selLow := false, rx := .idle, position := 0, built := none, response := p.responseAtRise }
  else p

/-- SELECT_RISES (R182). -/
def execSelectRises (l : Link) (s : State) : Host.Outcome State Fault Refusal :=
  .next (s.modifyPort l LinkPort.selectRises)

/-- A byte at a link: the receiver moves on, and a frame that it completes is taken (R181). -/
def State.byteArrives (s : State) (l : Link) (b : Byte) : State :=
  let p := s.port.get l
  if p.selLow then
    let x := rxByte p.rx b
    let s := s.receive l x.rx 1
    match x.taken with
    | some f => s.takeRequest l f
    | none => s
  else s

/-- BYTE_ARRIVES (R181). -/
def execByteArrives (l : Link) (b : Byte) (s : State) : Host.Outcome State Fault Refusal :=
  .next (s.byteArrives l b)

end Sys2Proof.Machine
end

