-- ==== Sys2Proof/Machine/PaperCommands.lean ====
section
/-! DEFINITION. The commands of the Paper Drive: MOVE_START, STEP, SENSOR_PULSE, RETRY_TIMER_EXPIRY. -/

namespace Sys2Proof.Machine

/-- The move that can start: it is due, the drive is stopped, and the carriage is STOPPED (R146). -/
def State.startable (s : State) : Option DueMove :=
  if s.drive.isStopped ∧ s.car.state = .stopped then s.drive.due else none

/-- MOVE_START: the due move starts; `paper` is the level that the paper sensor has at that instant (R146, R156). -/
def execMoveStart (paper : Bool) (s : State) : Host.Outcome State Fault Refusal :=
  match s.startable with
  | some d => .next (((s.modifyForm (fun f => { f with paperSensor := paper })).beginMove d).settle)
  | none => .next s

/-- STEP: one step of the move in flight, or of its backoff (R127, R145 to R151). -/
def execStep (paper mark : Bool) (s : State) : Host.Outcome State Fault Refusal :=
  match s.drive.state, s.drive.move with
  | .stepping, some m => .next ((s.stepMove m paper mark).settle)
  | .backoff left, some m => .next (s.backoffStep m left paper)
  | _, _ => .next s

/-- A pulse counts in the attempt in progress, by the paper state held when it comes (R148, log entry 44). -/
def State.countsPulse (s : State) (m : MoveContext) : Bool :=
  s.drive.state = .stepping && m.dir = .forward && s.form.paper.judgesSlip

/-- SENSOR_PULSE (R148). -/
def execSensorPulse (s : State) : Host.Outcome State Fault Refusal :=
  match s.drive.move with
  | some m =>
    if s.countsPulse m then .next (s.modifyDrive (fun d => { d with move := some { m with pulses := m.pulses + 1 } }))
    else .next s
  | none => .next s

/-- RETRY_TIMER_EXPIRY: a new attempt steps forward (R148, R149). -/
def execRetryTimerExpiry (s : State) : Host.Outcome State Fault Refusal :=
  match s.drive.state with
  | .retryWait _ =>
    .next (s.modifyDrive (fun d =>
      { d with state := .stepping, move := d.move.map (fun m => { m with steps := 0, pulses := 0 }) }))
  | _ => .next s

end Sys2Proof.Machine
end

