-- ==== Sys2Proof/WellFormed.lean ====
section
/-! DEFINITION. Which commands can occur at all, whatever the state: the operand ranges that the types of
`Instr` do not already hold. -/

namespace Sys2Proof

/-- The rise time of a coil test pulse lies in 1 to 599 ticks (R104, R107). -/
def riseTimeOk (t : Nat) : Bool := 1 ≤ t && t ≤ 599

/-- A request ends with a byte of its own: no frame is complete before its last byte arrives (R181). -/
def frameBytesOk (bytes : List Byte) : Bool := !bytes.isEmpty

/-- The check of a command's operands. A command that fails it is no event of the part, and it leaves the state
as it is (log entry 28). -/
def wellFormed : Instr → Bool
  | .coilRise t => riseTimeOk t
  | .noOp _ bs | .putLine _ bs | .putMotion _ bs | .setForm _ bs | .setHead _ bs | .readState _ bs
  | .readPosition _ bs | .takeNotice _ bs | .cancel _ bs | .tallySet _ bs | .tallyArm _ bs
  | .tallyMask _ bs | .tallyClear _ bs | .clear _ bs | .engineReset _ bs | .linkReset _ bs => frameBytesOk bs
  | .powerOnReset _ | .selectRises _ | .countChange _ _ | .illegalTransition | .stall
  | .openPeriodSuspension | .automaticHoming | .homingRestEnd | .indexEdge _ | .planComplete
  | .carriageStart | .delayTimerExpiry _ | .driveEnd _ _ | .overcurrent _ | .holdEnd _
  | .recoveryEnd _ | .testPulseTimeout | .windowEnd | .temperatureConversion _
  | .supplyConversion _ | .dwellRunsOut | .moveStart _ | .step _ _ | .sensorPulse
  | .retryTimerExpiry | .idleReleaseTimerExpiry | .automaticTear | .tallyInputChange _ _
  | .qualifiedEdge _ | .selectFalls _ | .byteArrives _ _ => true

end Sys2Proof
end

