-- ==== Sys2Proof/Machine/PassCommands.lean ====
section
/-! DEFINITION. The commands of planning, striking and coil tests: PLAN_COMPLETE, CARRIAGE_START,
DELAY_TIMER_EXPIRY, DRIVE_END, OVERCURRENT, HOLD_END, RECOVERY_END, COIL_RISE, TEST_PULSE_TIMEOUT. -/

namespace Sys2Proof.Machine

/-- A BUILDING list becomes READY (R52). -/
def StrikeList.complete : StrikeList → StrikeList
  | .building q => .ready q
  | x => x

/-- PLAN_COMPLETE: the list becomes READY, and a plan taken at HOT begins its dwell (R42, R52, R120). -/
def execPlanComplete (s : State) : Host.Outcome State Fault Refusal :=
  .next ({ s with lists := s.lists.map StrikeList.complete }.beginDwell)

/-- CARRIAGE_START: the pass is started, or its plan is discarded because a gate is closed (R42). -/
def execCarriageStart (s : State) : Host.Outcome State Fault Refusal :=
  match s.startReady with
  | some (p, i, q) => if s.gatesOpen then .next (s.giveStart p i q) else .next (s.discardPlan p)
  | none => .next s

/-- DELAY_TIMER_EXPIRY: the timer's entry fires or is missed, and the timer is IDLE (R84). -/
def execDelayTimerExpiry (col : PinColumn) (s : State) : Host.Outcome State Fault Refusal :=
  match s.sequ.timer col with
  | .running _ i => .next ((s.fireEntry i).modifySequ (·.setTimer col .idle))
  | .idle => .next s

/-- The judgement at the last sample of DRIVE: weak below 1.2 A, else good (R93). -/
def State.judgeDriveEnd (s : State) (p : Pin) (milliamps : Nat) : State :=
  if milliamps < 1200 then s.judgeFault p .weak else s.judgeGood p

/-- A sample of the coil current above 4.0 A is an overcurrent (R92). -/
def isOvercurrent (milliamps : Nat) : Bool := 4000 < milliamps

/-- A pulse ends in an overcurrent: RECOVERY, and a short fault (R92). -/
def State.shortPulse (s : State) (p : Pin) : State := (s.setChannel p (.recovery recoveryTicks)).judgeFault p .short

/-- DRIVE_END of a strike pulse: the judgement, and HOLD; a last sample above 4.0 A is an overcurrent (R88, R92, R93,
log entry 25). -/
def execDriveEnd (p : Pin) (milliamps : Nat) (s : State) : Host.Outcome State Fault Refusal :=
  match s.channel p with
  | .drive _ false =>
    if isOvercurrent milliamps then .next (s.shortPulse p)
    else .next ((s.setChannel p (.hold holdTicks)).judgeDriveEnd p milliamps)
  | _ => .next s

/-- OVERCURRENT in DRIVE of a strike pulse (R92). -/
def execOvercurrent (p : Pin) (s : State) : Host.Outcome State Fault Refusal :=
  match s.channel p with
  | .drive _ false => .next (s.shortPulse p)
  | _ => .next s

/-- HOLD_END: RECOVERY (R88). -/
def execHoldEnd (p : Pin) (s : State) : Host.Outcome State Fault Refusal :=
  match s.channel p with
  | .hold _ => .next (s.setChannel p (.recovery recoveryTicks))
  | _ => .next s

/-- RECOVERY_END: READY, and a coil test that waits for the pin begins (R88, R103). -/
def execRecoveryEnd (p : Pin) (s : State) : Host.Outcome State Fault Refusal :=
  match s.channel p with
  | .recovery _ => .next (((s.setChannel p .ready).testProceed).settle)
  | _ => .next s

/-- COIL_RISE: the test pulse ends with SHORT or NORMAL (R104). -/
def execCoilRise (t : Nat) (s : State) : Host.Outcome State Fault Refusal :=
  if riseTimeOk t then .next ((s.testPulseEnd (riseOutcome t)).settle) else .next s

/-- TEST_PULSE_TIMEOUT: the test pulse ends with OPEN (R104). -/
def execTestPulseTimeout (s : State) : Host.Outcome State Fault Refusal :=
  .next ((s.testPulseEnd .openCoil).settle)

end Sys2Proof.Machine
end

