-- ==== Sys2Proof/Machine/RequestCommands.lean ====
section
/-! DEFINITION. The sixteen requests as commands: each carries the bytes of its frame that have not arrived yet,
and is taken in the event of its last byte (R181, log entry 3). -/

namespace Sys2Proof.Machine

/-- NO-OP (R182). -/
def execNoOp (l : Link) (bytes : List Byte) (s : State) : Host.Outcome State Fault Refusal :=
  .next (s.request .noOp l bytes State.takeNoOp)

/-- PUT LINE (R18 to R20, R23, R28). -/
def execPutLine (l : Link) (bytes : List Byte) (s : State) : Host.Outcome State Fault Refusal :=
  .next (s.request .putLine l bytes State.takePutLine)

/-- PUT MOTION (R22, R24, R28). -/
def execPutMotion (l : Link) (bytes : List Byte) (s : State) : Host.Outcome State Fault Refusal :=
  .next (s.request .putMotion l bytes State.takePutMotion)

/-- SET FORM (R133, R134). -/
def execSetForm (l : Link) (bytes : List Byte) (s : State) : Host.Outcome State Fault Refusal :=
  .next (s.request .setForm l bytes State.takeSetForm)

/-- SET HEAD (R176, R184). -/
def execSetHead (l : Link) (bytes : List Byte) (s : State) : Host.Outcome State Fault Refusal :=
  .next (s.request .setHead l bytes State.takeSetHead)

/-- READ STATE (R185). -/
def execReadState (l : Link) (bytes : List Byte) (s : State) : Host.Outcome State Fault Refusal :=
  .next (s.request .readState l bytes State.takeReadState)

/-- READ POSITION (R143). -/
def execReadPosition (l : Link) (bytes : List Byte) (s : State) : Host.Outcome State Fault Refusal :=
  .next (s.request .readPosition l bytes State.takeReadPosition)

/-- TAKE NOTICE (R187). -/
def execTakeNotice (l : Link) (bytes : List Byte) (s : State) : Host.Outcome State Fault Refusal :=
  .next (s.request .takeNotice l bytes State.takeTakeNotice)

/-- CANCEL (R36, R173). -/
def execCancel (l : Link) (bytes : List Byte) (s : State) : Host.Outcome State Fault Refusal :=
  .next (s.request .cancel l bytes State.takeCancel)

/-- TALLY SET (R177, R179). -/
def execTallySet (l : Link) (bytes : List Byte) (s : State) : Host.Outcome State Fault Refusal :=
  .next (s.request .tallySet l bytes State.takeTallySet)

/-- TALLY ARM (R177). -/
def execTallyArm (l : Link) (bytes : List Byte) (s : State) : Host.Outcome State Fault Refusal :=
  .next (s.request .tallyArm l bytes State.takeTallyArm)

/-- TALLY MASK (R177, R179). -/
def execTallyMask (l : Link) (bytes : List Byte) (s : State) : Host.Outcome State Fault Refusal :=
  .next (s.request .tallyMask l bytes State.takeTallyMask)

/-- TALLY CLEAR (R177). -/
def execTallyClear (l : Link) (bytes : List Byte) (s : State) : Host.Outcome State Fault Refusal :=
  .next (s.request .tallyClear l bytes State.takeTallyClear)

/-- CLEAR (R172). -/
def execClear (l : Link) (bytes : List Byte) (s : State) : Host.Outcome State Fault Refusal :=
  .next (s.request .clear l bytes State.takeClear)

/-- ENGINE RESET (R164). -/
def execEngineReset (l : Link) (bytes : List Byte) (s : State) : Host.Outcome State Fault Refusal :=
  .next (s.request .engineReset l bytes State.takeEngineReset)

/-- LINK RESET (R189). -/
def execLinkReset (l : Link) (bytes : List Byte) (s : State) : Host.Outcome State Fault Refusal :=
  .next (s.request .linkReset l bytes State.takeLinkReset)

end Sys2Proof.Machine
end

