-- ==== Sys2Proof/Machine/Dispatch.lean ====
section
/-! DEFINITION. The meaning of every command: one arm for each row of spec/opcode_table.json. -/

namespace Sys2Proof.Machine

/-- The effect of a command on everything but the queue of commands. -/
def exec (i : Instr) (s : State) : Host.Outcome State Fault Refusal :=
  match i with
  | .powerOnReset pins => Sys2Proof.Machine.execPowerOnReset pins s
  | .selectRises l => Sys2Proof.Machine.execSelectRises l s
  | .noOp l bytes => Sys2Proof.Machine.execNoOp l bytes s
  | .putLine l bytes => Sys2Proof.Machine.execPutLine l bytes s
  | .putMotion l bytes => Sys2Proof.Machine.execPutMotion l bytes s
  | .setForm l bytes => Sys2Proof.Machine.execSetForm l bytes s
  | .setHead l bytes => Sys2Proof.Machine.execSetHead l bytes s
  | .readState l bytes => Sys2Proof.Machine.execReadState l bytes s
  | .readPosition l bytes => Sys2Proof.Machine.execReadPosition l bytes s
  | .takeNotice l bytes => Sys2Proof.Machine.execTakeNotice l bytes s
  | .cancel l bytes => Sys2Proof.Machine.execCancel l bytes s
  | .tallySet l bytes => Sys2Proof.Machine.execTallySet l bytes s
  | .tallyArm l bytes => Sys2Proof.Machine.execTallyArm l bytes s
  | .tallyMask l bytes => Sys2Proof.Machine.execTallyMask l bytes s
  | .tallyClear l bytes => Sys2Proof.Machine.execTallyClear l bytes s
  | .clear l bytes => Sys2Proof.Machine.execClear l bytes s
  | .engineReset l bytes => Sys2Proof.Machine.execEngineReset l bytes s
  | .linkReset l bytes => Sys2Proof.Machine.execLinkReset l bytes s
  | .countChange ch dt => Sys2Proof.Machine.execCountChange ch dt s
  | .illegalTransition => Sys2Proof.Machine.execIllegalTransition s
  | .stall => Sys2Proof.Machine.execStall s
  | .openPeriodSuspension => Sys2Proof.Machine.execOpenPeriodSuspension s
  | .automaticHoming => Sys2Proof.Machine.execAutomaticHoming s
  | .homingRestEnd => Sys2Proof.Machine.execHomingRestEnd s
  | .indexEdge level => Sys2Proof.Machine.execIndexEdge level s
  | .planComplete => Sys2Proof.Machine.execPlanComplete s
  | .carriageStart => Sys2Proof.Machine.execCarriageStart s
  | .delayTimerExpiry col => Sys2Proof.Machine.execDelayTimerExpiry col s
  | .driveEnd p milliamps => Sys2Proof.Machine.execDriveEnd p milliamps s
  | .overcurrent p => Sys2Proof.Machine.execOvercurrent p s
  | .holdEnd p => Sys2Proof.Machine.execHoldEnd p s
  | .recoveryEnd p => Sys2Proof.Machine.execRecoveryEnd p s
  | .coilRise t => Sys2Proof.Machine.execCoilRise t s
  | .testPulseTimeout => Sys2Proof.Machine.execTestPulseTimeout s
  | .windowEnd => Sys2Proof.Machine.execWindowEnd s
  | .temperatureConversion code => Sys2Proof.Machine.execTemperatureConversion code s
  | .supplyConversion code => Sys2Proof.Machine.execSupplyConversion code s
  | .dwellRunsOut => Sys2Proof.Machine.execDwellRunsOut s
  | .moveStart paper => Sys2Proof.Machine.execMoveStart paper s
  | .step paper mark => Sys2Proof.Machine.execStep paper mark s
  | .sensorPulse => Sys2Proof.Machine.execSensorPulse s
  | .retryTimerExpiry => Sys2Proof.Machine.execRetryTimerExpiry s
  | .idleReleaseTimerExpiry => Sys2Proof.Machine.execIdleReleaseTimerExpiry s
  | .automaticTear => Sys2Proof.Machine.execAutomaticTear s
  | .tallyInputChange u level => Sys2Proof.Machine.execTallyInputChange u level s
  | .qualifiedEdge u => Sys2Proof.Machine.execQualifiedEdge u s
  | .selectFalls l => Sys2Proof.Machine.execSelectFalls l s
  | .byteArrives l b => Sys2Proof.Machine.execByteArrives l b s

end Sys2Proof.Machine
end

