-- ==== Sys2Proof/Safety.lean ====
section
/-! DEFINITION. The terms in which the statements speak: the state in which a request is taken, the answer it
builds, and the invariants of a sound state. -/

namespace Sys2Proof.Machine

/-! ## Requests -/

/-- The state in which a request is taken: its bytes have come, and the rest of the period is not read (R181). -/
def State.heard (s : State) (l : Link) (bytes : List Byte) : State := s.receive l (.discard none) bytes.length

/-- The state with the response of the request just taken (R182). -/
def State.answered (s : State) (l : Link) (r : Response) : State := s.modifyPort l (fun p => { p with built := some r })

/-- A whole request frame (R191). -/
def requestBytes (k : ReqKind) (tag : Byte) (payload : List Byte) : List Byte :=
  [k.code, tag, BitVec.ofNat 8 payload.length, BitVec.ofNat 8 (payload.length / 256)] ++ payload

/-- The command of a request kind. -/
def requestCommand (k : ReqKind) (l : Link) (bytes : List Byte) : Instr :=
  match k with
  | .noOp => .noOp l bytes
  | .putLine => .putLine l bytes
  | .putMotion => .putMotion l bytes
  | .setForm => .setForm l bytes
  | .setHead => .setHead l bytes
  | .readState => .readState l bytes
  | .readPosition => .readPosition l bytes
  | .takeNotice => .takeNotice l bytes
  | .cancel => .cancel l bytes
  | .tallySet => .tallySet l bytes
  | .tallyArm => .tallyArm l bytes
  | .tallyMask => .tallyMask l bytes
  | .tallyClear => .tallyClear l bytes
  | .clear => .clear l bytes
  | .engineReset => .engineReset l bytes
  | .linkReset => .linkReset l bytes

/-! ## Bounds of the monitors (R63, R64, R101, R111, R186) -/

/-- Health and fault count go together (R101). -/
def PinRecord.Consistent (r : PinRecord) : Prop :=
  (r.health = .good ∧ r.faults = 0) ∨ (r.health = .suspect ∧ (r.faults = 1 ∨ r.faults = 2)) ∨
    (r.health = .failed ∧ r.faults = 3)

/-- The head settings lie in their ranges (R6, R170, R175). -/
def HeadSettings.Legal (h : HeadSettings) : Prop :=
  (1 ≤ h.gap ∧ h.gap ≤ 6) ∧ (-8 ≤ h.trim ∧ h.trim ≤ 7) ∧ h.autoTear ≤ 15 ∧ (1 ≤ h.idleRelease ∧ h.idleRelease ≤ 30)

/-- The accumulators, notice queues, pin records with their rise times, the counter with its period, and the head settings
lie in their ranges; a coil test has at most 17 pins left; the repair list holds at most 5 120 items, and a Sequencer that is
IDLE holds none, with a clear overflow mark and both timers IDLE (R63, R64, R80, R87, R101, R102, R111, R184, R186). -/
structure State.Bounded (s : State) : Prop where
  heat : ∀ p : Pin, s.heatOf p ≤ 65535
  notices : ∀ l : Link, (s.port.get l).notices.length ≤ 16
  health : ∀ p : Pin, (s.pinRecord p).Consistent
  rise : ∀ (p : Pin) (t : Nat), (s.pinRecord p).rise = some t → 30 ≤ t ∧ t ≤ 599
  counter : -32768 ≤ s.car.counter ∧ s.car.counter ≤ 32767
  period : 1 ≤ s.car.period ∧ s.car.period ≤ 200000
  timer : s.car.periodTimer ≤ 200000
  head : s.arb.head.Legal
  repairs : s.sequ.repairs.length ≤ 5120
  todo : ∀ c : TestContext, s.test = some c → c.todo.length ≤ 17
  idle : s.sequ.walking = false →
    s.sequ.timerA = .idle ∧ s.sequ.timerB = .idle ∧ s.sequ.repairs = [] ∧ s.sequ.overflow = false

/-! ## The form (R126, R127, R129) -/

/-- The form map lies in its ranges (R129). -/
structure FormMap.Legal (m : FormMap) : Prop where
  programmed : 144 ≤ m.programmed ∧ m.programmed ≤ 8640
  learned : ∀ n, m.learned = some n → 144 ≤ n ∧ n ≤ 8640
  tof : m.tof ≤ min 720 (m.len - 1)
  trim : -72 ≤ m.trim ∧ m.trim ≤ 72
  skip : m.skip ≤ m.len / 2
  few : m.stops.length ≤ 12
  ascending : m.stops.Pairwise (· < ·)
  below : ∀ x ∈ m.stops, x < m.len

/-- The map is legal, the offset lies in 0 to the effective length less 1, and a candidate length is a form
length (R126, R127, R129). -/
structure State.FormSound (s : State) : Prop where
  map : s.map.Legal
  offset : s.form.offset < s.map.len
  candidate : ∀ n, s.form.candidate = some n → 144 ≤ n ∧ n ≤ 8640

/-! ## The two motions (R66) -/

/-- The carriage and the paper are never both in motion: while the carriage is driven, the Paper Drive is
STOPPED; a pass or a positioning move is held in the driven states alone, and the index is armed in the seek
step alone (R66, R77). -/
structure State.OneMotion (s : State) : Prop where
  exclusive : s.car.state.driven = true → s.drive.state = .stopped
  moving : s.car.motion.isSome → s.car.state = .rampUp ∨ s.car.state = .cruise ∨ s.car.state = .rampDown
  armed : s.car.indexArmed = true → s.car.state = .homing .seek

/-! ## The Line Store (R25, R27) -/

/-- The blocks of both links' chains. -/
def State.chained (s : State) : List Nat := s.store.job.chained ++ s.store.console.chained

/-- No block lies in two chains, every charge is that of its chain, the shared region is never used beyond its
total, and each queue is in the order of acceptance (R18, R25, R27, R32). -/
structure State.StoreSound (s : State) : Prop where
  distinct : s.chained.Nodup
  range : ∀ b ∈ s.chained, b < 384
  charge : ∀ l : Link, ∀ e ∈ (s.store.get l).queue, e.blocks = e.record.chain.length
  blocks : sharedInUse blockReserve (fun k => (s.store.get k).usedBlocks) ≤ 240
  descs : sharedInUse descReserve (fun k => (s.store.get k).usedDescs) ≤ 24
  order : ∀ l : Link, ((s.store.get l).queue.map (·.stamp)).Pairwise (· < ·)
  stamps : ∀ l : Link, ∀ e ∈ (s.store.get l).queue, e.stamp < s.acceptCount
  apart : ∀ a ∈ s.store.job.queue, ∀ b ∈ s.store.console.queue, a.stamp ≠ b.stamp

/-! ## Grants (R32, R33, R163) -/

/-- An entry of a queue that is GRANTED is its head, and it is the granted entry of the Arbiter; the granted
entry is at the head of its queue; the line operation, the motion entry and the coil test in progress are the
granted entry's, and there is at most one of them; no coil test waits in the Job queue (R22, R32, R33, R40, R102). -/
structure State.GrantSound (s : State) : Prop where
  only : ∀ l : Link, ∀ i : Nat, ∀ e : Entry, (s.store.get l).queue[i]? = some e → e.state = .granted →
    i = 0 ∧ s.arb.granted = some ⟨l, e.seq⟩
  head : ∀ g : Granted, s.arb.granted = some g → ∃ e : Entry, s.headEntry g.link = some e ∧ e.state = .granted ∧ e.seq = g.seq
  line : ∀ c : LineContext, s.line = some c →
    (∃ q : SeqNo, s.arb.granted = some ⟨c.link, q⟩) ∧ s.drive.run = none ∧ s.test = none
  run : ∀ r : MotionRun, s.drive.run = some r →
    s.arb.granted = some ⟨r.link, r.seq⟩ ∧ s.line = none ∧ s.test = none
  test : ∀ c : TestContext, s.test = some c →
    s.arb.granted = some ⟨.console, c.seq⟩ ∧ s.line = none ∧ s.drive.run = none
  rights : ∀ e ∈ s.store.job.queue, ∀ p : Option Pin, e.record ≠ .motion (.coilTest p)

/-! ## Pin channels (R88, R89) -/

/-- The channel is in DRIVE of a strike pulse. -/
def Channel.inStrike : Channel → Bool
  | .drive _ false => true
  | _ => false

/-! ## Power-on reset -/

/-- What power-on reset leaves in the link ports, the Line Store, the Arbiter, the Planner and the tally units (R6,
R25, R26, R30, R31, R40, R52, R164, R170, R175, R177, R181, R182, R186, R188). -/
structure State.LinksPoweredOn (t : State) : Prop where
  receiver : ∀ l : Link, (t.port.get l).rx = .idle ∧ (t.port.get l).response = none ∧ (t.port.get l).built = none
  notices : ∀ l : Link, (t.port.get l).notices = [] ∧ (t.port.get l).lost = false ∧ (t.port.get l).attn = false
  queues : ∀ l : Link, (t.store.get l).queue = [] ∧ (t.store.get l).nextSeq = 0 ∧ (t.store.get l).flow = true
  free : freeBlocks t.store = 384 ∧ freeDescs t.store = 48
  engine : t.engine = .unready ∧ t.arb.halt = ⟨false, false, false, false⟩ ∧ t.arb.granted = none ∧ t.arb.hold = false
  timers : t.arb.idleTimer = none ∧ t.arb.autoTimer = none
  head : t.arb.head = ⟨1, 0, false, true, 0, 4⟩
  planner : t.line = none ∧ t.lists = #v[.free, .free]
  tally : ∀ u : Fin 2, (t.tallyUnit u).mode = .off ∧ (t.tallyUnit u).setValue = 0 ∧ (t.tallyUnit u).armed = 0 ∧
    (t.tallyUnit u).present = 0 ∧ (t.tallyUnit u).unmasked = false ∧ (t.tallyUnit u).latch = false

/-- What power-on reset leaves in the straps, the carriage, the Sequencer, the pins, the Thermal Monitor, the Form
Position Unit, the Paper Drive and the tally inputs (R75, R79, R80, R88, R101, R102, R111, R113, R114, R116, R117,
R118, R122, R126, R129, R145, R178, R185); the steppers' counts of 0 are log entry 38. -/
structure State.MechanismPoweredOn (t : State) (pins : PowerOnPins) : Prop where
  straps : t.width = pins.width ∧ t.edgeFitted = pins.edgeFitted
  carriage : t.car.state = .homing .rest ∧ t.car.counter = 0 ∧ t.car.period = 200000 ∧ t.car.periodTimer = 0
  window : t.car.indexArmed = false ∧ t.car.suspended = false ∧ t.car.enable = false
  sequencer : t.sequ.walking = false ∧ t.sequ.timerA = .idle ∧ t.sequ.timerB = .idle ∧ t.sequ.repairs = [] ∧
    t.sequ.overflow = false
  channels : ∀ p : Pin, t.channel p = .ready
  health : ∀ p : Pin, t.pinRecord p = ⟨.good, 0, .none, none⟩
  test : t.test = none
  heat : ∀ p : Pin, t.heatOf p = 0
  scan : t.heat.windowLeft = 100000 ∧ t.heat.scan = .temperature ∧ t.heat.convLeft = 10000
  readings : t.heat.temperature = none ∧ t.heat.supply = none ∧ t.heat.lowSupply = false
  levels : t.heat.heatState = .cool ∧ t.heat.tempState = .cool ∧ t.heat.thermal = .cool
  form : t.form = ⟨0, 0, 0, 0, .tractor, .none, .atPrint, 0, if pins.edgeFitted then .seeking else .off, none, none,
    none, none, 0, false, pins.paper⟩
  map : t.map = ⟨3168, none, 0, 0, 0, [], false⟩
  drive : t.drive.state = .stopped ∧ t.drive.move = none
  steppers : t.steppers = ⟨0, 0⟩
  tally : (t.tallyUnit 0).qual = (if pins.tally0 then .high else .low) ∧
    (t.tallyUnit 1).qual = (if pins.tally1 then .high else .low)

/-! ## Counts and faults of the carriage (R61, R64, R73, R77) -/

/-- The change of this channel is a count up (the table of R61). -/
def State.countsUp (s : State) (ch : EncoderChannel) : Bool :=
  match ch with
  | .chanA => s.car.encA == s.car.encB
  | .chanB => s.car.encA != s.car.encB

/-- The state in which a count, `dt` ticks after the step before, has been counted and its period captured, before
anything else is made of it (R61, R64). -/
def State.counted (s : State) (ch : EncoderChannel) (dt : Nat) : State :=
  { s.advance dt with
    car := { (s.advance dt).car with
      encA := if ch = .chanA then !s.car.encA else s.car.encA
      encB := if ch = .chanB then !s.car.encB else s.car.encB
      counter := s.car.counter + (if s.countsUp ch then 1 else -1)
      period := max 1 (min 200000 (s.car.periodTimer + dt))
      periodTimer := 0 } }

/-- The counter is in its range (R63). -/
def State.counterInRange (s : State) : Prop := -32768 ≤ s.car.counter ∧ s.car.counter ≤ 32767

/-- `t` is a state after the carriage has entered FAULT in `s`: the line of an abandoned pass, whose entry is the granted
one, has IMPERFECT set and its feed left, is held by a halt, or has completed (R69, R73, R91, R98). -/
structure State.Faulted (s t : State) (c : CarCause) : Prop where
  state : t.car.state = .fault ∧ t.car.motion = none ∧ t.car.enable = false
  counter : t.car.counter = s.car.counter ∧ t.car.period = s.car.period
  timers : s.sequ.walking = true → t.sequ.walking = false ∧ t.sequ.timerA = .idle ∧ t.sequ.timerB = .idle ∧
    t.sequ.repairs = [] ∧ t.sequ.overflow = false
  cut : ∀ p : Pin, t.channel p = (s.channel p).cut
  line : ∀ (c : LineContext) (q : PassPlan), s.GrantSound → s.line = some c → s.car.motion.isSome = true →
    s.strikingPlan = some q → (∀ e : Entry, s.headEntry c.link = some e →
      (∃ (d : LineContext) (e : Entry), t.line = some d ∧ (d.stage = .feeding ∨ d.stage = .held) ∧
        t.headEntry c.link = some e ∧ e.result.imperfect = true) ∨
      (t.line = none ∧ ((∃ r : LineResult, r.imperfect = true ∧ Notice.lineDone c.link e.seq r ∈ (t.port.get c.link).notices) ∨
        (t.port.get c.link).lost = true)))
  notice : ∀ l : Link, Notice.carriageFault c s.car.counter s.car.state.name ∈ (t.port.get l).notices ∨
    (t.port.get l).lost = true

/-- `t` is a state after a homing has failed in `s` (R77). -/
structure State.HomingFailed (s t : State) (c : CarCause) : Prop where
  state : t.car.state = .unhomed ∧ t.car.indexArmed = false
  counter : t.car.counter = s.car.counter
  halt : t.arb.halt.carriage = true ∧ t.engine = .halted
  notice : ∀ l : Link, Notice.carriageFault c s.car.counter .homing ∈ (t.port.get l).notices ∨
    (t.port.get l).lost = true

/-! ## Heat levels (R116, R117) -/

/-- The highest heat level that a value reaches by its entry value (R116). -/
def heatEntryRank (h : Nat) : Nat := if 48000 ≤ h then 3 else if 36000 ≤ h then 2 else if 24000 ≤ h then 1 else 0

/-- The highest heat level that a value does not leave by its exit value (R116). -/
def heatStayRank (h : Nat) : Nat := if 44000 ≤ h then 3 else if 32000 ≤ h then 2 else if 20000 ≤ h then 1 else 0

/-- The highest temperature level that a reading reaches by its entry value (R117). -/
def tempEntryRank (t : Int) : Nat := if 100 ≤ t then 3 else if 85 ≤ t then 2 else if 70 ≤ t then 1 else 0

/-- The highest temperature level that a reading does not leave by its exit value (R117). -/
def tempStayRank (t : Int) : Nat := if 95 < t then 3 else if 80 < t then 2 else if 65 < t then 1 else 0

/-! ## Moves of the paper (R131, R132, R153, R155, R161) -/

/-- A forward distance with the extension of the skip zone (R132). -/
def FormMap.withSkip (m : FormMap) (o n : Nat) : Nat :=
  if m.skip ≠ 0 ∧ m.len - m.skip ≤ (o + n) % m.len then n + (m.len - (o + n) % m.len) else n

/-- The direction and the distance of a move whose distance is fixed at its start and that changes nothing of the record
when it starts (R131, R153, R155, R161). -/
def State.fixedMove (s : State) : MoveKind → Option (MoveDir × Nat)
  | .back => some (if 0 < s.form.tearDistance then .reverse else .forward, s.form.tearDistance.natAbs)
  | .feed n => some (.forward, s.map.withSkip s.form.offset n)
  | .reverse n => some (.reverse, n)
  | .vtab => some (.forward, match s.map.stops.find? (fun x => s.form.offset < x) with
    | some x => x - s.form.offset
    | none => s.map.len - s.form.offset)
  | .formfeed => some (.forward, if s.form.offset = 0 then s.map.len else s.map.len - s.form.offset)
  | .tearFeed => some (.forward, if s.form.offset = 0 then 0 else s.map.len - s.form.offset)
  | .subForward n => some (.forward, n)
  | .subReverse n => some (.reverse, n)
  | .trailing n => some (.forward, s.map.withSkip s.form.offset n)
  | .trailingReverse n => some (.reverse, n)
  | .tearAdvance => none
  | .load => none
  | .park => none
  | .eject => none

/-! ## A line payload as it is written (R192) -/

/-- What a master puts in a PUT LINE payload: the fixed fields, and the segments with their columns. -/
structure LineText where
  density : Density
  origin : Option Nat
  feed : Nat
  dirRequest : DirRequest
  ceiling : SpeedClass
  urgent : Bool
  unidirAlign : Bool
  hold : Option (Fin 2)
  segments : List (Nat × List Rows)
  deriving DecidableEq, Repr

/-- The dots per inch of a density (R4). -/
def Density.dpi : Density → Nat
  | .dpi120 => 120
  | .dpi144 => 144
  | .dpi180 => 180
  | .dpi240 => 240
  | .dpi360 => 360

/-- The code of a direction request (R192). -/
def DirRequest.code : DirRequest → Nat
  | .auto => 0
  | .right => 1
  | .left => 2

/-- The 3 bytes of a dot column (R192). -/
def columnBytes (m : Rows) : List Byte := u16 m.toNat ++ u8 (m.toNat / 65536)

/-- The payload of a PUT LINE (R192). -/
def LineText.bytes (x : LineText) : List Byte :=
  u16 x.density.dpi ++ u16 (x.origin.getD 0) ++ u16 x.feed ++ u16 x.segments.length ++ u8 x.dirRequest.code ++
    u8 x.ceiling.rank ++ u8 (flagSet [x.urgent, x.unidirAlign, x.origin.isSome]) ++
    u8 (match x.hold with | none => 255 | some u => u.val) ++
    (x.segments.map (fun g => u16 g.1 ++ u16 g.2.length)).flatten ++
    (x.segments.map (fun g => (g.2.map columnBytes).flatten)).flatten

/-- The payload is one that passes every check of R23, and its numbers fit their fields. -/
structure LineText.Legal (x : LineText) : Prop where
  ceiling : x.ceiling ≠ .creep
  origin : ∀ n, x.origin = some n → n < 65536
  feed : x.feed < 65536
  few : 1 ≤ x.segments.length ∧ x.segments.length ≤ 16
  columns : ∀ g ∈ x.segments, 1 ≤ g.2.length ∧ g.1 + g.2.length ≤ 4896
  ascend : x.segments.Pairwise (fun a b => a.1 + a.2.length ≤ b.1)
  blocks : (x.segments.map (fun g => (g.2.length + 31) / 32)).sum ≤ 153

/-- Every dot column of the payload with its index (R20). -/
def LineText.dots (x : LineText) : List (Nat × Rows) :=
  (x.segments.map (fun g => (g.2.zipIdx g.1).map (fun y => (y.2, y.1)))).flatten

end Sys2Proof.Machine
end

