-- ==== Sys2Proof/Certificates/Slice0/Obligations.lean ====
section
/-! DEFINITION. The statements for the provers, in the order of the chapters. `s.heard l bytes` is the state in which
a request is taken, `answered` puts its response into the period's slot, and `settle` is what an event brings with it
(plans, grants, halts, timers), whose frame `SettleLeavesTheRest` states; that a response is built before the grants of
its event is log entry 26. -/

open Sys2Proof
open Sys2Proof.Machine

/-! ## The machine -/

/-- A step takes the command at the front of the queue and runs it with the queue's rest. -/
def Obligations.StepRunsFrontCommand : Prop :=
  ∀ (c : Instr) (rest : List Instr) (s : State), step { s with pending := c :: rest } = exec c { s with pending := rest }

/-- The model's choice (log entries 2, 33): with no command waiting, a step is one tick, in which every timer moves
on and the rest of the state named here stays as it is. -/
def Obligations.IdleStepPassesOneTick : Prop :=
  ∀ s : State, s.pending = [] → ∃ t : State, step s = .next t ∧
    t.car.periodTimer = min 200000 (s.car.periodTimer + 1) ∧
    t.heat.windowLeft = s.heat.windowLeft - 1 ∧ t.heat.convLeft = s.heat.convLeft - 1 ∧
    t.arb.idleTimer = s.arb.idleTimer.map (· - 1) ∧ t.arb.autoTimer = s.arb.autoTimer.map (· - 1) ∧
    (∀ n, s.dwell = .running n → t.dwell = .running (n - 1)) ∧
    (∀ n, s.drive.state = .retryWait n → t.drive.state = .retryWait (n - 1)) ∧
    (∀ col n e, s.sequ.timer col = .running n e → t.sequ.timer col = .running (n - 1) e) ∧
    (∀ p, t.channel p = match s.channel p with
      | .ready => .ready
      | .drive n k => .drive (n - 1) k
      | .hold n => .hold (n - 1)
      | .recovery n => .recovery (n - 1)) ∧
    (∀ u e, (s.tallyUnit u).qual = .rising e → (t.tallyUnit u).qual = .rising (e + 1)) ∧
    t.port = s.port ∧ t.store = s.store ∧ t.line = s.line ∧ t.lists = s.lists ∧ t.health = s.health ∧
    t.form = s.form ∧ t.map = s.map ∧ t.drive.move = s.drive.move ∧ t.drive.due = s.drive.due ∧
    t.car.counter = s.car.counter ∧ t.car.period = s.car.period ∧ t.car.state = s.car.state ∧
    t.heat.acc = s.heat.acc ∧ t.arb.halt = s.arb.halt ∧ t.arb.granted = s.arb.granted ∧ t.pending = []

/-- Every command answers a next state, in every state and with every operand. For an event in the state and with the
operands in which it occurs, that is the manual's, which describes no stop of the part. On an event that cannot occur in
the state held, and on operands that no event can have, the manual is silent: that such a command too answers a next
state, leaving the state as it is, is the model's choice (log entries 1, 28). The queue of waiting commands, which is the
model's own, is left as it is, and the straps are held from power-on reset on (R3, R185). -/
def Obligations.CommandsKeepQueueAndStraps : Prop :=
  ∀ (c : Instr) (s : State), ∃ t : State, exec c s = .next t ∧ t.pending = s.pending ∧
    ((∀ pins, c ≠ .powerOnReset pins) → t.width = s.width ∧ t.edgeFitted = s.edgeFitted)

/-- POWER_ON_RESET leaves every block at the values that the manual gives, with the straps latched and the homing of R75
started; the reset state has them too, for the model's choice of pins (log entry 4). That the steppers' counts are 0 is the
model's choice (log entry 38). -/
def Obligations.PowerOnResetLeavesItsValues : Prop :=
  (∀ (pins : PowerOnPins) (s : State), ∃ t : State,
    exec (.powerOnReset pins) s = .next t ∧ t.LinksPoweredOn ∧ t.MechanismPoweredOn pins) ∧
    State.reset.LinksPoweredOn ∧ State.reset.MechanismPoweredOn PowerOnPins.standard

/-- The reset state meets every invariant. -/
def Obligations.ResetStateIsSound : Prop :=
  State.reset.Bounded ∧ State.reset.FormSound ∧ State.reset.OneMotion ∧ State.reset.StoreSound ∧ State.reset.GrantSound

/-- What an event brings with it leaves the carriage, the Sequencer, the tally units, the sequence numbers and the
receivers as they are, makes no paper motion, and adds notices behind those held or marks them LOST. With nothing to
plan or grant it only judges the timers. Whatever pass of the line is due, a main, repair or substitution pass or a half,
is planned with both gates open, and passed over when it takes no dots; with a gate closed it waits (R42, R44, R121; the
plan itself is that of `PlanCompletesAndDwells`). What one step makes is followed by the rest of the event (the bound of
1 024 steps in one event is log entry 30). On an IDLE engine the selected head that passes the paper check becomes GRANTED
and its work is opened: a line with its result zeroed, its clipped dots and the Job hold, and its return, its wait at a
gate or its plan; a coil test with its first pin; a motion entry with its return, its first move, or its completion
without motion. A head that does not pass brings the halt and stays QUEUED, and a LOAD is granted in a paper halt and
ends it (R5, R40, R102, R103, R152 to R159, R165, R167 to R169, R171, R175). That a line with no strikable dots too waits
for the gates, where R40 and R44 send it straight on, is log entry 15 (deduced: whether a pass takes dots is judged at its
plan time). Which MOVE DONE carries no distance is log entry 19. A plan and a coil test before the first supply conversion
take a free value (log entry 7) and are not stated here. The change of path is that of `PaperStepsStallAndRetry`. -/
def Obligations.SettleLeavesTheRest : Prop :=
  (∀ s : State,
    s.settle.width = s.width ∧ s.settle.edgeFitted = s.edgeFitted ∧ s.settle.car = s.car ∧ s.settle.sequ = s.sequ ∧
    s.settle.tally = s.tally ∧ s.settle.acceptCount = s.acceptCount ∧ s.settle.pending = s.pending ∧
    s.settle.drive.state = s.drive.state ∧ s.settle.drive.move = s.drive.move ∧ s.settle.steppers = s.steppers ∧
    s.settle.form.odometer = s.form.odometer ∧ s.settle.form.form = s.form.form ∧
    s.settle.form.forwardMark = s.form.forwardMark ∧ s.settle.heat.supply = s.heat.supply ∧
    s.settle.heat.thermal = s.heat.thermal ∧ s.settle.arb.head = s.arb.head ∧
    ∀ l : Link, (s.settle.store.get l).nextSeq = (s.store.get l).nextSeq ∧
      (s.settle.port.get l).rx = (s.port.get l).rx ∧ (s.settle.port.get l).selLow = (s.port.get l).selLow ∧
      (s.settle.port.get l).response = (s.port.get l).response ∧ (s.settle.port.get l).built = (s.port.get l).built ∧
      (∃ more, (s.settle.port.get l).notices = (s.port.get l).notices ++ more) ∧
      ((s.port.get l).lost = true → (s.settle.port.get l).lost = true)) ∧
  (∀ s : State, s.settleOnce = none → s.settle = s.judgeTimers) ∧
  (∀ (s t : State) (n : Nat), s.settleOnce = some t → s.settle = (t.settleLoop 1023).judgeTimers ∧
    s.settleLoop (n + 1) = t.settleLoop n ∧ (t.settleOnce = none → s.settle = t.judgeTimers)) ∧
  (∀ (s : State) (c : LineContext) (p : PassId), s.line = some c → c.stage = .planDue p →
    (s.heat.thermal ≠ .limit → s.heat.lowSupply = false →
      s.settleOnce = some (s.planNow p) ∧
      (∀ u, s.planPass p s.planPosition = (u, none) → s.settleOnce = some (u.afterPass p)) ∧
      (∀ u q, s.planPass p s.planPosition = (u, some q) → s.settleOnce = some (u.setStage (.planned q)) ∧
        (s.arb.granted ≠ none → s.settle = (u.setStage (.planned q)).judgeTimers))) ∧
    (s.heat.thermal = .limit ∨ s.heat.lowSupply = true → s.arb.granted ≠ none → s.settle = s.judgeTimers)) ∧
  (∀ (s : State) (l : Link) (e : Entry) (es : List Entry) (g : LineResult → State) (move : MotionKind → MoveKind → State)
      (done : State → MotionKind → MoveOutcome → Option NotMadeReason → State) (inside away : Prop),
    s.isIdle = true → s.line = none → s.drive.run = none → s.test = none → s.select = some l →
    (s.store.get l).queue = e :: es → s.judgePaper e.record = .grant →
    (∀ r, g r = { s with
      store := s.store.set l { s.store.get l with queue := { e with state := .granted, result := r } :: es }
      arb := { s.arb with granted := some ⟨l, e.seq⟩, autoTimer := none } }) →
    (∀ k m, move k m = { g e.result with
      drive := { s.drive with
        run := some ⟨l, e.seq, k, 0, 0, 0, 0, false⟩, due := some ⟨.entry l e.seq, m⟩ } }) →
    (∀ x k o reason, done x k o reason = (x.post l (.moveDone l e.seq k o reason
      (match k with | .load => none | .park => none | .path _ => none | _ => some 0) 0 0 0 x.form.form x.form.offset
      x.form.paper x.form.tear x.form.path x.form.trusted)).completeEntry l) →
    (inside ↔ s.form.paper = .present ∨ ∃ d, s.form.paper = .tail d) →
    (away ↔ s.form.paper = .none ∨ s.form.paper = .parked) →
    (∀ (f : LineFields) (c : LineContext) (n : Nat) (v : LineStage → State), e.record = .line f → n = clippedCount s.width f →
      c = ⟨l, .returning, 0, strikableDots s.width f, [], [], [], none, false, false⟩ →
      (∀ st, v st = { g ⟨n, 0, n != 0, false, false, false, false, false⟩ with
        line := some { c with stage := st }
        arb := { s.arb with granted := some ⟨l, e.seq⟩, autoTimer := none, hold := s.arb.hold || (l == .job) } }) →
      (s.form.tear = .atTear → s.settle = { v .returning with drive := { s.drive with due := some ⟨.line, .back⟩ } }) ∧
      (s.form.tear = .atPrint → s.heat.thermal = .limit ∨ s.heat.lowSupply = true →
        s.settle = v (.planDue (.main .whole))) ∧
      (∀ (i : Fin 2) (x : Nat) (ps : List Proto), s.form.tear = .atPrint → s.heat.thermal ≠ .limit →
        s.heat.lowSupply = false → s.heat.supply = some x → s.lists[i.val] = .free → (i = 1 → s.lists[0] ≠ .free) →
        ps = protosOf f (.main .whole) (dotsInRows (~~~s.failedPins) c.unstruck) → ps ≠ [] → ps.length ≤ 5120 →
        s.settle = { v (.planned (.main .whole)) with
          lists := s.lists.set i.val (.building (makePlan
            ⟨s.width, s.heat.thermal, x, s.arb.head.gap, s.arb.head.trim, s.arb.head.uni, s.car.counter⟩ f (.main .whole)
            none ps))
          dwell := if s.heat.thermal = .hot then .waiting else .none })) ∧
    (∀ (pin : Option Pin) (p : Pin) (rest : List Pin), e.record = .motion (.coilTest pin) →
      (pin = some p ∧ rest = []) ∨ (pin = none ∧ p = 0 ∧ rest = (List.finRange 18).tail) →
      (s.channel p ≠ .ready → s.settle = { g e.result with test := some ⟨e.seq, rest, some p, .waiting, 0⟩ }) ∧
      (∀ x, s.channel p = .ready → s.heat.thermal ≠ .limit → s.heat.lowSupply = false → s.heat.supply = some x →
        s.settle = { g e.result with
          channels := s.channels.set p.val (.drive 600 true)
          heat := { s.heat with acc := s.heat.acc.set p.val (min 65535 (s.heatOf p + 60)) }
          test := some ⟨e.seq, rest, some p, .pulse 0, x⟩ })) ∧
    (∀ k, e.record = .motion k → s.form.tear = .atTear →
      (∃ n, k = .feed n ∨ k = .reverse n) ∨ k = .vtab ∨ k = .formfeed ∨ (k = .load ∧ ∃ d, s.form.paper = .tail d) ∨
        (k = .path .tractor ∧ s.form.path = .sheet ∧ inside) →
      s.settle = move k .back) ∧
    (∀ k m, e.record = .motion k → s.form.tear = .atPrint ∨ k = .park ∨ k = .path .sheet ∨ (k = .load ∧ away) →
      (inside ∧ ((∃ n, k = .feed n ∧ m = .feed n) ∨ (k = .vtab ∧ m = .vtab) ∨ (k = .formfeed ∧ m = .formfeed) ∨
        (∃ n, s.form.path = .tractor ∧ k = .reverse n ∧ m = .reverse n) ∨
        (s.form.path = .tractor ∧ (k = .park ∨ k = .path .sheet) ∧ m = .park) ∨
        (s.form.path = .sheet ∧ k = .path .tractor ∧ m = .eject))) ∨
      (s.form.path = .tractor ∧ s.form.paper = .present ∧ k = .tear ∧
        m = (if s.form.offset = 0 then .tearAdvance else .tearFeed)) ∨
      (k = .load ∧ ((away ∧ m = .load) ∨ ((∃ d, s.form.paper = .tail d) ∧ m = .eject))) →
      s.settle = move k m) ∧
    (∀ (x : State) k o reason, e.record = .motion k → es = [] → (∀ j, j ≠ l → (s.store.get j).queue = []) →
      (x = g e.result ∧ s.form.tear = .atPrint ∧ o = .notMade ∧ reason = some .path ∧ s.form.path = .sheet ∧
        ∃ n, k = .reverse n) ∨
      (x = g e.result ∧ o = .notMade ∧ reason = some .path ∧ s.form.path = .sheet ∧ (k = .tear ∨ k = .park)) ∨
      (x = g e.result ∧ s.form.tear = .atPrint ∧ o = .notMade ∧ reason = some .paper ∧ away ∧
        ((∃ n, k = .feed n ∨ (s.form.path = .tractor ∧ k = .reverse n)) ∨ k = .vtab ∨ k = .formfeed)) ∨
      (x = g e.result ∧ o = .notMade ∧ reason = some .paper ∧ s.form.path = .tractor ∧ s.form.paper ≠ .present ∧ k = .tear) ∨
      (x = g e.result ∧ o = .notMade ∧ reason = some .state ∧ s.form.paper = .present ∧ k = .load) ∨
      (x = g e.result ∧ o = .done ∧ reason = none ∧ ((s.form.path = .tractor ∧ s.form.paper = .present ∧
        s.form.tear = .atTear ∧ k = .tear) ∨ (s.form.path = .tractor ∧ away ∧ k = .park) ∨ k = .path s.form.path)) ∨
      (∃ p, x = (g e.result).changePath p ∧ o = .done ∧ reason = none ∧ away ∧ p ≠ s.form.path ∧ k = .path p) →
      s.settle = (done x k o reason).judgeTimers)) ∧
  (∀ (s : State) (l : Link) (e : Entry), s.isIdle = true → s.line = none → s.select = some l → s.headEntry l = some e →
    (∀ d, s.headEntry .console = some d → d.record ≠ .motion .load) →
    (s.judgePaper e.record = .noPaper →
      s.settle = ({ s with arb := { s.arb with halt := { s.arb.halt with noPaper := true } } }).judgeTimers) ∧
    (s.judgePaper e.record = .paperOut →
      s.settle = ({ s with arb := { s.arb with halt := { s.arb.halt with paperOut := true } } }).judgeTimers)) ∧
  (∀ (s : State) (e : Entry) (es : List Entry) (m : MoveKind), s.arb.granted = none → s.line = none →
    s.arb.halt.jam = false → s.arb.halt.carriage = false → s.arb.halt.paperOut = true ∨ s.arb.halt.noPaper = true →
    s.store.console.queue = e :: es → e.state = .queued → e.record = .motion .load →
    (s.form.paper = .none ∨ s.form.paper = .parked) ∧ m = .load ∨
      (∃ d, s.form.paper = .tail d) ∧ m = (if s.form.tear = .atTear then .back else .eject) →
    s.settle = { s with
      store := { s.store with console := { s.store.console with queue := { e with state := .granted } :: es } }
      arb := { s.arb with halt := ⟨false, false, false, false⟩, granted := some ⟨.console, e.seq⟩, autoTimer := none }
      drive := { s.drive with
        run := some ⟨.console, e.seq, .load, 0, 0, 0, 0, false⟩, due := some ⟨.entry .console e.seq, m⟩ } })

/-! ## Link ports (chapter 11) -/

/-- SELECT_FALLS with SEL high: the receiver leaves IDLE for HEADER, and the first byte position carries the first byte
of the pending response, or 0xFF with none pending. While SEL is low SDO carries the pending response byte by byte, one to
each byte position: kind, tag, status, the length with its low byte first, the payload; then, or with none pending, 0xFF.
While SEL is high it carries nothing (R180, R181, R191). -/
def Obligations.SelectFallsOpensAPeriod : Prop :=
  (∀ (l : Link) (s : State), (s.port.get l).selLow = false →
    ∃ q : LinkPort,
      exec (.selectFalls l) s = .next { s with port := s.port.set l q } ∧
      q = { s.port.get l with selLow := true, rx := .header [], position := 0, built := none } ∧
      (s.port.get l).sdo = none ∧
      q.sdo = some (match (s.port.get l).response with
        | none => 0xFF
        | some r => r.kindByte)) ∧
  (∀ p : LinkPort, (p.selLow = false → p.sdo = none) ∧ (p.selLow = true → p.response = none → p.sdo = some 0xFF) ∧
    (∀ r, p.selLow = true → p.response = some r →
      (p.position = 0 → p.sdo = some r.kindByte) ∧ (p.position = 1 → p.sdo = some r.tag) ∧
      (p.position = 2 → p.sdo = some (match r.status with
        | .ok => 0 | .noRoom => 1 | .badLine => 2 | .malformed => 3 | .notAllowed => 4 | .locked => 5)) ∧
      (p.position = 3 → p.sdo = some (BitVec.ofNat 8 r.payload.length)) ∧
      (p.position = 4 → p.sdo = some (BitVec.ofNat 8 (r.payload.length / 256))) ∧
      (∀ i b, r.payload[i]? = some b → p.position = 5 + i → p.sdo = some b) ∧
      (5 + r.payload.length ≤ p.position → p.sdo = some 0xFF)))

/-- SELECT_RISES with SEL low: the receiver returns to IDLE; the pending response is that of a MALFORMED or truncated
frame, or the one built in the period, or stays as it was after a period that carried no byte (R181, R182). The count
in a MALFORMED payload is that of log entry 12. -/
def Obligations.SelectRisesFillsTheSlot : Prop :=
  ∀ (l : Link) (s : State), (s.port.get l).selLow = true → ∃ q : LinkPort,
    exec (.selectRises l) s = .next { s with port := s.port.set l q } ∧
    (∃ r, q = { s.port.get l with selLow := false, rx := .idle, position := 0, built := none, response := r }) ∧
    ((s.port.get l).rx = .header [] → (s.port.get l).built = none → q.response = (s.port.get l).response) ∧
    (∀ k rest, (s.port.get l).rx = .header (k :: rest) →
      q.response = some ⟨k ||| 0x80, rest.head?.getD 0, .malformed,
        [2, BitVec.ofNat 8 (rest.length + 1), BitVec.ofNat 8 ((rest.length + 1) / 256)]⟩) ∧
    (∀ k tag len got, (s.port.get l).rx = .payload k tag len got →
      q.response = some ⟨k.code ||| 0x80, tag, .malformed,
        [2, BitVec.ofNat 8 (4 + got.length), BitVec.ofNat 8 ((4 + got.length) / 256)]⟩) ∧
    (∀ b, (s.port.get l).rx = .discard (some b) →
      q.response = some ⟨b.kindByte ||| 0x80, b.tag.getD 0, .malformed,
        [BitVec.ofNat 8 b.cause.code, BitVec.ofNat 8 b.received, BitVec.ofNat 8 (b.received / 256)]⟩) ∧
    (∀ r, (s.port.get l).rx = .discard none → (s.port.get l).built = some r → q.response = some r)

/-- BYTE_ARRIVES of a byte that completes no frame: the receiver moves on in HEADER, to PAYLOAD or to DISCARD, where the tag
of a bad frame is still recorded, and the byte position, whose byte on SDO is that of `SelectFallsOpensAPeriod`, by one (R180,
R181). The number of bytes that a bad frame is said
to have received (1, 4, 14) is log entry 12. The code of each request kind, its payload length, fixed or variable, and which
lengths are good (R181, R191). -/
def Obligations.ByteMovesTheReceiver : Prop :=
  [ReqKind.noOp, .putLine, .putMotion, .setForm, .setHead, .readState, .readPosition, .takeNotice, .cancel, .tallySet,
    .tallyArm, .tallyMask, .tallyClear, .clear, .engineReset, .linkReset].map (fun k => (k.code.toNat, k.fixedLength)) =
    [(0, some 0), (1, none), (2, none), (3, none), (4, some 7), (5, some 0), (6, some 0), (7, some 1), (8, some 0),
      (9, some 4), (10, some 1), (11, some 2), (12, some 1), (13, some 0), (14, some 0), (15, some 0)] ∧
  (∀ (k : ReqKind) (n : Nat), lengthGood k n = true ↔ n ≤ 16384 ∧ (∀ m, k.fixedLength = some m → n = m) ∧
    (k = .setForm → ∃ j, j ≤ 16 ∧ n = 10 + 2 * j)) ∧
  ∀ (l : Link) (s : State), (s.port.get l).selLow = true → ∃ go : RxState → State,
    (∀ r, go r = { s with
      port := s.port.set l { s.port.get l with rx := r, position := (s.port.get l).position + 1 } }) ∧
    (∀ b : Byte, (s.port.get l).rx = .header [] → 16 ≤ b.toNat →
      exec (.byteArrives l b) s = .next (go (.discard (some ⟨b, none, .unknownKind, 1⟩)))) ∧
    (∀ b : Byte, (s.port.get l).rx = .header [] → b.toNat < 16 →
      exec (.byteArrives l b) s = .next (go (.header [b]))) ∧
    (∀ k b : Byte, (s.port.get l).rx = .header [k] → exec (.byteArrives l b) s = .next (go (.header [k, b]))) ∧
    (∀ k tag b : Byte, (s.port.get l).rx = .header [k, tag] →
      exec (.byteArrives l b) s = .next (go (.header [k, tag, b]))) ∧
    (∀ (k : ReqKind) (tag lo hi : Byte), (s.port.get l).rx = .header [k.code, tag, lo] →
      (16384 < lo.toNat + 256 * hi.toNat ∨ (∃ n, k.fixedLength = some n ∧ lo.toNat + 256 * hi.toNat ≠ n) ∨
        (k = .setForm ∧ ∀ n, n ≤ 16 → lo.toNat + 256 * hi.toNat ≠ 10 + 2 * n)) →
      exec (.byteArrives l hi) s = .next (go (.discard (some ⟨k.code, some tag, .length, 4⟩)))) ∧
    (∀ (k : ReqKind) (tag lo hi : Byte), (s.port.get l).rx = .header [k.code, tag, lo] →
      lengthGood k (lo.toNat + 256 * hi.toNat) = true → lo.toNat + 256 * hi.toNat ≠ 0 →
      exec (.byteArrives l hi) s = .next (go (.payload k tag (lo.toNat + 256 * hi.toNat) []))) ∧
    (∀ (tag : Byte) (n : Nat) (got : List Byte) (b : Byte), (s.port.get l).rx = .payload .setForm tag n got →
      got.length = 9 → n ≠ 10 + 2 * b.toNat →
      exec (.byteArrives l b) s = .next (go (.discard (some ⟨0x03, some tag, .length, 14⟩)))) ∧
    (∀ (k : ReqKind) (tag : Byte) (n : Nat) (got : List Byte) (b : Byte), (s.port.get l).rx = .payload k tag n got →
      (k = .setForm → got.length ≠ 9) → got.length + 1 < n →
      exec (.byteArrives l b) s = .next (go (.payload k tag n (got ++ [b])))) ∧
    (∀ b : Byte, (s.port.get l).rx = .discard none → exec (.byteArrives l b) s = .next (go (.discard none))) ∧
    (∀ (bad : BadFrame) (b : Byte), (s.port.get l).rx = .discard (some bad) →
      (bad.tag = none → exec (.byteArrives l b) s = .next (go (.discard (some { bad with tag := some b })))) ∧
      (∀ tag, bad.tag = some tag → exec (.byteArrives l b) s = .next (go (.discard (some bad)))))

/-- A request command is its bytes: the byte that completes a frame does what the request's command does with that byte,
and a byte before it may be sent as a BYTE_ARRIVES of its own (R181; the model's form of requests, log entry 3). -/
def Obligations.RequestIsItsBytes : Prop :=
  (∀ (l : Link) (b : Byte) (s : State) (f : Frame), (s.port.get l).selLow = true →
    (rxByte (s.port.get l).rx b).taken = some f →
    exec (.byteArrives l b) s = exec (requestCommand f.kind l [b]) s) ∧
  (∀ (l : Link) (b : Byte) (bs : List Byte) (s t : State) (f : Frame),
    (rxByte (s.port.get l).rx b).taken = none → s.frameOf l (b :: bs) = some f →
    exec (.byteArrives l b) s = .next t →
    exec (requestCommand f.kind l (b :: bs)) s = exec (requestCommand f.kind l bs) t)

/-- The receiver takes every frame whose length its kind allows, at its last byte and not before, and reads the rest of
the period as DISCARD (R181, R191). -/
def Obligations.ReceiverTakesWholeFrame : Prop :=
  ∀ (k : ReqKind) (tag : Byte) (payload : List Byte), lengthGood k payload.length = true →
    (k = .setForm → payload.length = 10 + 2 * byteAt payload 9) →
    rxRun (.header []) (requestBytes k tag payload) = ⟨.discard none, some ⟨k, tag, payload⟩⟩ ∧
    ∀ n, n < (requestBytes k tag payload).length →
      (rxRun (.header []) ((requestBytes k tag payload).take n)).taken = none

/-- NO-OP, READ STATE and READ POSITION are answered OK, with nothing, the state report and the position snapshot of the
instant in which they are taken, and change nothing but their link's port. TAKE NOTICE removes the oldest notices, as many
as its count clamped to 1 to 8 asks for, clears LOST, and answers their number, LOST as read, the number left, and the
notices. Every field of the snapshot and of the state report is named with the bytes in which it stands, and with them the
tally units, the source of a move, and the engine state and its sub-state (R39, R101, R125, R143, R145, R163, R177, R182,
R185, R187). The numbers, the codes and the notices in bytes are those of `PostedNoticeJoinsOrIsLost`. The layout of the
reports is log entry 13; that the engine shows PASS also while the plan of a second half is only being built is log entry 43,
and that the wait sub-state is shown also in HALTED is log entry 47. -/
def Obligations.ReadsAndNoticesAreAnswered : Prop :=
  (∀ (l : Link) (bytes : List Byte) (s : State) (f : Frame), s.frameOf l bytes = some f →
    (f.kind = .noOp → exec (.noOp l bytes) s = .next ((s.heard l bytes).answered l ⟨0x80, f.tag, .ok, []⟩)) ∧
    (f.kind = .readState →
      exec (.readState l bytes) s = .next ((s.heard l bytes).answered l ⟨0x85, f.tag, .ok, s.stateReport⟩)) ∧
    (f.kind = .readPosition →
      exec (.readPosition l bytes) s = .next ((s.heard l bytes).answered l ⟨0x86, f.tag, .ok, s.positionReport⟩)) ∧
    (∀ b, f.kind = .takeNotice → f.payload = [b] → ∃ n : Nat, n = max 1 (min 8 b.toNat) ∧
      exec (.takeNotice l bytes) s = .next
        (((s.heard l bytes).modifyPort l (fun p => { p with notices := p.notices.drop n, lost := false })).answered l
          ⟨0x87, f.tag, .ok,
            [BitVec.ofNat 8 (min n (s.port.get l).notices.length), if (s.port.get l).lost then 1 else 0,
              BitVec.ofNat 8 ((s.port.get l).notices.length - n)] ++
            (((s.port.get l).notices.take n).map Notice.bytes).flatten⟩))) ∧
  (∀ (s : State) (r : List Byte) (k : Nat), s.FormSound → r = s.positionReport → k = 36 + 2 * s.map.stops.length →
    r.length = k + 4 ∧ wordAt r 0 = s.form.form.toNat ∧ wordAt r 2 = s.form.offset ∧ wordAt r 4 = s.map.len ∧
    wordAt r 6 = s.map.programmed ∧
    (match s.map.learned with | none => byteAt r 8 = 0 | some n => byteAt r 8 = 1 ∧ wordAt r 9 = n) ∧
    byteAt r 11 = s.form.edge.code ∧
    (match s.form.candidate with | none => byteAt r 12 = 0 | some n => byteAt r 12 = 1 ∧ wordAt r 13 = n) ∧
    (match s.form.lastCorrection with
      | none => byteAt r 15 = 0
      | some d => byteAt r 15 = 1 ∧ wordAt r 16 = (BitVec.ofInt 16 d).toNat) ∧
    byteAt r 18 = (if s.form.pendingCorrection.isSome then 1 else 0) ∧
    wordAt r 19 + 65536 * wordAt r 21 = s.form.odometer.toNat ∧ byteAt r 23 = s.form.path.code ∧
    byteAt r 24 = s.form.paper.code ∧
    (match s.form.paper with
      | .tail d => byteAt r 25 = 1 ∧ wordAt r 26 = (BitVec.ofInt 16 d).toNat
      | _ => byteAt r 25 = 0) ∧
    byteAt r 28 = s.form.tear.code ∧ byteAt r 29 = (if s.form.trusted then 1 else 0) ∧ wordAt r 30 = s.map.tof ∧
    byteAt r 32 = (BitVec.ofInt 8 s.map.trim).toNat ∧ wordAt r 33 = s.map.skip ∧ byteAt r 35 = s.map.stops.length ∧
    (∀ i x, s.map.stops[i]? = some x → wordAt r (36 + 2 * i) = x) ∧ byteAt r k = (if s.map.lock then 1 else 0) ∧
    wordAt r (k + 1) = (BitVec.ofInt 16 s.car.counter).toNat ∧ byteAt r (k + 3) = s.car.state.name.code) ∧
  (∀ (s : State) (r : List Byte) (at_ : Nat → Nat → List Byte), r = s.stateReport → (∀ a n, at_ a n = (r.drop a).take n) →
    r.length = 260 ∧ at_ 0 2 = u8 (match s.width with | .narrow => 0 | .wide => 1) ++ flagByte s.edgeFitted ∧
    at_ 2 4 = u8 s.engine.code ++ optional 1 (s.waitState.map (fun w => u8 w.code)) ++
      u8 (flagSet [s.arb.halt.jam, s.arb.halt.paperOut, s.arb.halt.noPaper, s.arb.halt.carriage]) ∧
    (s.arb.granted = none → at_ 6 5 = [0, 0, 0, 0, 0]) ∧
    (∀ g e, s.arb.granted = some g → s.headEntry g.link = some e →
      at_ 6 5 = [1] ++ u8 (linkCode g.link) ++ u16 e.seq.toNat ++ u8 e.record.code) ∧
    at_ 11 1 = [if s.arb.hold then 0 else 1] ∧
    at_ 12 4 = optional 1 (s.arb.idleTimer.map (fun n => u8 ((n + 999999) / 1000000))) ++
      optional 1 (s.arb.autoTimer.map (fun n => u8 ((n + 999999) / 1000000))) ∧
    at_ 16 6 = u8 s.arb.head.gap ++ i8 s.arb.head.trim ++ flagByte s.arb.head.uni ++ flagByte s.arb.head.substitution ++
      u8 s.arb.head.autoTear ++ u8 s.arb.head.idleRelease ∧
    at_ 22 5 = u16 (freeBlocks s.store) ++ u8 (freeDescs s.store) ++ u8 (sharedFreeBlocks s.store) ++
      u8 (sharedFreeDescs s.store) ∧
    (∀ l, at_ (if l = .job then 27 else 42) 15 = u16 ((s.store.get l).queue.map (·.blocks)).sum ++
      u8 (s.store.get l).queue.length ++ u16 (availableBlocks s.store l) ++ u8 (availableDescs s.store l) ++
      flagByte (s.store.get l).flow ++ u8 (s.store.get l).queue.length ++ u16 (s.store.get l).nextSeq.toNat ++
      optional 4 ((s.store.get l).queue.head?.map (fun e => u16 e.seq.toNat ++ u8 e.record.code ++ u8 e.state.code))) ∧
    (∀ l, at_ (if l = .job then 57 else 60) 3 = u8 (s.port.get l).notices.length ++ flagByte (s.port.get l).lost ++
      flagByte (!(s.port.get l).notices.isEmpty)) ∧
    (∀ p : Pin, at_ (63 + 6 * p.val) 6 = u8 (s.pinRecord p).health.code ++ u8 (s.pinRecord p).faults ++
      u8 (s.pinRecord p).lastCoil.code ++ optional 2 ((s.pinRecord p).rise.map u16)) ∧
    (∀ p : Pin, at_ (171 + 2 * p.val) 2 = u16 (s.heatOf p)) ∧
    at_ 207 6 = optional 2 (s.heat.temperature.map i16) ++ optional 2 (s.heat.supply.map u16) ∧
    at_ 213 4 = u8 s.heat.heatState.rank ++ u8 s.heat.tempState.rank ++ u8 s.heat.thermal.rank ++
      flagByte s.heat.lowSupply ∧
    at_ 217 2 = optional 1 (s.waitState.map (fun w => u8 w.code)) ∧
    (s.waitState ≠ some .dwell → at_ 219 2 = [0, 0]) ∧
    (∀ n, s.waitState = some .dwell → s.dwell = .running n → at_ 219 2 = [1] ++ u8 ((n + 9999) / 10000)) ∧
    at_ 221 3 = u8 s.car.state.name.code ++ i16 s.car.counter ∧ at_ 224 1 = u8 s.drive.state.code ∧
    at_ 225 11 = optional 10 (s.drive.move.map (fun m =>
      m.source.bytes ++ u8 m.kind.code ++ u16 m.distance ++ i16 m.net ++ u8 m.stalls)) ∧
    (∀ i : Fin 2, at_ (236 + 12 * i.val) 12 = (s.tallyUnit i).bytes)) ∧
  (∀ (t : TallyUnit) (b : List Byte), b = t.bytes → b.length = 12 ∧
    byteAt b 0 = (match t.mode with | .off => 0 | .edge => 1 | .count => 2) ∧ wordAt b 1 = t.setValue.toNat ∧
    wordAt b 3 = t.armed.toNat ∧ wordAt b 5 = t.present.toNat ∧ byteAt b 7 = (if t.unmasked then 1 else 0) ∧
    byteAt b 8 = (if t.latch then 1 else 0) ∧ byteAt b 9 = (match t.qual with | .low => 0 | .rising _ => 1 | .high => 2) ∧
    (∀ n, t.qual = .rising n → n < 65536 → wordAt b 10 = n) ∧ (t.qual = .low ∨ t.qual = .high → wordAt b 10 = 0)) ∧
  (∀ (l : Link) (q : SeqNo), (MoveSource.entry l q).bytes = [0, if l = .job then 0 else 1] ++ u16 q.toNat) ∧
  MoveSource.line.bytes = [1, 0, 0, 0] ∧ MoveSource.auto.bytes = [2, 0, 0, 0] ∧
  (∀ (s : State) (auto : Prop), (auto ↔ (∃ m, s.drive.move = some m ∧ m.source = .auto) ∨
      (∃ d, s.drive.due = some d ∧ d.source = .auto)) →
    (s.arb.halt ≠ ⟨false, false, false, false⟩ → s.engine = .halted) ∧
    (s.arb.halt = ⟨false, false, false, false⟩ →
      (s.arb.granted = none → auto → s.engine = .move) ∧
      (s.arb.granted = none → ¬ auto → s.engine = (if s.car.state = .stopped then .idle else .unready)) ∧
      (s.arb.granted ≠ none →
        (∀ c, s.line = some c → s.engine = (match c.stage with
          | .planDue p => if p = .main .odd ∨ p = .up .odd ∨ p = .down .odd then .pass else .planning
          | .planned p => if p = .main .odd ∨ p = .up .odd ∨ p = .down .odd then .pass else .planning
          | .striking _ => .pass
          | _ => .move)) ∧
        (s.line = none → s.engine = (if s.test.isSome then .coilTest else .move)))) ∧
    (s.line = none → s.waitState = none) ∧
    (∀ c, s.line = some c →
      (∀ p, c.stage = .planDue p → s.waitState = (if s.heat.thermal = .limit then some .waitThermal
        else if s.heat.lowSupply then some .waitSupply else none)) ∧
      ((∀ p, c.stage ≠ .planDue p) → (s.waitState = some .dwell ↔ ∃ n, s.dwell = .running n) ∧
        (s.waitState = none ↔ ∀ n, s.dwell ≠ .running n))))

/-- A posted notice joins the tail of the queue, or, with 16 held, is dropped and marks LOST; both links are judged
independently, and ATTN is high exactly while a notice is held. How numbers, flags and optional fields are written, the code of
every state, class and cause, and each of the sixteen notices in bytes: its kind code, the length of its body, and the fields of
the rule that posts it (R21, R107, R118, R128, R141, R150, R154, R160, R173, R186, R188, R192). That LINE DONE begins with the link
and the sequence number, the order of its flags, the code of a flag and of a level, and the codes of a source of a move, of the
kinds of single move, of a line, of the carriage states, of a direction, of the outcome and reason of MOVE DONE, of a coil result,
of a release source and of a tally mode are log entry 13. -/
def Obligations.PostedNoticeJoinsOrIsLost : Prop :=
  (∀ (s : State) (n : Notice) (l : Link),
    ((s.port.get l).notices.length < 16 →
      ((s.post l n).port.get l) = { s.port.get l with notices := (s.port.get l).notices ++ [n] }) ∧
    (16 ≤ (s.port.get l).notices.length → ((s.post l n).port.get l) = { s.port.get l with lost := true }) ∧
    (∀ k, k ≠ l → (s.post l n).port.get k = s.port.get k) ∧
    (∀ k, (s.postBoth n).port.get k = (s.post k n).port.get k) ∧
    ((s.port.get l).attn = true ↔ (s.port.get l).notices ≠ [])) ∧
  ((∀ n, u8 n = [BitVec.ofNat 8 n]) ∧ (∀ n, n < 65536 → (u16 n).length = 2 ∧ wordAt (u16 n) 0 = n) ∧
    (∀ n, n < 4294967296 → (u32 n).length = 4 ∧ wordAt (u32 n) 0 + 65536 * wordAt (u32 n) 2 = n) ∧
    (∀ x : Int, -128 ≤ x → x ≤ 127 → ∃ b : Byte, i8 x = [b] ∧ b.toInt = x) ∧
    (∀ x : Int, -32768 ≤ x → x ≤ 32767 → (i16 x).length = 2 ∧ (BitVec.ofNat 16 (wordAt (i16 x) 0)).toInt = x) ∧
    flagByte true = [1] ∧ flagByte false = [0] ∧ (∀ (bs : List Bool) (i : Nat), (flagSet bs).testBit i = bs.getD i false) ∧
    (∀ w, optional w none = List.replicate (w + 1) 0) ∧ (∀ w bs, optional w (some bs) = [1] ++ bs)) ∧
  ([Link.job, .console].map linkCode = [0, 1] ∧ [EntryState.queued, .held, .granted].map EntryState.code = [0, 1, 2] ∧
    (∀ n, [MotionKind.feed n, .reverse n, .vtab, .formfeed, .tear, .load, .park].map MotionKind.code = [1, 2, 3, 4, 5, 6, 7]) ∧
    (∀ p, (MotionKind.path p).code = 8) ∧ (∀ p, (MotionKind.coilTest p).code = 9) ∧
    (∀ f, (Record.line f).code = 0) ∧ (∀ k, (Record.motion k).code = k.code) ∧
    [Level.cool, .warm, .hot, .limit].map Level.code = [0, 1, 2, 3] ∧
    [Level.cool, .warm, .hot, .limit].map Level.rank = [0, 1, 2, 3] ∧
    [Health.good, .suspect, .failed].map Health.code = [0, 1, 2] ∧
    [LastCoil.none, .normal, .short, .openCoil, .invalid].map LastCoil.code = [0, 1, 2, 3, 4] ∧
    (∀ t c, [CoilOutcome.normal t, .short t, .openCoil, .invalid c].map CoilOutcome.code = [1, 2, 3, 4]) ∧
    [InvalidCause.limit, .supply, .carriage, .cut].map InvalidCause.code = [0, 1, 2, 3] ∧
    [PinCause.short, .weak, .openCoil].map PinCause.code = [0, 1, 2] ∧
    [CarCause.encoder, .stall, .overrun, .noIndex].map CarCause.code = [0, 1, 2, 3] ∧
    [MalformedCause.unknownKind, .length, .truncated].map MalformedCause.code = [0, 1, 2] ∧
    (∀ h, [CarState.unhomed, .homing h, .stopped, .rampUp, .cruise, .rampDown, .fault].map (fun x => x.name.code) =
      [0, 1, 2, 3, 4, 5, 6]) ∧
    [MoveOutcome.done, .short, .tail, .notMade, .noPaper, .noEdge].map MoveOutcome.code = [0, 1, 2, 3, 4, 5] ∧
    [NotMadeReason.path, .paper, .state].map NotMadeReason.code = [0, 1, 2] ∧
    (∀ a d, [PaperState.none, .loading a, .present, .tail d, .parked].map PaperState.code = [0, 1, 2, 3, 4]) ∧
    [TearState.atPrint, .atTear].map TearState.code = [0, 1] ∧ [PaperPath.tractor, .sheet].map PaperPath.code = [0, 1] ∧
    [EdgeState.off, .seeking, .locked, .lost].map EdgeState.code = [0, 1, 2, 3] ∧
    [MoveDir.forward, .reverse].map MoveDir.code = [0, 1] ∧
    [ReleaseSource.edge, .count, .latch].map ReleaseSource.code = [0, 1, 2] ∧
    (∀ n, [MoveKind.back, .feed n, .reverse n, .vtab, .formfeed, .tearFeed, .tearAdvance, .load, .park, .eject, .subForward n,
      .subReverse n, .trailing n, .trailingReverse n].map MoveKind.code = List.range 14) ∧
    (∀ n, [DriveState.stopped, .stepping, .backoff n, .retryWait n].map DriveState.code = [0, 1, 2, 3]) ∧
    [EngineState.unready, .idle, .planning, .pass, .move, .coilTest, .halted].map EngineState.code = [0, 1, 2, 3, 4, 5, 6] ∧
    [WaitState.waitThermal, .waitSupply, .dwell].map WaitState.code = [0, 1, 2]) ∧
  (∀ (l : Link) (q : SeqNo) (form : BitVec 16) (off : Nat) (b at_ : List Byte), b = u8 (linkCode l) ++ u16 q.toNat →
    at_ = u16 form.toNat ++ u16 off →
    (∀ r, (Notice.lineDone l q r).bytes = [0x01, 12] ++ b ++ u32 r.clipped ++ u32 r.lost ++
      u8 (flagSet [r.clippedFlag, r.repaired, r.imperfect, r.substituted, r.degraded, r.short])) ∧
    (∀ k o reason d m back st paper tear path trusted,
      (Notice.moveDone l q k o reason d m back st form off paper tear path trusted).bytes = [0x02, 23] ++ b ++ u8 k.code ++
        u8 o.code ++ optional 1 (reason.map (fun x => u8 x.code)) ++ optional 2 (d.map u16) ++ i16 m ++ i16 back ++ u8 st ++
        at_ ++ u8 paper.code ++ u8 tear.code ++ u8 path.code ++ flagByte trusted) ∧
    (∀ n g, (Notice.cancelled n g).bytes = [0x03, 4] ++ u8 n ++ optional 2 (g.map (fun x => u16 x.toNat))) ∧
    (∀ (p : Pin) o supply health faults final, (Notice.coilResult q p o supply health faults final).bytes =
      [0x04, 14] ++ u16 q.toNat ++ u8 p.val ++ u8 o.code ++
        (match o with | .normal t => [1] ++ u16 t | .short t => [1] ++ u16 t | _ => [0, 0, 0]) ++
        (match o with | .invalid c => [1] ++ u8 c.code | _ => [0, 0]) ++ u16 supply ++ u8 health.code ++ u8 faults ++
        flagByte final) ∧
    (∀ n d trusted, (Notice.formBoundary form off n d trusted).bytes =
      [0x05, 8] ++ at_ ++ u16 n ++ u8 d.code ++ flagByte trusted) ∧
    (∀ d src, (Notice.tearPosition form off d src).bytes = [0x06, 10] ++ at_ ++ i16 d ++ src.bytes) ∧
    (∀ d, (Notice.paperOut form off d).bytes = [0x07, 6] ++ at_ ++ i16 d) ∧
    (∀ src k d m, (Notice.jam src k d m form off).bytes = [0x08, 13] ++ src.bytes ++ u8 k.code ++ u16 d ++ i16 m ++ at_) ∧
    (∀ (p : Pin) c, (Notice.pinFailed p c).bytes = [0x09, 2] ++ u8 p.val ++ u8 c.code) ∧
    (∀ now before h t n (p : Pin) reading, (Notice.thermal now before h t n p reading).bytes = [0x0A, 10] ++ u8 now.code ++
      u8 before.code ++ u8 h.code ++ u8 t.code ++ u16 n ++ u8 p.val ++ optional 2 (reading.map i16)) ∧
    (∀ f n, (Notice.lowSupply f n).bytes = [0x0B, 3] ++ flagByte f ++ u16 n) ∧
    (∀ n m k x, (Notice.formLength n m k x form off).bytes = [0x0C, 11] ++ u16 n ++ u16 m ++ u16 k ++ u8 x ++ at_) ∧
    (∀ n x, (Notice.edgeLost n x form off).bytes = [0x0D, 7] ++ u16 n ++ u8 x ++ at_) ∧
    Notice.engineReset.bytes = [0x0E, 0] ∧
    (∀ (i : Fin 2) src, (Notice.tallyRelease i l q src).bytes = [0x0F, 5] ++ u8 i.val ++ b ++ u8 src.code) ∧
    (∀ c n st, (Notice.carriageFault c n st).bytes = [0x10, 4] ++ u8 c.code ++ i16 n ++ u8 st.code))

/-! ## The Line Store (chapter 2) -/

/-- What is available to each link, what is free in the pool, in the table and in the shared region, and what FLOW becomes at a
re-evaluation (R25, R26, R27, R31). -/
def Obligations.AccountingAndFlow : Prop :=
  ∀ s : State,
    (∀ uj uc dj dc : Nat, uj = (s.store.job.queue.map (·.blocks)).sum → uc = (s.store.console.queue.map (·.blocks)).sum →
      dj = s.store.job.queue.length → dc = s.store.console.queue.length →
      availableBlocks s.store .job = (96 - min uj 96) + (240 - ((uj - 96) + (uc - 48))) ∧
      availableBlocks s.store .console = (48 - min uc 48) + (240 - ((uj - 96) + (uc - 48))) ∧
      availableDescs s.store .job = (16 - min dj 16) + (24 - ((dj - 16) + (dc - 8))) ∧
      availableDescs s.store .console = (8 - min dc 8) + (24 - ((dj - 16) + (dc - 8))) ∧
      freeBlocks s.store = 384 - (uj + uc) ∧ freeDescs s.store = 48 - (dj + dc) ∧
      sharedFreeBlocks s.store = 240 - ((uj - 96) + (uc - 48)) ∧ sharedFreeDescs s.store = 24 - ((dj - 16) + (dc - 8))) ∧
    (∀ l : Link,
      ((s.store.get l).flow = true → ((s.reflow.store.get l).flow = false ↔
        availableBlocks s.store l < 32 ∨ availableDescs s.store l < 2)) ∧
      ((s.store.get l).flow = false → ((s.reflow.store.get l).flow = true ↔
        64 ≤ availableBlocks s.store l ∧ 4 ≤ availableDescs s.store l)) ∧
      (s.reflow.store.get l).queue = (s.store.get l).queue ∧ (s.reflow.store.get l).nextSeq = (s.store.get l).nextSeq)

/-- An accepted record joins the tail of its link's queue with the link's next sequence number, which then rises by one,
wrapping; the other link's queue is untouched, and an accepted Job record stops the idle-release timer (R28, R30, R32,
R170). The acceptance stamp is the model's (log entry 11). -/
def Obligations.AcceptanceJoinsTheTail : Prop :=
  ∀ (s : State) (l : Link) (r : Record) (n : Nat) (st : EntryState),
    ((s.accept l r n st).store.get l).queue =
      (s.store.get l).queue ++ [⟨(s.store.get l).nextSeq, st, n, r, {}, s.acceptCount⟩] ∧
    ((s.accept l r n st).store.get l).nextSeq.toNat = ((s.store.get l).nextSeq.toNat + 1) % 65536 ∧
    (∀ k, k ≠ l → ((s.accept l r n st).store.get k).queue = (s.store.get k).queue ∧
      ((s.accept l r n st).store.get k).nextSeq = (s.store.get k).nextSeq) ∧
    (l = .job → (s.accept l r n st).arb = { s.arb with idleTimer := none }) ∧
    (l = .console → (s.accept l r n st).arb = s.arb) ∧
    { s.accept l r n st with store := s.store, arb := s.arb, acceptCount := s.acceptCount } = s

/-- PUT LINE that fails a check is answered BADLINE with the number of the lowest check of R23 that fails, and one that does
not fit NOROOM with the blocks needed and what is available; neither leaves a trace. One that passes and fits is accepted:
QUEUED, or HELD with a tally hold, and answered OK with its sequence number, its blocks, the stored values and what is
available after it. A pending latch of its input releases it at once with source LATCH (R18, R19, R23, R28, R33, R179). -/
def Obligations.PutLineAnswered : Prop :=
  (∀ (bs : List Byte) (n : Nat) (segs : List Segment) (fails : Nat → Prop), n = wordAt bs 6 →
    segs = (List.range n).map (fun i => (⟨wordAt bs (12 + 4 * i), wordAt bs (14 + 4 * i)⟩ : Segment)) →
    (fails 0 ↔ bs.length < 12 ∨ (1 ≤ n ∧ n ≤ 16 ∧ bs.length < 12 + 4 * n)) → (fails 1 ↔ n = 0 ∨ 16 < n) →
    (fails 2 ↔ ∃ g ∈ segs, g.count = 0 ∨ 4896 < g.count) →
    (fails 3 ↔ ∃ g ∈ segs, 4895 < g.start ∨ 4896 < g.start + g.count) →
    (fails 4 ↔ ¬ segs.Pairwise (fun a b => a.start + a.count ≤ b.start)) →
    (fails 5 ↔ bs.length ≠ 12 + 4 * n + 3 * (segs.map (·.count)).sum) →
    (fails 6 ↔ wordAt bs 0 ∉ [120, 144, 180, 240, 360]) →
    (fails 7 ↔ 2 < byteAt bs 8 ∨ 2 < byteAt bs 9 ∨ byteAt bs 11 ∉ [0, 1, 255]) →
    (fails 8 ↔ 153 < (segs.map (fun g => (g.count + 31) / 32)).sum) →
    (∀ k, lineCheck bs = some k → k ≤ 8 ∧ fails k ∧ ∀ j, j < k → ¬ fails j) ∧
    (lineCheck bs = none → ∀ k, k ≤ 8 → ¬ fails k)) ∧
  ∀ (l : Link) (bytes : List Byte) (s : State) (f : Frame), s.frameOf l bytes = some f → f.kind = .putLine →
    (∀ n, lineCheck f.payload = some n →
      exec (.putLine l bytes) s = .next ((s.heard l bytes).answered l ⟨0x81, f.tag, .badLine, u8 n⟩)) ∧
    (∀ n, lineCheck f.payload = none → n = blocksNeeded (segmentsOf f.payload (wordAt f.payload 6)) →
      availableBlocks s.store l < n ∨ availableDescs s.store l < 1 →
      exec (.putLine l bytes) s = .next ((s.heard l bytes).answered l ⟨0x81, f.tag, .noRoom,
        u8 n ++ u16 (availableBlocks s.store l) ++ u8 (availableDescs s.store l)⟩)) ∧
    (∀ (u v : State) (g : LineFields) (n : Nat), lineCheck f.payload = none →
      n = blocksNeeded (segmentsOf f.payload (wordAt f.payload 6)) →
      n ≤ availableBlocks s.store l → 1 ≤ availableDescs s.store l →
      g = lineFieldsOf l f.payload (freeBlockNumbers s.store) →
      u = (s.heard l bytes).accept l (.line g) n (if g.tallyHold = none then .queued else .held) →
      (g.tallyHold = none → v = u) →
      (∀ i, g.tallyHold = some i → (s.tallyUnit i).latchReady = false → v = u) →
      (∀ i, g.tallyHold = some i → (s.tallyUnit i).latchReady = true →
        v = (u.modifyTally i (fun t => { t with latch := false })).release i .latch) →
      exec (.putLine l bytes) s = .next ((v.answered l ⟨0x81, f.tag, .ok,
        u16 (s.store.get l).nextSeq.toNat ++ u8 n ++ u16 g.origin ++ u8 (flagSet [g.urgent, g.unidirAlign]) ++
          u16 g.trailingFeed ++ u16 (availableBlocks v.store l) ++ u8 (availableDescs v.store l)⟩).settle))

/-- PUT MOTION is answered NOTALLOWED for a Console kind from Job, BADLINE with check 9 for a payload that is no motion,
NOROOM without a descriptor, and else it is accepted QUEUED without
blocks; each kind is read with its parameter, clamped, and every other payload is no motion; the answer carries the stored
parameter of each kind (R22, R24, R28, R192). Its layout, that of the request, is log entry 13. -/
def Obligations.PutMotionAnswered : Prop :=
  (∀ (l : Link) (bytes : List Byte) (s : State) (f : Frame), s.frameOf l bytes = some f → f.kind = .putMotion →
    (l = .job → (∃ b rest, f.payload = b :: rest ∧ 6 ≤ b.toNat ∧ b.toNat ≤ 9) →
      exec (.putMotion l bytes) s = .next ((s.heard l bytes).answered l ⟨0x82, f.tag, .notAllowed, []⟩)) ∧
    ((l = .job → ∀ b rest, f.payload = b :: rest → b.toNat < 6 ∨ 9 < b.toNat) → motionOf f.payload = none →
      exec (.putMotion l bytes) s = .next ((s.heard l bytes).answered l ⟨0x82, f.tag, .badLine, [9]⟩)) ∧
    (∀ k, l = .console ∨ k.code < 6 → motionOf f.payload = some k → availableDescs s.store l < 1 →
      exec (.putMotion l bytes) s = .next ((s.heard l bytes).answered l ⟨0x82, f.tag, .noRoom,
        [0] ++ u16 (availableBlocks s.store l) ++ u8 (availableDescs s.store l)⟩)) ∧
    (∀ k u, l = .console ∨ k.code < 6 → motionOf f.payload = some k → 1 ≤ availableDescs s.store l →
      u = (s.heard l bytes).accept l (.motion k) 0 .queued →
      exec (.putMotion l bytes) s = .next ((u.answered l ⟨0x82, f.tag, .ok,
        u16 (s.store.get l).nextSeq.toNat ++ [0] ++ k.param ++ u16 (availableBlocks u.store l) ++
          u8 (availableDescs u.store l)⟩).settle))) ∧
  (∀ lo hi : Byte, motionOf [1, lo, hi] = some (.feed (max 1 (min 1023 (lo.toNat + 256 * hi.toNat)))) ∧
    motionOf [2, lo, hi] = some (.reverse (max 1 (min 144 (lo.toNat + 256 * hi.toNat))))) ∧
  motionOf [3] = some .vtab ∧ motionOf [4] = some .formfeed ∧ motionOf [5] = some .tear ∧ motionOf [6] = some .load ∧
  motionOf [7] = some .park ∧ motionOf [8, 0] = some (.path .tractor) ∧ motionOf [8, 1] = some (.path .sheet) ∧
  (∀ p : Pin, motionOf [9, BitVec.ofNat 8 p.val] = some (.coilTest (some p))) ∧
  motionOf [9, 255] = some (.coilTest none) ∧
  (∀ b : Byte, 2 ≤ b.toNat → motionOf [8, b] = none) ∧
  (∀ b : Byte, 18 ≤ b.toNat → b.toNat ≠ 255 → motionOf [9, b] = none) ∧
  (∀ bs k, motionOf bs = some k → ∃ b rest, bs = b :: rest ∧ b.toNat = k.code ∧ rest.length = k.param.length) ∧
  (∀ n, n < 65536 → (MotionKind.feed n).param = [BitVec.ofNat 8 n, BitVec.ofNat 8 (n / 256)] ∧
    (MotionKind.reverse n).param = [BitVec.ofNat 8 n, BitVec.ofNat 8 (n / 256)]) ∧
  (MotionKind.path .tractor).param = [0] ∧ (MotionKind.path .sheet).param = [1] ∧
  (∀ p : Pin, (MotionKind.coilTest (some p)).param = [BitVec.ofNat 8 p.val]) ∧ (MotionKind.coilTest none).param = [255] ∧
  [MotionKind.vtab, .formfeed, .tear, .load, .park].map MotionKind.param = [[], [], [], [], []]

/-- A PUT LINE payload that is written by the layout of R192 and passes R23 is read as it was written: every field as
R19 stores it, and every dot column of the chain as R20 lays it out. That the chain takes its blocks from the front of the
free list is the model's choice (log entry 10). -/
def Obligations.LinePayloadIsReadBack : Prop :=
  ∀ (x : LineText), x.Legal → lineCheck x.bytes = none ∧
    blocksNeeded (segmentsOf x.bytes (wordAt x.bytes 6)) = (x.segments.map (fun g => (g.2.length + 31) / 32)).sum ∧
    ∀ (l : Link) (free : List Nat), (x.segments.map (fun g => (g.2.length + 31) / 32)).sum ≤ free.length →
      ∃ f : LineFields, f = lineFieldsOf l x.bytes free ∧
        f.density = x.density ∧ f.origin = (match x.origin with | none => 216 | some n => min 9719 n) ∧
        f.dirRequest = x.dirRequest ∧ f.ceiling = x.ceiling ∧ f.urgent = (x.urgent && (l == .console)) ∧
        f.unidirAlign = x.unidirAlign ∧ f.tallyHold = x.hold ∧ f.trailingFeed = min 1023 x.feed ∧
        f.segments = x.segments.map (fun g => ⟨g.1, g.2.length⟩) ∧
        readChain f.segments f.chain = x.dots ∧
        (∀ b ∈ f.chain, 1 ≤ b.cols.length ∧ b.cols.length ≤ 32) ∧
        f.chain.map (·.number) = free.take (x.segments.map (fun g => (g.2.length + 31) / 32)).sum

/-! ## Requests to the engine (chapters 8, 10, 11) -/

/-- The grant order over the heads that are QUEUED, and the paper-tail check for a line and for each kind of motion, in AT_PRINT and, with the return
before it, in AT_TEAR. In TAIL a line, FEED, REVERSE, VTAB, FORMFEED and TEAR are checked, and a LOAD, PARK, PATH or COIL TEST
is granted, as in every paper state (R152, R166, R167). The offset after the
return, for either sign of the tear distance, and the trailing feed of 0 that counts 0 before the least travel of 2, are
log entry 21. -/
def Obligations.GrantOrderAndPaperCheck : Prop :=
  (∀ s : State,
    (s.urgentReady = true → s.select = some .console) ∧
    (s.urgentReady = false → s.arb.hold = true → s.headReady .job = true → s.select = some .job) ∧
    (s.urgentReady = false → s.arb.hold = true → s.headReady .job = false → s.select = none) ∧
    (s.urgentReady = false → s.arb.hold = false → s.headReady .console = true → s.select = some .console) ∧
    (s.arb.hold = false → s.headReady .console = false → s.headReady .job = true → s.select = some .job) ∧
    (s.headReady .console = false → s.headReady .job = false → s.select = none) ∧
    (∀ l, s.headReady l = true ↔ ∃ e, s.headEntry l = some e ∧ e.state = .queued) ∧
    (s.urgentReady = true ↔ ∃ e f, s.headEntry .console = some e ∧ e.state = .queued ∧ e.record = .line f ∧ f.urgent = true)) ∧
  (∀ (s : State) (r : Record),
    (∀ g, r = .line g → s.form.paper = .none ∨ s.form.paper = .parked → s.judgePaper r = .noPaper) ∧
    (∀ d, s.form.paper = .tail d → r.tailChecked = true →
      (s.judgePaper r = .paperOut ↔ d - s.forwardTravel r ≤ 72) ∧ (s.judgePaper r = .grant ↔ 72 < d - s.forwardTravel r)) ∧
    (s.form.paper = .present → s.judgePaper r = .grant) ∧
    (∀ k, r = .motion k → (∀ d, s.form.paper ≠ .tail d) → s.judgePaper r = .grant) ∧
    (r.tailChecked = true ↔ (∃ g, r = .line g) ∨ (∃ n, r = .motion (.feed n) ∨ r = .motion (.reverse n)) ∨
      r = .motion .vtab ∨ r = .motion .formfeed ∨ r = .motion .tear) ∧
    (r = .motion .load ∨ r = .motion .park ∨ (∃ p, r = .motion (.path p)) ∨ (∃ p, r = .motion (.coilTest p)) →
      s.judgePaper r = .grant)) ∧
  (∀ (s : State), s.form.tear = .atPrint →
    (∀ g, s.forwardTravel (.line g) =
      max 2 (if g.trailingFeed = 0 then 0 else s.map.skipExtended s.form.offset g.trailingFeed)) ∧
    (∀ n, s.forwardTravel (.motion (.feed n)) = s.map.skipExtended s.form.offset n) ∧
    (∀ n, s.forwardTravel (.motion (.reverse n)) = 0) ∧
    s.forwardTravel (.motion .vtab) = s.map.vtabDistance s.form.offset ∧
    s.forwardTravel (.motion .formfeed) = s.map.formfeedDistance s.form.offset ∧
    s.forwardTravel (.motion .tear) = s.map.tearFeedDistance s.form.offset + (288 + s.map.trim - s.map.tof).toNat) ∧
  (∀ (s : State) (d : Int) (o a : Nat), s.form.tear = .atTear → 0 < s.map.len → d = s.form.tearDistance →
    (o : Int) = (s.form.offset - d) % s.map.len → a = (if d < 0 then d.natAbs else 0) →
    (∀ g, s.forwardTravel (.line g) = max 2 (if g.trailingFeed = 0 then 0 else s.map.skipExtended o g.trailingFeed) + a) ∧
    (∀ n, s.forwardTravel (.motion (.feed n)) = s.map.skipExtended o n + a) ∧
    (∀ n, s.forwardTravel (.motion (.reverse n)) = a) ∧ s.forwardTravel (.motion .vtab) = s.map.vtabDistance o + a ∧
    s.forwardTravel (.motion .formfeed) = s.map.formfeedDistance o + a ∧ s.forwardTravel (.motion .tear) = 0)

/-- SET FORM is answered NOTALLOWED from Job with the lock field, LOCKED from Job while the lock is set, and is else
applied at once and answered OK with the whole map, the effective length and the stops dropped or removed (R133, R134),
in the layout and by the count of log entries 13 and 27; the auto-tear timer is judged after it (R175). How its payload is
read, each field at its place and only under its mask bit, and how the map is written (R129, R192). -/
def Obligations.SetFormAnswered : Prop :=
  (∀ (l : Link) (bytes : List Byte) (s : State) (f : Frame), s.frameOf l bytes = some f → f.kind = .setForm →
    (l = .job → bitAt f.payload 0 5 = true →
      exec (.setForm l bytes) s = .next ((s.heard l bytes).answered l ⟨0x83, f.tag, .notAllowed, []⟩)) ∧
    (l = .job → bitAt f.payload 0 5 = false → s.map.lock = true →
      exec (.setForm l bytes) s = .next ((s.heard l bytes).answered l ⟨0x83, f.tag, .locked, []⟩)) ∧
    (∀ x, l = .console ∨ (bitAt f.payload 0 5 = false ∧ s.map.lock = false) →
      x = (s.heard l bytes).applySetForm (setFormOf f.payload) →
      exec (.setForm l bytes) s = .next ((x.1.answered l ⟨0x83, f.tag, .ok,
        x.1.map.bytes ++ u16 x.1.map.len ++ u8 x.2⟩).judgeTimers))) ∧
  (∀ (m l0 l1 t0 t1 d k0 k1 lock n : Byte) (xs : List (Byte × Byte)), xs.length = n.toNat →
    setFormOf ([m, l0, l1, t0, t1, d, k0, k1, lock, n] ++ (xs.map (fun x => [x.1, x.2])).flatten) =
      { length := if m.getLsbD 0 then some (l0.toNat + 256 * l1.toNat) else none
        tof := if m.getLsbD 1 then some (t0.toNat + 256 * t1.toNat) else none
        trim := if m.getLsbD 2 then some d.toInt else none
        skip := if m.getLsbD 3 then some (k0.toNat + 256 * k1.toNat) else none
        stops := if m.getLsbD 4 then some (xs.map (fun x => x.1.toNat + 256 * x.2.toNat)) else none
        lock := m.getLsbD 5 }) ∧
  (∀ (m : FormMap) (b : List Byte), m.Legal → b = m.bytes → b.length = 12 + 2 * m.stops.length ∧
    wordAt b 0 = m.programmed ∧ (match m.learned with | none => byteAt b 2 = 0 | some n => byteAt b 2 = 1 ∧ wordAt b 3 = n) ∧
    wordAt b 5 = m.tof ∧ byteAt b 7 = (BitVec.ofInt 8 m.trim).toNat ∧ wordAt b 8 = m.skip ∧ byteAt b 10 = m.stops.length ∧
    (∀ i x, m.stops[i]? = some x → wordAt b (11 + 2 * i) = x) ∧
    byteAt b (11 + 2 * m.stops.length) = (if m.lock then 1 else 0))

/-- What a SET FORM writes: each present field clamped to its range, in the order length, TOF, tear trim, skip zone,
stops, lock; a length discards the learned and the candidate length, reduces the offset and ends a LOCKED edge state;
the stops kept are the twelve smallest below the length; nothing else changes. The number answered is that of the stops held
that the length removes and of the values of the list that are not kept, which is log entry 27 (R130, R133). -/
def Obligations.SetFormWritesTheMap : Prop :=
  ∀ (s t : State) (r : SetFormFields) (n len : Nat), s.applySetForm r = (t, n) → len = t.map.len →
    t = { s with map := t.map, form := t.form } ∧
    t.map.programmed = (match r.length with | some x => max 144 (min 8640 x) | none => s.map.programmed) ∧
    t.map.learned = (if r.length.isSome then none else s.map.learned) ∧
    t.map.tof = (match r.tof with
      | some x => min x (min 720 (len - 1))
      | none => if r.length.isSome then min s.map.tof (min 720 (len - 1)) else s.map.tof) ∧
    t.map.trim = (match r.trim with | some x => max (-72) (min 72 x) | none => s.map.trim) ∧
    t.map.skip = (match r.skip with
      | some x => min x (len / 2)
      | none => if r.length.isSome then min s.map.skip (len / 2) else s.map.skip) ∧
    t.map.lock = (r.lock || s.map.lock) ∧
    n = (if r.length.isSome then (s.map.stops.filter (fun x => len ≤ x)).length else 0) +
      (match r.stops with | some xs => xs.length - t.map.stops.length | none => 0) ∧
    (r.stops = none → t.map.stops = if r.length.isSome then s.map.stops.filter (fun x => x < len) else s.map.stops) ∧
    (∀ xs, r.stops = some xs →
      t.map.stops.Pairwise (· < ·) ∧ t.map.stops.length ≤ 12 ∧ (∀ y ∈ t.map.stops, y ∈ xs ∧ y < len) ∧
      (∀ x ∈ xs, x < len → x ∈ t.map.stops ∨ (t.map.stops.length = 12 ∧ ∀ y ∈ t.map.stops, y < x))) ∧
    (r.length = none → t.form = s.form) ∧
    (r.length.isSome → t.form = { s.form with
      offset := s.form.offset % len, pendingCorrection := none, candidate := none,
      edge := if s.form.edge = .locked then .seeking else s.form.edge })

/-- SET HEAD stores each setting whose mask bit is set, clamped to its range, keeps the others, and answers all six
(R6, R170, R175, R176, R184); a new auto-tear dwell of 0 stops the timer, which is judged after it (R175). -/
def Obligations.SetHeadStoresPresentFields : Prop :=
  ∀ (l : Link) (bytes : List Byte) (s : State) (f : Frame) (m g d u b a i : Byte) (h : HeadSettings),
    s.frameOf l bytes = some f → f.kind = .setHead → f.payload = [m, g, d, u, b, a, i] →
    h = { gap := if m.getLsbD 0 then max 1 (min 6 g.toNat) else s.arb.head.gap
          trim := if m.getLsbD 1 then max (-8) (min 7 d.toInt) else s.arb.head.trim
          uni := if m.getLsbD 2 then u.toNat != 0 else s.arb.head.uni
          substitution := if m.getLsbD 3 then b.toNat != 0 else s.arb.head.substitution
          autoTear := if m.getLsbD 4 then min 15 a.toNat else s.arb.head.autoTear
          idleRelease := if m.getLsbD 5 then max 1 (min 30 i.toNat) else s.arb.head.idleRelease } →
    exec (.setHead l bytes) s = .next (({ s.heard l bytes with arb := { s.arb with head := h } }.answered l
      ⟨0x84, f.tag, .ok, [BitVec.ofNat 8 h.gap, BitVec.ofInt 8 h.trim, if h.uni then 1 else 0,
        if h.substitution then 1 else 0, BitVec.ofNat 8 h.autoTear, BitVec.ofNat 8 h.idleRelease]⟩).judgeTimers) ∧
    (h.autoTear = 0 → ∀ t, exec (.setHead l bytes) s = .next t → t.arb.autoTimer = none)

/-- CANCEL purges the link's entries but the GRANTED one, releases a Job hold, posts CANCELLED and answers the number
purged. A line of the link in flight is marked cancelled with IMPERFECT: a plan, a gate wait or a dwell is dropped with
every later phase but the feed; a pass being struck runs on, its odd half dropped; a return, a substitution move, the
feed, a jammed line and one held by a halt stay as they are (R36, R58, R173; a return or a move: log entry 16; the held line:
log entry 37). -/
def Obligations.CancelPurgesTheQueue : Prop :=
  ∀ (l : Link) (bytes : List Byte) (s u : State) (f : Frame) (n : Nat) (g : Option SeqNo) (hold : State → State),
    s.frameOf l bytes = some f → f.kind = .cancel →
    n = ((s.store.get l).queue.filter (fun e => e.state ≠ .granted)).length →
    (∀ q, s.arb.granted = some ⟨l, q⟩ → g = some q) → ((∀ q, s.arb.granted ≠ some ⟨l, q⟩) → g = none) →
    u = (s.heard l bytes).purge l →
    (l = .job → ∀ w, hold w = { w with arb := { w.arb with hold := false, idleTimer := none } }) →
    (l = .console → ∀ w, hold w = w) →
    ((∀ c, s.line = some c → c.link ≠ l) →
      exec (.cancel l bytes) s = .next ((((hold u).post l (.cancelled n g)).answered l ⟨0x88, f.tag, .ok, u8 n⟩).settle)) ∧
    (∀ (c : LineContext) (w v : State), s.line = some c → c.link = l →
      w = { u with
        line := some { c with cancelled := true }
        store := u.store.set l { u.store.get l with queue := (u.store.get l).queue.mapIdx (fun j e =>
          if j = 0 then { e with result := { e.result with imperfect := true } } else e) } } →
      ((∃ p, c.stage = .planDue p ∨ c.stage = .planned p) ∧ v = w.dropPhases) ∨
        ((∃ p, c.stage = .striking p) ∧ v = { w with
          line := some { c with cancelled := true, oddPlanned := false }
          lists := s.lists.map (fun x => if x.isWaiting then .free else x)
          dwell := .none }) ∨
        ((c.stage = .returning ∨ (∃ k, c.stage = .subMove k) ∨ c.stage = .feeding ∨ c.stage = .jammed ∨ c.stage = .held) ∧
          v = w) →
      exec (.cancel l bytes) s = .next ((((hold v).post l (.cancelled n g)).answered l ⟨0x88, f.tag, .ok, u8 n⟩).settle))

/-- When the later phases of a line are dropped, its unstruck dots are lost with IMPERFECT, its plan goes, and the trailing
feed brings the form to its feed: a forward or a reverse move falls due, or the line completes, or, while the engine is
halted, is held (R41, R57, R58, R59, R173). That the loss itself sets IMPERFECT only with a dot, beside the flag that a
fault or a cancel sets, is log entry 17; the held line is log entry 37, a move after a cancel log entry 16. A loss of dots counts them with DEGRADED or IMPERFECT.
After a pass the line goes on: the odd half planned; the repair pass, or, with every candidate's pin FAILED at the end of the
last main pass, the substitution assignment at once; its groups and moves; or the feed (a repair pass whose pins all fail while
it waits for the gates leaves the assignment to its plan time, log entry 51); after a move of the line its pass falls due with the net offset that the move sets, or the line completes. A
line completes with LINE DONE, and an entry that completes leaves its queue, and the Job hold with it at offset 0 (R35, R40,
R41, R46, R53, R55, R56, R57, R58, R60, R161, R169). -/
def Obligations.DroppedPhasesLeaveTheFeed : Prop :=
  (∀ (s : State) (c : LineContext) (e d : Entry) (es : List Entry) (g : LineFields) (u : State),
    s.line = some c → (s.store.get c.link).queue = e :: es → e.record = .line g →
    d = { e with
      result := { e.result with
        lost := e.result.lost + dotsCount c.unstruck
        imperfect := e.result.imperfect || (dotsCount c.unstruck != 0) } } →
    u = { s with
      line := some { c with unstruck := [], stage := .feeding }
      store := s.store.set c.link { s.store.get c.link with queue := d :: es }
      lists := s.lists.map (fun x => if x.isWaiting then .free else x)
      dwell := .none } →
    (c.unstruck.map (·.1)).Nodup → (∀ x ∈ c.unstruck, x.2 ≠ 0) →
    ((c.netOffset < g.trailingFeed → s.dropPhases = { u with
      drive := { s.drive with due := some ⟨.line, .trailing ((g.trailingFeed : Int) - c.netOffset).toNat⟩ } }) ∧
    ((g.trailingFeed : Int) < c.netOffset → s.dropPhases = { u with
      drive := { s.drive with due := some ⟨.line, .trailingReverse (c.netOffset - g.trailingFeed).toNat⟩ } }) ∧
    ((g.trailingFeed : Int) = c.netOffset → s.arb.halt = ⟨false, false, false, false⟩ →
      s.dropPhases = ({ u with line := some { c with unstruck := [] } }).completeLine) ∧
    ((g.trailingFeed : Int) = c.netOffset → s.arb.halt ≠ ⟨false, false, false, false⟩ →
      s.dropPhases = { u with line := some { c with unstruck := [], stage := .held } }))) ∧
  (∀ (s : State) (c : LineContext) (e : Entry) (es : List Entry) (d gone : DotSet) (degraded : Bool) (n : Nat),
    s.line = some c → (s.store.get c.link).queue = e :: es → gone = dotsInter c.unstruck d → n = dotsCount gone →
    s.loseDots d degraded = { s with
      line := some { c with unstruck := dotsDiff c.unstruck gone }
      store := s.store.set c.link { s.store.get c.link with queue := { e with
        result := { e.result with
          lost := e.result.lost + n
          degraded := e.result.degraded || (degraded && n != 0)
          imperfect := e.result.imperfect || (!degraded && n != 0) } } :: es } }) ∧
  (∀ (s : State) (c : LineContext) (e : Entry), s.line = some c → s.headEntry c.link = some e →
    s.completeLine = (({ s with line := none, lists := #v[.free, .free], dwell := .none }).post c.link
      (.lineDone c.link e.seq e.result)).completeEntry c.link) ∧
  (∀ (s u : State) (l : Link) (e : Entry) (es : List Entry), (s.store.get l).queue = e :: es →
    u = ({ s with store := s.store.set l { s.store.get l with queue := es } }).reflow →
    s.completeEntry l = { u with arb := { s.arb with
      granted := none
      hold := s.arb.hold && !(l == .job && s.form.offset == 0)
      idleTimer := if l = .job ∧ s.form.offset = 0 then none else s.arb.idleTimer } }) ∧
  (∀ (d e : DotSet) (m : Rows) (k : Nat), (d.map (·.1)).Nodup →
    dotsAt (dotsInter d e) k = dotsAt d k &&& dotsAt e k ∧ dotsAt (dotsDiff d e) k = dotsAt d k &&& ~~~(dotsAt e k) ∧
    dotsAt (dotsInRows m d) k = dotsAt d k &&& m) ∧
  (∀ d : DotSet, dotsCount d = (d.map (fun x => ((List.finRange 18).filter (fun r : Pin => x.2.getLsbD r.val)).length)).sum) ∧
  (∀ (s : State) (c : LineContext), s.line = some c →
    (c.cancelled = true → ∀ p, s.afterPass p = s.dropPhases) ∧
    (∀ p odd, c.cancelled = false → c.oddPlanned = true →
      (p = .main .even ∧ odd = .main .odd) ∨ (p = .up .even ∧ odd = .up .odd) ∨ (p = .down .even ∧ odd = .down .odd) →
      s.afterPass p = ({ s with line := some { c with oddPlanned := false, stage := .planned odd } }).beginDwell) ∧
    (∀ h, c.cancelled = false → (h = .even → c.oddPlanned = false) →
      (dotsInRows (~~~s.failedPins) (dotsInter c.repairs c.unstruck) ≠ [] →
        s.afterPass (.main h) = { s with line := some { c with stage := .planDue .repair } }) ∧
      (dotsInRows (~~~s.failedPins) (dotsInter c.repairs c.unstruck) = [] → s.afterPass (.main h) = s.assignSubstitutes) ∧
      (c.repairs = [] → s.afterPass (.main h) = s.assignSubstitutes) ∧
      (c.downGroup ≠ [] → s.afterPass (.up h) = { s with
        line := some { c with stage := .subMove .down }
        drive := { s.drive with due := some ⟨.line, .subReverse (c.netOffset + 2).toNat⟩ } }) ∧
      (c.downGroup = [] → s.afterPass (.up h) = s.startFeed) ∧ s.afterPass (.down h) = s.startFeed) ∧
    (c.cancelled = false → s.afterPass .repair = s.assignSubstitutes) ∧
    (c.upGroup = [] → c.downGroup = [] → s.arb.head.substitution = false ∨ s.form.path = .sheet →
      s.assignSubstitutes = (s.loseDots (dotsInRows s.failedPins c.unstruck) true).startFeed) ∧
    (∀ (u d : Rows) (x y : DotSet) (w : State), s.arb.head.substitution = true → s.form.path = .tractor →
      (∀ p : Pin, u.getLsbD p.val = (s.isFailed p && decide (1 ≤ p.val) && !s.failedPins.getLsbD (p.val - 1))) →
      (∀ p : Pin, d.getLsbD p.val =
        (s.isFailed p && !u.getLsbD p.val && decide (p.val ≤ 16) && !s.failedPins.getLsbD (p.val + 1))) →
      x = dotsInRows u c.unstruck → y = dotsInRows d c.unstruck →
      w = (s.loseDots (dotsInRows (~~~(u ||| d)) (dotsInRows s.failedPins c.unstruck)) true).modifyLine (fun b =>
        { b with upGroup := x, downGroup := y }) →
      (x ≠ [] → s.assignSubstitutes = (w.setStage (.subMove .up)).setDue (some ⟨.line, .subForward 2⟩)) ∧
      (x = [] → y ≠ [] → s.assignSubstitutes =
        (w.setStage (.subMove .down)).setDue (some ⟨.line, .subReverse (c.netOffset + 2).toNat⟩)) ∧
      (x = [] → y = [] → s.assignSubstitutes = w.startFeed)) ∧
    (c.stage = .returning → s.lineMoveDone =
      (if c.cancelled then s.dropPhases else { s with line := some { c with stage := .planDue (.main .whole) } })) ∧
    (c.stage = .subMove .up → s.lineMoveDone = (if c.cancelled then ({ s with line := some { c with netOffset := 2 } }).dropPhases
      else { s with line := some { c with netOffset := 2, stage := .planDue (.up .whole) } })) ∧
    (c.stage = .subMove .down → s.lineMoveDone = (if c.cancelled then ({ s with line := some { c with netOffset := -2 } }).dropPhases
      else { s with line := some { c with netOffset := -2, stage := .planDue (.down .whole) } })) ∧
    (c.stage = .feeding → s.lineMoveDone = s.completeLine))

/-- CLEAR is refused from Job; from Console JAM leaves the halt set and the jammed entry completes SHORT (a motion by MOVE
DONE, a line by LINE DONE, a jam of the automatic tear completing nothing), CARRIAGE leaves it, alone or with JAM, and a
homing starts in UNHOMED, PAPER_OUT and NO_PAPER stay, and the set left is answered; a line that the halt held completes when
the set is empty (R59, R75, R150, R160, R171, R172, R173, R183). Which MOVE DONE carries no distance is log entry 19, the
held line log entry 37. -/
def Obligations.ClearLeavesTheHalts : Prop :=
  ∀ (l : Link) (bytes : List Byte) (s : State) (f : Frame) (home : State → State) (ok : State → Host.Outcome State Fault Refusal),
    s.frameOf l bytes = some f → f.kind = .clear →
    (∀ x, home x = { x with
      arb := { x.arb with halt := { x.arb.halt with carriage := false } }
      car := { x.car with state := .homing .rest, motion := none, suspended := false, indexArmed := false } }) →
    (∀ x, ok x = .next ((x.answered l ⟨0x8D, f.tag, .ok,
      u8 (flagSet [false, s.arb.halt.paperOut, s.arb.halt.noPaper, false])⟩).settle)) →
    (l = .job → exec (.clear l bytes) s = .next ((s.heard l bytes).answered l ⟨0x8D, f.tag, .notAllowed, []⟩)) ∧
    (l = .console → (∀ c, s.line = some c → c.stage ≠ .held) →
      (s.arb.halt.jam = false → s.arb.halt.carriage = false → exec (.clear l bytes) s = ok (s.heard l bytes)) ∧
      (s.arb.halt.jam = false → s.arb.halt.carriage = true → s.car.state = .unhomed →
        exec (.clear l bytes) s = ok (home (s.heard l bytes))) ∧
      (∀ (u v w : State), s.arb.halt.jam = true →
        u = { s.heard l bytes with arb := { s.arb with halt := { s.arb.halt with jam := false } } } →
        (s.arb.halt.carriage = false → w = v) → (s.arb.halt.carriage = true → s.car.state = .unhomed ∧ w = home v) →
        (∀ r, s.drive.run = some r → r.jammed = true →
          v = (({ u with drive := { s.drive with run := none } }).post r.link (.moveDone r.link r.seq r.kind .short none
            (if r.kind.noDistance then none else some r.distance) r.moved r.back r.stalls s.form.form s.form.offset
            s.form.paper s.form.tear s.form.path s.form.trusted)).completeEntry r.link →
          exec (.clear l bytes) s = ok w) ∧
        (∀ (c : LineContext) (e : Entry), s.drive.run = none → s.line = some c → c.stage = .jammed →
          s.headEntry c.link = some e →
          v = (({ u with line := none, lists := #v[.free, .free], dwell := .none }).post c.link
            (.lineDone c.link e.seq e.result)).completeEntry c.link →
          exec (.clear l bytes) s = ok w) ∧
        (s.drive.run = none → s.line = none → v = u → exec (.clear l bytes) s = ok w))) ∧
    (∀ c, l = .console → s.line = some c → c.stage = .held → s.arb.halt = ⟨false, false, false, true⟩ →
      s.car.state = .unhomed → exec (.clear l bytes) s = ok (home (s.heard l bytes)).completeLine)

/-- ENGINE RESET is refused from Job; from Console it empties the halt set and both queues, drops the grant, the hold, the
timers, the line, the plans, the test and the move, cuts every pulse, starts a homing, restores the head settings, the map
and the tally units, keeps heat, health, the sequence numbers and the qualifications, and posts ENGINE RESET to both links. A
move in flight ends at the steps counted so far, those of a forward attempt that no pulse confirms withdrawn, with neither a
phase correction nor a notice (R38, R78, R91, R99, R110, R144, R162, R164, R177, R190). The sensor level that a reset in LOADING
reads is log entry 42. -/
def Obligations.EngineResetStopsTheWork : Prop :=
  ∀ (l : Link) (bytes : List Byte) (s : State) (f : Frame), s.frameOf l bytes = some f → f.kind = .engineReset →
    (l = .job → exec (.engineReset l bytes) s = .next ((s.heard l bytes).answered l ⟨0x8E, f.tag, .notAllowed, []⟩)) ∧
    (l = .console → ∃ t : State, exec (.engineReset l bytes) s = .next t ∧
      t.arb = ⟨⟨false, false, false, false⟩, none, false, none, none, ⟨1, 0, false, true, 0, 4⟩⟩ ∧ t.engine = .unready ∧
      (∀ k, (t.store.get k).queue = [] ∧ (t.store.get k).nextSeq = (s.store.get k).nextSeq ∧ (t.store.get k).flow = true) ∧
      t.line = none ∧ t.lists = #v[.free, .free] ∧ t.dwell = .none ∧ t.test = none ∧
      t.car = { s.car with state := .homing .rest, motion := none, suspended := false, indexArmed := false } ∧
      t.sequ.walking = false ∧ (s.sequ.walking = false → t.sequ = s.sequ) ∧
      (s.sequ.walking = true → t.sequ.timerA = .idle ∧ t.sequ.timerB = .idle ∧ t.sequ.repairs = [] ∧ t.sequ.overflow = false) ∧
      (∀ p, t.channel p = (match s.channel p with | .drive _ _ => .recovery 1400 | .hold _ => .recovery 1400 | x => x)) ∧
      (∀ p, t.pinRecord p = if (∃ c, s.test = some c ∧ c.pin = some p) then { s.pinRecord p with lastCoil := .invalid }
        else s.pinRecord p) ∧
      t.heat = s.heat ∧ t.drive = ⟨.stopped, none, none, none⟩ ∧ t.steppers = s.steppers ∧ t.map = ⟨3168, none, 0, 0, 0, [], false⟩ ∧
      t.form.candidate = none ∧ t.form.previousEdge = none ∧ t.form.pendingCorrection = none ∧
      t.form.lastCorrection = none ∧ t.form.trusted = true ∧ t.form.path = s.form.path ∧ t.form.tear = s.form.tear ∧
      t.form.edge = (if s.edgeFitted = true ∧ s.form.path = .tractor then .seeking else .off) ∧
      (∀ (k : Nat) (x : FormPosition), (s.drive.move = none → k = 0 ∧ x = s.form) →
        (∀ m, s.drive.move = some m →
          (s.drive.state = .stepping → m.dir = .forward → k = m.steps - 4 * m.pulses) ∧
          (s.drive.state ≠ .stepping ∨ m.dir = .reverse → k = 0) ∧
          x = { (s.stallCorrection k).form with tearDistance :=
            if m.kind = .back ∨ m.kind = .tearAdvance then s.form.tearDistance - k else s.form.tearDistance }) →
        t.form.offset = x.offset % 3168 ∧ t.form.odometer = x.odometer ∧ t.form.form = x.form ∧
        t.form.forwardMark = x.forwardMark ∧ t.form.tearDistance = x.tearDistance ∧ t.form.noPaperRun = x.noPaperRun ∧
        (∀ a, s.form.paper = .loading a → t.form.paper = if s.form.paperSensor then .present else .none) ∧
        ((∀ a, s.form.paper ≠ .loading a) → t.form.paper = x.paper)) ∧
      (∀ u, t.tallyUnit u = ⟨.off, 0, 0, 0, false, false, (s.tallyUnit u).qual⟩) ∧
      t.port.job = s.port.job.post .engineReset ∧
      t.port.console = { (((s.heard l bytes).port.console).post .engineReset) with built := some ⟨0x8E, f.tag, .ok, []⟩ })

/-- LINK RESET discards the link's pending response and notices, clears LOST, purges its entries but the GRANTED one, sets
its next sequence number to 0, releases a Job hold, and answers the number purged (R37, R174, R181, R189). -/
def Obligations.LinkResetClearsTheLink : Prop :=
  ∀ (l : Link) (bytes : List Byte) (s u v w : State) (f : Frame) (n : Nat), s.frameOf l bytes = some f →
    f.kind = .linkReset → n = ((s.store.get l).queue.filter (fun e => e.state ≠ .granted)).length →
    u = (s.heard l bytes).purge l →
    v = { u with
      store := u.store.set l { u.store.get l with nextSeq := 0 }
      port := u.port.set l { u.port.get l with response := none, notices := [], lost := false, rx := .discard none } } →
    (l = .job → w = { v with arb := { v.arb with hold := false, idleTimer := none } }) → (l = .console → w = v) →
    exec (.linkReset l bytes) s = .next ((w.answered l ⟨0x8F, f.tag, .ok, u8 n⟩).settle) ∧
      (u.store.get l).queue = (s.store.get l).queue.filter (fun e => e.state = .granted)

/-- TALLY SET, ARM, MASK and CLEAR write their unit and answer all its fields; a TALLY SET from OFF and a TALLY MASK that
unmasks release from a pending latch that finds a HELD record (R177, R179, R183). The coding of the latch and of the
qualification in the answer is log entry 13; that the answer does not carry the input number applied is log entry 50. -/
def Obligations.TallyRequestsWriteTheUnit : Prop :=
  ∀ (l : Link) (bytes : List Byte) (s : State) (f : Frame) (b : Byte) (rest : List Byte) (i : Fin 2),
    s.frameOf l bytes = some f → f.payload = b :: rest → i = (if b.toNat = 0 then 0 else 1) →
    (∀ m lo hi u v, f.kind = .tallySet → rest = [m, lo, hi] →
      u = (s.heard l bytes).modifyTally i (fun t => { t with
        mode := if m.toNat = 0 then .off else if m.toNat = 1 then .edge else .count
        setValue := hi ++ lo }) →
      ((s.tallyUnit i).mode ≠ .off → v = u) → ((s.tallyUnit i).mode = .off → v = u.latchRelease i) →
      exec (.tallySet l bytes) s = .next ((v.answered l ⟨0x89, f.tag, .ok, (v.tallyUnit i).bytes⟩).settle)) ∧
    (∀ u, f.kind = .tallyArm →
      u = (s.heard l bytes).modifyTally i (fun t => { t with armed := t.setValue, present := t.setValue }) →
      exec (.tallyArm l bytes) s = .next (u.answered l ⟨0x8A, f.tag, .ok, (u.tallyUnit i).bytes⟩)) ∧
    (∀ m u v, f.kind = .tallyMask → rest = [m] →
      u = (s.heard l bytes).modifyTally i (fun t => { t with unmasked := m.toNat != 0 }) →
      (m.toNat = 0 → v = u) → (m.toNat ≠ 0 → v = u.latchRelease i) →
      exec (.tallyMask l bytes) s = .next ((v.answered l ⟨0x8B, f.tag, .ok, (v.tallyUnit i).bytes⟩).settle)) ∧
    (∀ u, f.kind = .tallyClear → u = (s.heard l bytes).modifyTally i (fun t => { t with latch := false }) →
      exec (.tallyClear l bytes) s = .next (u.answered l ⟨0x8C, f.tag, .ok, (u.tallyUnit i).bytes⟩)) ∧
    (∀ u : State, (u.tallyUnit i).unmasked = true → (u.tallyUnit i).mode ≠ .off → (u.tallyUnit i).latch = true →
      (u.oldestHeld i).isSome → u.latchRelease i = (u.modifyTally i (fun t => { t with latch := false })).release i .latch) ∧
    (∀ u : State, (u.tallyUnit i).unmasked = false ∨ (u.tallyUnit i).mode = .off ∨ (u.tallyUnit i).latch = false ∨
      u.oldestHeld i = none → u.latchRelease i = u) ∧
    (∀ u : State, (u.oldestHeld i = none ↔ ∀ k, ∀ e ∈ (u.store.get k).queue, e.heldFor i = false) ∧
      ((u.tallyUnit i).latchReady = true ↔
        (u.tallyUnit i).unmasked = true ∧ (u.tallyUnit i).mode ≠ .off ∧ (u.tallyUnit i).latch = true))

/-- A release makes QUEUED the record HELD for its input that was accepted first over both links, and only it, and posts
TALLY RELEASE to both links; with none HELD it sets the pending latch (R179). Acceptance order is that of the model's
stamps, which `StoreSoundIsKept` keeps in order (log entry 11). -/
def Obligations.ReleaseTakesTheOldestHeld : Prop :=
  ∀ (s : State) (i : Fin 2) (src : ReleaseSource), s.StoreSound →
    (∀ e : Entry, e.heldFor i = true ↔ e.state = .held ∧ ∃ f, e.record = .line f ∧ f.tallyHold = some i) ∧
    ((∀ l, ∀ e ∈ (s.store.get l).queue, e.heldFor i = false) →
      s.release i src = s.modifyTally i (fun t => { t with latch := true })) ∧
    (∀ l e, e ∈ (s.store.get l).queue → e.heldFor i = true →
      (∀ k, ∀ d ∈ (s.store.get k).queue, d.heldFor i = true → e.stamp ≤ d.stamp) →
      s.release i src = { s with
        store := s.store.set l { s.store.get l with queue := (s.store.get l).queue.map (fun d =>
          if d.stamp = e.stamp then { d with state := .queued } else d) }
        port := (s.postBoth (.tallyRelease i l e.seq src)).port })

/-! ## The carriage (chapter 4) -/

/-- COUNT_CHANGE moves the counter by one in the direction of R61's table, captures the period and restarts its timer,
in every carriage state but at the count that ends a clear step; with the position untrusted and no homing in progress it
does nothing else (R61, R63, R64, R76). The ticks that the command carries are log entry 2, and the least period of 1 is log entry 8. -/
def Obligations.CountChangeCounts : Prop :=
  ∀ (ch : EncoderChannel) (dt : Nat) (s : State), (s.counted ch dt).counterInRange →
    ((∀ low, s.car.state = .homing (.clear (some low)) → (s.counted ch dt).car.counter < low + 144) → ∃ t : State, exec (.countChange ch dt) s = .next t ∧
      t.car.counter = (s.counted ch dt).car.counter ∧ t.car.period = (s.counted ch dt).car.period ∧
      t.car.periodTimer = 0 ∧ t.car.encA = (s.counted ch dt).car.encA ∧ t.car.encB = (s.counted ch dt).car.encB) ∧
    (s.car.state = .unhomed ∨ s.car.state = .fault → exec (.countChange ch dt) s = .next (s.counted ch dt).settle)

/-- An illegal transition, a stall of a driven carriage and a count out of travel make a carriage whose position is
trusted enter FAULT: the drive and the enable go off, the delay timers stop, every pulse is cut, a pass is abandoned with
its line's later phases and IMPERFECT set, and CARRIAGE FAULT is posted to both links (R59, R62, R72, R73, R91, R98). The line
is that of the granted entry, as `GrantSoundIsKept` keeps it. That
IMPERFECT is set whatever is lost is log entry 17, that STALL leaves the period timer at 200 000 is log entry 2, and that the
report of an abandoned pass empties the repair list is log entry 36. -/
def Obligations.CarriageFaultStopsThePass : Prop :=
  ∀ s : State, s.car.state.trusted = true →
    (∃ t : State, exec .illegalTransition s = .next t ∧ s.Faulted t .encoder ∧
      t.car.encA = !s.car.encA ∧ t.car.encB = !s.car.encB) ∧
    (s.car.state ≠ .stopped → ∃ t : State, exec .stall s = .next t ∧ s.Faulted t .stall ∧ t.car.periodTimer = 200000) ∧
    (∀ ch dt, (s.counted ch dt).counterInRange →
      (s.counted ch dt).car.counter < 0 ∨ travelMost s.width < (s.counted ch dt).car.counter →
      ∃ t : State, exec (.countChange ch dt) s = .next t ∧ (s.counted ch dt).Faulted t .overrun)

/-- A homing fails on an illegal transition, on a stall of a movement step, at -10 600 in the seek step and below -144 in
the settle step: the carriage is UNHOMED, the index disarmed, the engine HALTED(CARRIAGE), and CARRIAGE FAULT posted with
the state HOMING (R62, R72, R76, R77). -/
def Obligations.HomingFailureHalts : Prop :=
  ∀ (s : State) (h : HomingStep), s.car.state = .homing h →
    (∃ t : State, exec .illegalTransition s = .next t ∧ s.HomingFailed t .encoder) ∧
    (h ≠ .rest → ∃ t : State, exec .stall s = .next t ∧ s.HomingFailed t .stall) ∧
    (∀ ch dt, (s.counted ch dt).counterInRange → h = .seek → (s.counted ch dt).car.counter ≤ -10600 →
      ∃ t : State, exec (.countChange ch dt) s = .next t ∧ (s.counted ch dt).HomingFailed t .noIndex) ∧
    (∀ ch dt, (s.counted ch dt).counterInRange → h = .settle → (s.counted ch dt).car.counter < -144 →
      ∃ t : State, exec (.countChange ch dt) s = .next t ∧ (s.counted ch dt).HomingFailed t .overrun)

/-- The course of a homing: the automatic homing from FAULT, the end of the rest step, the index edge, the end of the
clear step after 144 counts, and the completion at position 0 (R74, R76, R77). That the settle step completes on a count
up onto 0, and that the seek step begins at the last of the 144 counts, is log entry 34; that INDEX_EDGE carries the level is
log entry 24, and that AUTOMATIC_HOMING and HOMING_REST_END leave the period timer at 200 000 is log entry 2. -/
def Obligations.HomingRunsItsSteps : Prop :=
  ∀ s : State,
    (s.car.state = .fault → s.drive.state = .stopped → exec .automaticHoming s = .next { s with
      car := { s.car with
        periodTimer := 200000, state := .homing .rest, motion := none, suspended := false, indexArmed := false } }) ∧
    (s.car.state = .homing .rest → s.drive.state = .stopped → s.car.indexHigh = true →
      exec .homingRestEnd s = .next { s with car := { s.car with periodTimer := 200000, state := .homing (.clear none) } }) ∧
    (s.car.state = .homing .rest → s.drive.state = .stopped → s.car.indexHigh = false →
      exec .homingRestEnd s = .next { s with
        car := { s.car with periodTimer := 200000, state := .homing .seek, counter := 0, indexArmed := true } }) ∧
    (s.car.indexHigh = false → s.car.indexArmed = true → exec (.indexEdge true) s = .next { s with
      car := { s.car with indexHigh := true, indexArmed := false, counter := 0, state := .homing .settle } }) ∧
    (s.car.indexHigh = true ∨ s.car.indexArmed = false →
      exec (.indexEdge true) s = .next { s with car := { s.car with indexHigh := true } }) ∧
    (s.car.indexHigh = true → s.car.state = .homing (.clear none) → exec (.indexEdge false) s = .next { s with
      car := { s.car with indexHigh := false, state := .homing (.clear (some s.car.counter)) } }) ∧
    (s.car.state ≠ .homing (.clear none) →
      exec (.indexEdge false) s = .next { s with car := { s.car with indexHigh := false } }) ∧
    (∀ ch dt low, (s.counted ch dt).counterInRange → s.car.state = .homing (.clear (some low)) →
      low + 144 ≤ (s.counted ch dt).car.counter → ∃ t : State, exec (.countChange ch dt) s = .next t ∧
        t.car.state = .homing .seek ∧ t.car.counter = 0 ∧ t.car.indexArmed = true) ∧
    (∀ ch dt, s.car.state = .homing .settle → s.car.counter = -1 → s.countsUp ch = true →
      ∃ t : State, exec (.countChange ch dt) s = .next t ∧ t.car.state = .stopped ∧ t.car.counter = 0)

/-- A positioning move follows its profile, on its way alone, and a pass its zones, whose counts alone change its state and
which a count against its direction leaves; the velocity window judges each count change in CRUISE. A pass ends at its end point: the timers still RUNNING and the entries not reached are missed, the struck
dots count, a substitution pass that struck sets SUBSTITUTED, and the misses become repair candidates, are lost, or are left
to the substitution, the repair list being empty after it. Each pin of a mask stands for the dot of the row that it strikes in
that pass, and each item of the repair list for the dot of its row (R41, R50, R53, R54, R56, R67, R68, R70, R80, R85, R87). A count
against a positioning move is log entry 39, the order of the two timers at the end log entry 35, the emptied list log entry
36; the ticks of a count and the timer that OPEN_PERIOD_SUSPENSION leaves are log entry 2. -/
def Obligations.PassFollowsZonesAndWindow : Prop :=
  (∀ p : Nat, (insideWindow .draft p = true ↔ 608 ≤ p ∧ p ≤ 780) ∧ (insideWindow .normal p = true ↔ 810 ≤ p ∧ p ≤ 1040) ∧
    (insideWindow .heavy p = true ↔ 1215 ≤ p ∧ p ≤ 1561) ∧ (insideWindow .creep p = true ↔ 2430 ≤ p ∧ p ≤ 3124)) ∧
  (∀ (ch : EncoderChannel) (dt : Nat) (s : State) (m : CarMotion) (x d : Int), s.car.motion = some m → m.leg = .pass →
    x = (s.counted ch dt).car.counter → d = (match m.dir with | .right => 1 | .left => -1) →
    0 ≤ x → x ≤ travelMost s.width →
    (s.car.state = .rampUp → x - s.car.counter = d → x = m.firstTrigger - 12 * d → x ≠ m.lastTrigger + 13 * d →
      x ≠ m.endPoint → ∃ t : State, exec (.countChange ch dt) s = .next t ∧ t.car.state = .cruise) ∧
    (s.car.state = .cruise → x - s.car.counter = d → x = m.lastTrigger + 13 * d → x ≠ m.endPoint →
      ∃ t : State, exec (.countChange ch dt) s = .next t ∧ t.car.state = .rampDown ∧ t.car.enable = false) ∧
    (s.car.state = .rampDown → x - s.car.counter = d → x = m.endPoint →
      ∃ t : State, exec (.countChange ch dt) s = .next t ∧ t.car.state = .stopped ∧ t.car.motion = none ∧
        t.sequ.walking = false ∧ t.sequ.timerA = .idle ∧ t.sequ.timerB = .idle ∧ t.sequ.repairs = [] ∧
        t.sequ.overflow = false) ∧
    (s.car.state = .rampUp → x - s.car.counter = d → x ≠ m.firstTrigger - 12 * d → x ≠ m.lastTrigger + 13 * d →
      x ≠ m.endPoint → ∃ t : State, exec (.countChange ch dt) s = .next t ∧ t.car.state = .rampUp ∧
        t.car.motion = some m ∧ t.car.enable = false) ∧
    (s.car.state = .rampDown → x - s.car.counter = d → x ≠ m.endPoint → ∃ t : State,
      exec (.countChange ch dt) s = .next t ∧ t.car.state = .rampDown ∧ t.car.motion = some m ∧ t.car.enable = false) ∧
    (s.car.state = .rampUp ∨ s.car.state = .cruise ∨ s.car.state = .rampDown → x - s.car.counter ≠ d → ∃ t : State,
      exec (.countChange ch dt) s = .next t ∧ t.car.state = s.car.state ∧ t.car.motion = some m ∧
        (s.sequ.dir = m.dir → t.sequ = (s.counted ch dt).sequ)) ∧
    (∀ q, s.car.state = .rampDown → x - s.car.counter = d → x = m.endPoint → s.lists[s.sequ.list.val] = .striking q →
      (∀ e, q.entries[s.sequ.head]? = some e → e.trigger ≠ x) →
      exec (.countChange ch dt) s = .next (({ s.counted ch dt with
        car := { (s.counted ch dt).car with state := .stopped, motion := none, suspended := false } }).walkEnd.endPass.handOver.settle)) ∧
    (s.car.state = .cruise → x ≠ m.lastTrigger + 13 * d → x ≠ m.endPoint →
      ∃ t : State, exec (.countChange ch dt) s = .next t ∧ t.car.state = .cruise ∧
        (t.car.suspended = false ↔ x - s.car.counter = d ∧ insideWindow m.cls (s.counted ch dt).car.period = true))) ∧
  (∀ (ch : EncoderChannel) (dt : Nat) (s : State) (m : CarMotion) (o x k : Int) (n : Nat), s.car.motion = some m →
    m.leg = .positioning o → s.car.state.trusted = true → x = (s.counted ch dt).car.counter → 0 ≤ x → x ≤ travelMost s.width →
    n = (m.startPoint - o).natAbs → k = (if o ≤ m.startPoint then x - o else o - x) →
    ((x - s.car.counter = 1 ↔ o ≤ m.startPoint) →
      (x = m.startPoint → ∃ t : State, exec (.countChange ch dt) s = .next t ∧ t.car.state = .rampUp ∧
        t.car.motion = some { m with leg := .pass } ∧ t.car.suspended = false) ∧
      (x ≠ m.startPoint → k = (n - min m.cls.ramp (n - n / 2) : Nat) →
        ∃ t : State, exec (.countChange ch dt) s = .next t ∧ t.car.state = .rampDown) ∧
      (x ≠ m.startPoint → s.car.state = .rampUp → k = min m.cls.ramp (n / 2) → k ≠ (n - min m.cls.ramp (n - n / 2) : Nat) →
        ∃ t : State, exec (.countChange ch dt) s = .next t ∧ t.car.state = .cruise ∧ t.car.enable = false) ∧
      (x ≠ m.startPoint → k ≠ min m.cls.ramp (n / 2) → k ≠ (n - min m.cls.ramp (n - n / 2) : Nat) →
        ∃ t : State, exec (.countChange ch dt) s = .next t ∧ t.car.state = s.car.state)) ∧
    ((x - s.car.counter = 1 ↔ ¬ o ≤ m.startPoint) →
      ∃ t : State, exec (.countChange ch dt) s = .next t ∧ t.car.state = s.car.state ∧ t.car.motion = some m)) ∧
  (∀ (s : State) (m : CarMotion), s.car.motion = some m → m.leg = .pass → s.car.state = .cruise →
    exec .openPeriodSuspension s = .next { s with
      car := { s.car with suspended := true, periodTimer := max s.car.periodTimer (9 * nominalPeriod m.cls / 8 + 1) } }) ∧
  (∀ (s : State) (q : PassPlan) (late : List StrikeEntry) (missed : List RepairItem),
    s.lists[s.sequ.list.val] = .striking q → s.sequ.repairs.length ≤ 5120 →
    late = (match s.sequ.timerA with | .running _ i => q.entries[i]?.toList | .idle => []) ++
      (match s.sequ.timerB with | .running _ i => q.entries[i]?.toList | .idle => []) ++ q.entries.drop s.sequ.head →
    missed = (late.map (fun e => (pinsOf e.rowMask).map (fun p =>
      (⟨e.column, ((p.val : Int) + q.pass.rowShift).toNat, p⟩ : RepairItem)))).flatten →
    ∃ o : Bool, s.walkEnd = { s with sequ := { s.sequ with
      walking := false, timerA := .idle, timerB := .idle, repairs := (s.sequ.repairs ++ missed).take 5120, overflow := o } } ∧
      (o = true ↔ s.sequ.overflow = true ∨ 5120 < s.sequ.repairs.length + missed.length)) ∧
  (∀ (s : State) (i : Fin 2) (q : PassPlan) (c : LineContext) (e : Entry) (es : List Entry) (struck missed : DotSet)
      (u : DotSet → State),
    s.lists[i.val] = .striking q → (∀ j : Fin 2, j ≠ i → ∀ x, s.lists[j.val] ≠ .striking x) → s.line = some c →
    (s.store.get c.link).queue = e :: es → struck = entryDots q.pass (·.struckMask) q.entries →
    missed = entryDots q.pass (fun e => e.rowMask &&& ~~~e.struckMask) q.entries →
    (∀ r, u r = { s with
      line := some { c with unstruck := dotsDiff c.unstruck struck, repairs := r }
      store := s.store.set c.link { s.store.get c.link with queue := { e with
        result := { e.result with
          substituted := e.result.substituted || (decide (q.rowShift ≠ 0) && !struck.isEmpty) } } :: es }
      lists := s.lists.set i.val .free }) →
    (∀ h, q.pass = .main h → s.sequ.overflow = false →
      s.endPass = (u (dotsUnion (repairDots s.sequ.repairs) c.repairs)).afterPass q.pass) ∧
    (∀ h, q.pass = .main h → s.sequ.overflow = true →
      s.endPass = ((u (dotsUnion (repairDots s.sequ.repairs) c.repairs)).loseDots
        (dotsInRows (~~~s.failedPins) (dotsDiff missed (repairDots s.sequ.repairs))) false).afterPass q.pass) ∧
    (q.pass = .repair →
      s.endPass = ((u []).loseDots (dotsInRows (~~~s.failedPins) missed) false).afterPass .repair) ∧
    (∀ h, q.pass = .up h ∨ q.pass = .down h → s.endPass = ((u c.repairs).loseDots missed false).afterPass q.pass)) ∧
  (∀ (p : PassId) (mask : StrikeEntry → Rows) (es : List StrikeEntry) (items : List RepairItem) (k : Nat) (r : Pin),
    ((dotsAt (entryDots p mask es) k).getLsbD r.val = true ↔ ∃ e ∈ es, e.column = k ∧ ∃ i : Pin,
      (mask e).getLsbD i.val = true ∧ (r.val : Int) = i.val + (match p with | .up _ => 1 | .down _ => -1 | _ => 0)) ∧
    ((dotsAt (repairDots items) k).getLsbD r.val = true ↔ ∃ i ∈ items, i.column = k ∧ i.row = r.val)) ∧
  (∀ (d e : DotSet) (k : Nat), (d.map (·.1)).Nodup → (e.map (·.1)).Pairwise (· < ·) →
    dotsAt (dotsUnion d e) k = dotsAt d k ||| dotsAt e k)

/-! ## Planning and striking (chapters 1, 3, 5, 6) -/

/-- PLAN_COMPLETE makes a BUILDING list READY and begins the dwell of a plan taken at HOT when no pass is being struck;
DWELL_RUNS_OUT ends it. A pass is planned at its plan time from the dots of pins that are not FAILED: it takes the FREE list,
which becomes BUILDING; with no dots it is not made; a whole pass of more than 5 120 entries becomes its even half, a repair
pass takes the direction of the last main pass and its first 5 120 entries, and the dots that a substitution pass cannot
strike are lost with DEGRADED. The carriage position that a plan takes is the counter with the carriage STOPPED and 0 in
UNHOMED, HOMING and FAULT. A pin is FAILED exactly when the health of its record is. A half takes the dots of the columns of its
parity, and the dots beyond the capacity are those that the entries stand for (R41 to R44, R46, R52, R53, R101, R120). That completion and expiry are commands of their
own is log entry 14. -/
def Obligations.PlanCompletesAndDwells : Prop :=
  (∀ (s : State) (i : Fin 2) (q : PassPlan), s.lists[i.val] = .building q →
    (∀ j : Fin 2, j ≠ i → ∀ x, s.lists[j.val] ≠ .building x) →
    (s.dwell ≠ .waiting → exec .planComplete s = .next { s with lists := s.lists.set i.val (.ready q) }) ∧
    (s.dwell = .waiting → (∀ (j : Fin 2) x, s.lists[j.val] ≠ .striking x) →
      exec .planComplete s = .next { s with lists := s.lists.set i.val (.ready q), dwell := .running 500000 }) ∧
    (∀ (j : Fin 2) x, s.dwell = .waiting → s.lists[j.val] = .striking x →
      exec .planComplete s = .next { s with lists := s.lists.set i.val (.ready q) })) ∧
  (∀ (s : State) (n : Nat), s.dwell = .running n → exec .dwellRunsOut s = .next { s with dwell := .over }) ∧
  (∀ (s t : State) (p q : PassId) (pos : Int),
    ((s.planPass p s.planPosition = (t, some q) → s.planNow p = t.setStage (.planned q)) ∧
    (s.planPass p s.planPosition = (t, none) → s.planNow p = t.afterPass p)) ∧
    (s.planPass p pos = (t, some q) → s.planOdd p pos = t.modifyLine (fun c => { c with oddPlanned := true })) ∧
    (s.planPass p pos = (t, none) → s.planOdd p pos = t.modifyLine (fun c => { c with oddPlanned := false }))) ∧
  (∀ (s : State) (c : LineContext) (f : LineFields) (pos : Int) (x : Nat) (i : Fin 2) (inputs : PlanInputs)
      (put : State → PassPlan → State),
    s.line = some c → s.lineFields = some f → s.heat.supply = some x → s.lists[i.val] = .free →
    (i = 1 → s.lists[0] ≠ .free) →
    inputs = ⟨s.width, s.heat.thermal, x, s.arb.head.gap, s.arb.head.trim, s.arb.head.uni, pos⟩ →
    (∀ w q, put w q = { w with
      lists := w.lists.set i.val (.building q), dwell := if s.heat.thermal = .hot then .waiting else .none }) →
    (∀ (h : Half) (ps : List Proto),
      ps = protosOf f (.main h) (dotsInRows (~~~s.failedPins) (dotsOfHalf h c.unstruck)) →
      (ps = [] → s.planPass (.main h) pos = (s, none)) ∧
      (ps ≠ [] → h ≠ .whole ∨ ps.length ≤ 5120 →
        s.planPass (.main h) pos = (put s (makePlan inputs f (.main h) none ps), some (.main h))) ∧
      (h = .whole → 5120 < ps.length → s.planPass (.main h) pos = (put s (makePlan inputs f (.main .even) none
        (protosOf f (.main .even) (dotsOfHalf .even (dotsInRows (~~~s.failedPins) c.unstruck)))), some (.main .even)))) ∧
    (∀ (h : Half) (p : PassId) (rows : Rows) (dots : DotSet) (ps : List Proto) (w : State),
      (p = .up h ∧ rows = s.failedPins <<< 1 ∧ dots = dotsOfHalf h (dotsInter c.upGroup c.unstruck)) ∨
        (p = .down h ∧ rows = s.failedPins >>> 1 ∧ dots = dotsOfHalf h (dotsInter c.downGroup c.unstruck)) →
      w = s.loseDots (dotsInRows rows dots) true → ps = protosOf f p (dotsInRows (~~~rows) dots) →
      (ps = [] → s.planPass p pos = (w, none)) ∧
      (ps ≠ [] → h ≠ .whole ∨ ps.length ≤ 5120 → s.planPass p pos = (put w (makePlan inputs f p none ps), some p)) ∧
      (∀ q, h = .whole → 5120 < ps.length → (p = .up h ∧ q = .up .even) ∨ (p = .down h ∧ q = .down .even) →
        s.planPass p pos = (put w (makePlan inputs f q none
          (protosOf f q (dotsOfHalf .even (dotsInRows (~~~rows) dots)))), some q))) ∧
    (∀ (ps sorted : List Proto) (d : Dir),
      ps = protosOf f .repair (dotsInRows (~~~s.failedPins) (dotsInter c.repairs c.unstruck)) →
      c.lastMainDir = some d → sorted = sortProtos d ps →
      (ps = [] → s.planPass .repair pos = (s, none)) ∧
      (ps ≠ [] → s.planPass .repair pos = (put (s.loseDots (protoDots .repair (sorted.drop 5120)) false)
        (makePlan inputs f .repair (some d) (protosOf f .repair (protoDots .repair (sorted.take 5120)))), some .repair)))) ∧
  (∀ (s : State) (p : Pin), (s.isFailed p = true ↔ (s.pinRecord p).health = .failed) ∧
    s.failedPins.getLsbD p.val = s.isFailed p ∧ s.pinRecord p = s.health[p.val]) ∧
  (∀ (h : Half) (d : DotSet) (k : Nat), dotsAt (dotsOfHalf h d) k =
    if h = .whole ∨ (h = .even ∧ k % 2 = 0) ∨ (h = .odd ∧ k % 2 = 1) then dotsAt d k else 0) ∧
  (∀ (p : PassId) (ps : List Proto) (k : Nat) (r : Pin), (dotsAt (protoDots p ps) k).getLsbD r.val = true ↔
    ∃ x ∈ ps, x.column = k ∧ ∃ i : Pin, x.pins.getLsbD i.val = true ∧
      (r.val : Int) = i.val + (match p with | .up _ => 1 | .down _ => -1 | _ => 0)) ∧
  (∀ (d : Dir) (ps : List Proto), (sortProtos d ps).Perm ps ∧ (sortProtos d ps).Pairwise (fun a b =>
    (match d with | .right => a.base < b.base | .left => b.base < a.base) ∨
      (a.base = b.base ∧ (a.col = .colA ∨ b.col = .colB)))) ∧
  (∀ s : State, (s.car.state = .stopped → s.planPosition = s.car.counter) ∧
    (s.car.state ≠ .stopped → s.planPosition = 0) ∧
    (∀ f, s.lineFields = some f ↔ ∃ c e, s.line = some c ∧ s.headEntry c.link = some e ∧ e.record = .line f) ∧
    (s.dwell = .waiting → (∃ (i : Fin 2) (q : PassPlan), s.lists[i.val] = .ready q) →
      (∀ (i : Fin 2) (q : PassPlan), s.lists[i.val] ≠ .striking q) → s.beginDwell = { s with dwell := .running 500000 }) ∧
    (s.dwell ≠ .waiting ∨ (∃ (i : Fin 2) (q : PassPlan), s.lists[i.val] = .striking q) ∨
      (∀ (i : Fin 2) (q : PassPlan), s.lists[i.val] ≠ .ready q) → s.beginDwell = s))

/-- CARRIAGE_START of a pass whose five conditions hold: with a gate closed the plan is discarded and its pass is due again;
else its list becomes STRIKING and the servo takes it, by a positioning move or, at the start point, at once, with the
Sequencer WALKING, where a repair pass sets REPAIRED; with an even half, the odd half is planned from its end point (R42, R46,
R47, R50, R52, R53, R67, R68, R81). That the start is a command of its own is log entry 14; that the list is STRIKING and
the last direction recorded before the positioning move, and REPAIRED set after it, is log entry 31; that a positioning move of
one count begins in RAMP_DOWN is log entry 39. -/
def Obligations.CarriageStartTakesThePlan : Prop :=
  ∀ (s : State) (c : LineContext) (i : Fin 2) (p : PassId) (q : PassPlan) (m : CarMotion) (u v : State),
    s.line = some c → c.stage = .planned p → s.lists[i.val] = .ready q →
    (∀ j : Fin 2, j ≠ i → ∀ x, s.lists[j.val] ≠ .ready x ∧ s.lists[j.val] ≠ .striking x) →
    s.dwell = .none ∨ s.dwell = .over → s.drive.state = .stopped → s.car.state = .stopped →
    m = ⟨.positioning s.car.counter, q.dir, q.cls, q.startPoint, q.endPoint, q.firstTrigger, q.lastTrigger⟩ →
    u = { s with
      lists := s.lists.set i.val (.striking q)
      dwell := .none
      line := some { c with
        stage := .striking p
        lastMainDir := match p with | .main _ => some q.dir | _ => c.lastMainDir }
      car := { s.car with
        state := if (q.startPoint - s.car.counter).natAbs = 1 then .rampDown else .rampUp
        motion := some m, suspended := false } } →
    (s.heat.thermal = .limit ∨ s.heat.lowSupply = true → exec .carriageStart s = .next { s with
      lists := s.lists.map (fun x => if x.isWaiting then .free else x)
      dwell := .none
      line := some { c with stage := .planDue (match p with
        | .main .even => .main .whole
        | .up .even => .up .whole
        | .down .even => .down .whole
        | x => x) } }) ∧
    (s.heat.thermal ≠ .limit → s.heat.lowSupply = false →
      (s.car.counter ≠ q.startPoint → v = u) →
      (s.car.counter = q.startPoint → q.pass ≠ .repair → v = { u with
        car := { u.car with motion := some { m with leg := .pass } }
        sequ := ⟨true, i, q.dir, q.fraction, q.driveTime, 0, .idle, .idle, [], false⟩ }) →
      (s.car.counter = q.startPoint → q.pass = .repair → ∃ e es, (s.store.get c.link).queue = e :: es ∧ v = { u with
        car := { u.car with motion := some { m with leg := .pass } }
        sequ := ⟨true, i, q.dir, q.fraction, q.driveTime, 0, .idle, .idle, [], false⟩
        store := s.store.set c.link { s.store.get c.link with queue :=
          { e with result := { e.result with repaired := true } } :: es } }) →
      (p ≠ .main .even → p ≠ .up .even → p ≠ .down .even → exec .carriageStart s = .next v) ∧
      (∀ odd, (p = .main .even ∧ odd = .main .odd) ∨ (p = .up .even ∧ odd = .up .odd) ∨ (p = .down .even ∧ odd = .down .odd) →
        exec .carriageStart s = .next (v.planOdd odd q.endPoint)))

/-- The flight time and the lead of every gap level and class; a plan computes its lead once and takes every target with
it (R7, R8). -/
def Obligations.FlightTimeAndLead : Prop :=
  (∀ g, 1 ≤ g → g ≤ 6 → flightTime g = 300 + 40 * (g - 1)) ∧
  [1, 2, 3, 4, 5, 6].map flightTime = [300, 340, 380, 420, 460, 500] ∧
  (∀ c g, leadOf c g = (c.speed * flightTime g * 16 + 500000) / 1000000) ∧
  [1, 2, 3, 4, 5, 6].map (leadOf .draft) = [69, 78, 88, 97, 106, 115] ∧
  [1, 2, 3, 4, 5, 6].map (leadOf .normal) = [52, 59, 66, 73, 79, 86] ∧
  [1, 2, 3, 4, 5, 6].map (leadOf .heavy) = [35, 39, 44, 48, 53, 58] ∧
  [1, 2, 3, 4, 5, 6].map (leadOf .creep) = [17, 20, 22, 24, 26, 29] ∧
  (∀ (i : PlanInputs) (f : LineFields) (p : PassId) (fixed : Option Dir) (ps : List Proto) (q : PassPlan),
    q = makePlan i f p fixed ps → q.lead = leadOf q.cls i.gap ∧
      ∀ e ∈ q.entries, ∃ x ∈ ps, e.target = targetOf q.dir x.base q.lead i.trim)

/-- The target, the trigger count and the fraction of a strike: the trigger count is the last whole count before the target
in the direction of travel, the fraction is what remains, one value for the whole pass, and entries of one pin column a
whole number of counts apart have trigger counts that far apart. The drive time of a pass from gap level and supply, and
the pin cycle. The counts between dot columns at each density, and the ends of travel at each width. A dot is clipped outside the
window, and every dot of a line is strikable or clipped (R3, R4, R5, R9, R10, R14, R15). -/
def Obligations.FirePointArithmetic : Prop :=
  (∀ (base trim : Int) (lead : Nat),
    targetOf .right base lead trim = 16 * base - lead ∧ targetOf .left base lead trim = 16 * base + lead + 16 * trim ∧
    (∀ T : Int, 16 * triggerOf .right T ≤ T ∧ T < 16 * (triggerOf .right T + 1) ∧
      16 * (triggerOf .left T - 1) < T ∧ T ≤ 16 * triggerOf .left T ∧
      (fractionOf .right T : Int) = T - 16 * triggerOf .right T ∧ (fractionOf .left T : Int) = 16 * triggerOf .left T - T ∧
      fractionOf .right T ≤ 15 ∧ fractionOf .left T ≤ 15) ∧
    (∀ d, fractionOf d (targetOf d base lead trim) = (16 - lead % 16) % 16) ∧
    (∀ (d : Dir) (n : Int), triggerOf d (targetOf d (base + n) lead trim) = triggerOf d (targetOf d base lead trim) + n)) ∧
  (∀ g v : Nat, driveTimeOf g v = max 60 (min 400 ((120 + 20 * (g - 1)) * 240 / max 190 (min 300 v))) ∧
    pinCycle (driveTimeOf g v) = driveTimeOf g v + 40 + 140 ∧
    (1 ≤ g → g ≤ 6 → 96 ≤ driveTimeOf g v ∧ driveTimeOf g v ≤ 277)) ∧
  (∀ (i : PlanInputs) (f : LineFields) (p : PassId) (fixed : Option Dir) (ps : List Proto) (q : PassPlan),
    q = makePlan i f p fixed ps → q.driveTime = driveTimeOf i.gap i.supply ∧ q.cycle = q.driveTime + 180 ∧
      q.fraction = (16 - q.lead % 16) % 16) ∧
  (∀ (w : Width) (f : LineFields) (most x : Nat), most = (match w with | .wide => 9719 | .narrow => 5975) →
    (clippedAt w x = true ↔ x < 216 ∨ most < x) ∧
    (∀ y, y ∈ strikableDots w f ↔ y ∈ lineDots f ∧ 216 ≤ f.origin + y.1 * f.density.counts ∧
      f.origin + y.1 * f.density.counts ≤ most) ∧
    clippedCount w f + dotsCount (strikableDots w f) = dotsCount (lineDots f) ∧
    lineDots f = (readChain f.segments f.chain).filter (fun y => y.2 ≠ 0)) ∧
  [Density.dpi120, .dpi144, .dpi180, .dpi240, .dpi360].map Density.counts = [6, 5, 4, 3, 2] ∧
  travelMost .wide = 10239 ∧ travelMost .narrow = 6655

/-- The class of a pass: it starts at the slower of cap and ceiling and falls until the same-pin spacing holds, which at
CREEP it always does, and then until both points of the pass, which lie a ramp distance beyond its least and its greatest
trigger count, lie in travel, which they do at the class taken for every pass of dots in the printable window at a legal gap
and trim. The trigger count of such a dot lies in 136 to 9 734, or to 5 990 on the narrow carriage. A plan takes that class (R16,
R17, R45, R49, R119). -/
def Obligations.PassClassIsLegal : Prop :=
  (∀ (k n : Nat) (ps : List Proto), (∀ p : Pin, (columnsOfPin ps p).Pairwise (· < ·)) →
    (spacingOk k n ps = true ↔
      ∀ p : Pin, ∀ a ∈ columnsOfPin ps p, ∀ b ∈ columnsOfPin ps p, a < b → n ≤ (b - a) * k)) ∧
  (∀ t c, (startingClass t c).rank = max c.rank (match t with | .cool => 0 | .warm => 1 | .hot => 2 | .limit => 2)) ∧
  (∀ (i : PlanInputs) (f : LineFields) (ps : List Proto) (c : SpeedClass) (ok : SpeedClass → Bool),
    c = spacingClass i f ps →
    (∀ d, ok d = spacingOk f.density.counts ((pinCycle (driveTimeOf i.gap i.supply) * d.speed + 999999) / 1000000) ps) →
    (startingClass i.thermal f.ceiling).rank ≤ c.rank ∧
    (∀ d, (startingClass i.thermal f.ceiling).rank ≤ d.rank → d.rank < c.rank → ok d = false) ∧
    (1 ≤ i.gap → i.gap ≤ 6 → (∀ p : Pin, (columnsOfPin ps p).Pairwise (· < ·)) → ok c = true)) ∧
  (∀ (i : PlanInputs) (d : Dir) (ps : List Proto) (c e : SpeedClass) (ok : SpeedClass → Prop), e = rampClass i d ps c →
    (∀ k, ok k ↔ (0 ≤ (pointsOf d k i.gap i.trim ps).1 ∧ (pointsOf d k i.gap i.trim ps).1 ≤ travelMost i.width ∧
      0 ≤ (pointsOf d k i.gap i.trim ps).2 ∧ (pointsOf d k i.gap i.trim ps).2 ≤ travelMost i.width)) →
    c.rank ≤ e.rank ∧ (∀ k, c.rank ≤ k.rank → k.rank < e.rank → ¬ ok k) ∧ (ok e ∨ e = .creep) ∧
    (∀ most : Int, most = (match i.width with | .wide => 9719 | .narrow => 5975) → ps ≠ [] → 1 ≤ i.gap → i.gap ≤ 6 →
      -8 ≤ i.trim → i.trim ≤ 7 →
      (∀ y ∈ ps, 216 ≤ y.base + (if y.col = .colA then 0 else 72) ∧ y.base + (if y.col = .colA then 0 else 72) ≤ most) →
      ok e)) ∧
  (∀ (d : Dir) (k : SpeedClass) (gap : Nat) (trim base x most : Int), 1 ≤ gap → gap ≤ 6 → -8 ≤ trim → trim ≤ 7 →
    216 ≤ x → x ≤ most → base = x ∨ base = x - 72 →
    136 ≤ triggerOf d (targetOf d base (leadOf k gap) trim) ∧ triggerOf d (targetOf d base (leadOf k gap) trim) ≤ most + 15) ∧
  (∀ (d : Dir) (k : SpeedClass) (gap : Nat) (trim : Int) (ps : List Proto) (ts : List Int) (x : Int × Int), ps ≠ [] →
    ts = ps.map (fun y => triggerOf d (targetOf d y.base (leadOf k gap) trim)) → x = pointsOf d k gap trim ps →
    x.1 + k.ramp ∈ ts ∧ (∀ y ∈ ts, x.1 + k.ramp ≤ y) ∧ x.2 - k.ramp ∈ ts ∧ (∀ y ∈ ts, y ≤ x.2 - k.ramp)) ∧
  [SpeedClass.draft, .normal, .heavy, .creep].map SpeedClass.ramp = [288, 216, 144, 72] ∧
  [SpeedClass.draft, .normal, .heavy, .creep].map SpeedClass.rank = [0, 1, 2, 3] ∧
  (∀ (i : PlanInputs) (f : LineFields) (p : PassId) (fixed : Option Dir) (ps : List Proto) (q : PassPlan),
    q = makePlan i f p fixed ps → q.cls = rampClass i q.dir ps (spacingClass i f ps))

/-- The dots of a pass make one entry for each dot column and pin column that has one: the even or the odd pins that strike
its rows, shifted by one in a substitution pass, and the paper position less the offset of the pin column. The strike list of a
plan holds these, each with its target, in the order of targets in the direction of travel, the column A entry first at equal
targets. The first and the last trigger counts are those of its first and last entries, and the start and the end point lie a
ramp distance before and beyond them. The direction is that of the last main pass for a repair
pass, rightward for a line that is aligned or under UNI, the one that the record asks for, or under AUTO the one whose start
point is nearer, rightward at equal distances (R1, R4, R9, R44, R46 to R52). -/
def Obligations.StrikeListIsInTravelOrder : Prop :=
  (∀ (f : LineFields) (p : PassId) (d : DotSet) (strikes : Rows → Pin → Bool), (d.map (·.1)).Pairwise (· < ·) →
    (∀ (m : Rows) (i : Pin), strikes m i = (match p with
      | .up _ => m.getLsbD (i.val + 1)
      | .down _ => decide (1 ≤ i.val) && m.getLsbD (i.val - 1)
      | _ => m.getLsbD i.val)) →
    (protosOf f p d).Pairwise (fun a b => a.column < b.column ∨ (a.column = b.column ∧ a.col = .colA ∧ b.col = .colB)) ∧
    (∀ x : Proto, x ∈ protosOf f p d ↔ x.pins ≠ 0 ∧ ∃ m, (x.column, m) ∈ d ∧
      (∀ i : Pin, x.pins.getLsbD i.val = (strikes m i && decide (i.val % 2 = if x.col = .colA then 0 else 1))) ∧
      x.base = ((f.origin + x.column * f.density.counts : Nat) : Int) - (if x.col = .colA then 0 else 72))) ∧
  ∀ (i : PlanInputs) (f : LineFields) (p : PassId) (fixed : Option Dir) (ps : List Proto) (q : PassPlan),
    q = makePlan i f p fixed ps →
    (q.entries.map (fun e => (e.column, e.col, e.rowMask, e.target))).Perm
      (ps.map (fun x => (x.column, x.col, x.pins, targetOf q.dir x.base q.lead i.trim))) ∧
    (q.pass = p ∧ q.gap = i.gap ∧ q.trim = i.trim ∧ q.supply = i.supply ∧ (q.hot = true ↔ i.thermal = .hot) ∧
      q.rowShift = p.rowShift ∧ p.rowShift = (match p with | .up _ => 1 | .down _ => -1 | _ => 0)) ∧
    (∀ (a b : StrikeEntry) (r : Int), q.entries.head? = some a → q.entries.getLast? = some b →
      r = (match q.dir with | .right => (q.cls.ramp : Int) | .left => -(q.cls.ramp : Int)) →
      q.firstTrigger = a.trigger ∧ q.lastTrigger = b.trigger ∧ q.startPoint = a.trigger - r ∧ q.endPoint = b.trigger + r) ∧
    (∀ e ∈ q.entries, e.struckMask = 0 ∧ e.trigger = triggerOf q.dir e.target ∧ e.fraction = fractionOf q.dir e.target) ∧
    (q.dir = .right → q.entries.Pairwise (fun a b => a.target < b.target ∨
      (a.target = b.target ∧ (a.col = .colA ∨ b.col = .colB)))) ∧
    (q.dir = .left → q.entries.Pairwise (fun a b => b.target < a.target ∨
      (a.target = b.target ∧ (a.col = .colA ∨ b.col = .colB)))) ∧
    (∀ d, fixed = some d → q.dir = d) ∧
    (fixed = none → f.unidirAlign = true ∨ i.uni = true → q.dir = .right) ∧
    (fixed = none → f.unidirAlign = false → i.uni = false →
      (f.dirRequest = .right → q.dir = .right) ∧ (f.dirRequest = .left → q.dir = .left) ∧
      (∀ (cls : SpeedClass) (r l : Int), f.dirRequest = .auto → ps ≠ [] → cls = spacingClass i f ps →
        (∀ x ∈ ps, r + cls.ramp ≤ triggerOf .right (targetOf .right x.base (leadOf cls i.gap) i.trim)) →
        (∃ x ∈ ps, r + cls.ramp = triggerOf .right (targetOf .right x.base (leadOf cls i.gap) i.trim)) →
        (∀ x ∈ ps, triggerOf .left (targetOf .left x.base (leadOf cls i.gap) i.trim) ≤ l - cls.ramp) →
        (∃ x ∈ ps, triggerOf .left (targetOf .left x.base (leadOf cls i.gap) i.trim) = l - cls.ramp) →
        (q.dir = .right ↔ (i.position - r).natAbs ≤ (i.position - l).natAbs)))

/-- A count in the pass direction in CRUISE reaches the entry at the head pointer whose trigger count it is, and with it the
next one of the same trigger count, of the other pin column: with P inside the window its column timer runs for
floor(f P / 16) ticks, or at 0 it fires at once, its pins struck into DRIVE, with their heat and their marks, or missed; or it
is missed when that timer runs; with P outside the window it is passed. The misses join the repair list in order, up to 5 120
items. A count against the pass direction, or onto no trigger count, leaves the Sequencer
(R70, R82, R83, R84, R86, R87, R89, R112). The ticks that the command carries are log entry 2. -/
def Obligations.CountReachesTheHeadEntry : Prop :=
  ∀ (ch : EncoderChannel) (dt : Nat) (s u : State) (m : CarMotion) (q : PassPlan) (x d : Int) (i : Nat),
    s.car.state = .cruise → s.car.motion = some m → m.leg = .pass → u = s.counted ch dt → x = u.car.counter →
    0 ≤ x → x ≤ travelMost s.width → d = (match m.dir with | .right => 1 | .left => -1) →
    x ≠ m.lastTrigger + 13 * d → x ≠ m.endPoint →
    s.sequ.walking = true → s.sequ.dir = m.dir → s.sequ.head = i → s.lists[s.sequ.list.val] = .striking q →
    (x - s.car.counter ≠ d ∨ (∀ e, q.entries[i]? = some e → e.trigger ≠ x) →
      ∃ t : State, exec (.countChange ch dt) s = .next t ∧ t.sequ = u.sequ) ∧
    (∀ e b, x - s.car.counter = d → q.entries[i]? = some e → e.trigger = x → q.entries[i + 1]? = some b → b.trigger = x →
      ∃ t : State, exec (.countChange ch dt) s = .next t ∧ t.sequ.head = i + 2) ∧
    (∀ (hit : List StrikeEntry) (n : Nat) (open_ : StrikeEntry → Bool) (struck : StrikeEntry → Pin → Bool)
        (missed : List RepairItem),
      x - s.car.counter = d →
      (∃ e, hit = [e] ∧ q.entries[i]? = some e ∧ e.trigger = x ∧ ∀ b, q.entries[i + 1]? = some b → b.trigger ≠ x) ∨
        (∃ e b, hit = [e, b] ∧ q.entries[i]? = some e ∧ e.trigger = x ∧ q.entries[i + 1]? = some b ∧ b.trigger = x ∧
          e.col ≠ b.col ∧ e.rowMask &&& b.rowMask = 0) →
      n = s.sequ.fraction * u.car.period / 16 → s.sequ.repairs.length ≤ 5120 →
      (∀ e, open_ e = (insideWindow m.cls u.car.period && decide (u.sequ.timer e.col = .idle))) →
      (∀ e p, struck e p = (open_ e && n == 0 && e.rowMask.getLsbD p.val && !s.isFailed p && (u.channel p == .ready))) →
      missed = (hit.map (fun e => ((pinsOf e.rowMask).filter (fun p => !(open_ e && decide (1 ≤ n)) && !struck e p)).map (fun p =>
        (⟨e.column, ((p.val : Int) + q.pass.rowShift).toNat, p⟩ : RepairItem)))).flatten →
      ∃ t : State, exec (.countChange ch dt) s = .next t.settle ∧
        t = { u with
          car := { u.car with suspended := !insideWindow m.cls u.car.period }
          channels := t.channels, heat := { u.heat with acc := t.heat.acc }, lists := t.lists, sequ := t.sequ } ∧
        t.sequ.head = i + hit.length ∧
        (∀ j e, hit[j]? = some e →
          t.sequ.timer e.col = (if open_ e = true ∧ 1 ≤ n then .running n (i + j) else u.sequ.timer e.col)) ∧
        (∀ k, (∀ e ∈ hit, e.col ≠ k) → t.sequ.timer k = u.sequ.timer k) ∧
        (∀ p, t.channel p = if hit.any (struck · p) then .drive (s.sequ.driveTime * 10) false else u.channel p) ∧
        (∀ p, t.heatOf p = if hit.any (struck · p) then min 65535 (s.heatOf p + s.sequ.driveTime) else s.heatOf p) ∧
        (∃ es, t.lists = s.lists.set s.sequ.list.val (.striking { q with entries := es }) ∧ es.length = q.entries.length ∧
          (∀ j, (∀ k, k < hit.length → j ≠ i + k) → es[j]? = q.entries[j]?) ∧
          ∀ j e, hit[j]? = some e → ∃ v, es[i + j]? = some v ∧ v = { e with struckMask := v.struckMask } ∧
            ∀ p : Pin, v.struckMask.getLsbD p.val = (e.struckMask.getLsbD p.val || struck e p)) ∧
        t.sequ.repairs = (s.sequ.repairs ++ missed).take 5120 ∧
        (t.sequ.overflow = true ↔ s.sequ.overflow = true ∨ 5120 < s.sequ.repairs.length + missed.length))

/-- DELAY_TIMER_EXPIRY fires the timer's entry: with the enable on each pin that is not FAILED and whose channel is READY is
struck, into DRIVE and with its heat, and the others are missed; with the enable off every pin is missed. The misses join
the repair list, up to 5 120 items, and the timer becomes IDLE (R84, R86, R87, R89, R112). -/
def Obligations.DelayTimerFiresTheEntry : Prop :=
  ∀ (s : State) (col : PinColumn) (n i : Nat) (q : PassPlan) (e : StrikeEntry) (struck : Pin → Bool) (missed : List RepairItem),
    s.sequ.timer col = .running n i → s.lists[s.sequ.list.val] = .striking q → q.entries[i]? = some e →
    s.sequ.repairs.length ≤ 5120 →
    (∀ p, struck p = (s.car.enable && e.rowMask.getLsbD p.val && !s.isFailed p && (s.channel p == .ready))) →
    missed = ((pinsOf e.rowMask).filter (fun p => !struck p)).map (fun p =>
      ⟨e.column, ((p.val : Int) + q.pass.rowShift).toNat, p⟩) →
    ∃ t : State, exec (.delayTimerExpiry col) s = .next t ∧
      t = { s with channels := t.channels, heat := { s.heat with acc := t.heat.acc }, lists := t.lists, sequ := t.sequ } ∧
      t.sequ.timer col = .idle ∧ (∀ k, k ≠ col → t.sequ.timer k = s.sequ.timer k) ∧ t.sequ.head = s.sequ.head ∧
      (∀ p, t.channel p = if struck p then .drive (s.sequ.driveTime * 10) false else s.channel p) ∧
      (∀ p, t.heatOf p = if struck p then min 65535 (s.heatOf p + s.sequ.driveTime) else s.heatOf p) ∧
      (∃ d, t.lists = s.lists.set s.sequ.list.val (.striking { q with entries := q.entries.set i d }) ∧
        d = { e with struckMask := d.struckMask } ∧
        ∀ p : Pin, d.struckMask.getLsbD p.val = (e.struckMask.getLsbD p.val || struck p)) ∧
      t.sequ.repairs = (s.sequ.repairs ++ missed).take 5120 ∧
      (t.sequ.overflow = true ↔ s.sequ.overflow = true ∨ 5120 < s.sequ.repairs.length + missed.length)

/-- The phases and judgements of a pin pulse: DRIVE_END judges a strike pulse weak below 1.2 A and else good, and begins
HOLD; OVERCURRENT, and a last sample above 4.0 A, judges it short and begins RECOVERY; HOLD_END begins RECOVERY and RECOVERY_END makes READY, with which a coil
test that waits for the pin goes on (`CoilTestPulseDecides`). The third fault in a row makes the pin FAILED and posts PIN
FAILED (R88, R92, R93, R95, R96, R103). That the command carries the current
in mA is log entry 25. -/
def Obligations.PinPulseIsJudged : Prop :=
  ∀ (s : State) (p : Pin) (n : Nat) (r : PinRecord), r = s.pinRecord p →
    (s.channel p = .drive n false →
      (∀ mA, mA < 1200 → r.faults < 2 → exec (.driveEnd p mA) s = .next { s with
        channels := s.channels.set p.val (.hold 400)
        health := s.health.set p.val { r with faults := r.faults + 1, health := .suspect } }) ∧
      (∀ mA, mA < 1200 → r.faults = 2 → exec (.driveEnd p mA) s = .next ({ s with
        channels := s.channels.set p.val (.hold 400)
        health := s.health.set p.val { r with faults := 3, health := .failed } }.postBoth (.pinFailed p .weak))) ∧
      (∀ mA, 1200 ≤ mA → mA ≤ 4000 → exec (.driveEnd p mA) s = .next { s with
        channels := s.channels.set p.val (.hold 400)
        health := s.health.set p.val { r with faults := 0, health := .good } }) ∧
      (∀ cmd, cmd = .overcurrent p ∨ (∃ mA, 4000 < mA ∧ cmd = .driveEnd p mA) →
        (r.faults < 2 → exec cmd s = .next { s with
          channels := s.channels.set p.val (.recovery 1400)
          health := s.health.set p.val { r with faults := r.faults + 1, health := .suspect } }) ∧
        (r.faults = 2 → exec cmd s = .next ({ s with
          channels := s.channels.set p.val (.recovery 1400)
          health := s.health.set p.val { r with faults := 3, health := .failed } }.postBoth (.pinFailed p .short))))) ∧
    (s.channel p = .hold n → exec (.holdEnd p) s = .next { s with channels := s.channels.set p.val (.recovery 1400) }) ∧
    (s.channel p = .recovery n →
      exec (.recoveryEnd p) s = .next ({ s with channels := s.channels.set p.val .ready }.testProceed.settle) ∧
      (s.test = none → exec (.recoveryEnd p) s = .next ({ s with channels := s.channels.set p.val .ready }.settle)))

/-- COIL_RISE and TEST_PULSE_TIMEOUT end the test pulse with SHORT below 30 ticks, NORMAL, or OPEN: the channel recovers,
the record is written, COIL RESULT goes to Console and PIN FAILED to both links for a pin that was not FAILED, and the
next pin is taken or the entry completes. A pin in WAITING whose channel is READY, or becomes READY at RECOVERY_END, begins
its pulse when nothing bars it, and is INVALID with cause LIMIT, SUPPLY or CARRIAGE, the first that holds, when something does,
the test going on in that event with the next pin, of at most 17 left (`BoundsAreKept`); a carriage fault cuts a test pulse,
which is INVALID with cause CUT, and the test goes on; that its COIL RESULTs come before CARRIAGE FAULT is log entry 41 (R91,
R102 to R107, R109). -/
def Obligations.CoilTestPulseDecides : Prop :=
  (∀ (s u v : State) (c : TestContext) (p : Pin) (n : Nat) (cmd : Instr) (o : CoilOutcome) (r : PinRecord),
    s.test = some c → c.pin = some p → c.step = .pulse n →
    ((∃ t, 1 ≤ t ∧ t ≤ 29 ∧ cmd = .coilRise t ∧ o = .short t) ∨ (∃ t, 30 ≤ t ∧ t ≤ 599 ∧ cmd = .coilRise t ∧ o = .normal t) ∨
      (cmd = .testPulseTimeout ∧ o = .openCoil)) →
    r = (match o with
      | .normal t => ⟨.good, 0, .normal, some t⟩
      | .short _ => ⟨.failed, 3, .short, none⟩
      | _ => ⟨.failed, 3, .openCoil, none⟩) →
    u = { s with channels := s.channels.set p.val (.recovery 1400), health := s.health.set p.val r }.post .console
      (.coilResult c.seq p o c.supply r.health r.faults c.todo.isEmpty) →
    v = (match o with
      | .short _ => if (s.pinRecord p).health = .failed then u else u.postBoth (.pinFailed p .short)
      | .openCoil => if (s.pinRecord p).health = .failed then u else u.postBoth (.pinFailed p .openCoil)
      | _ => u) →
    (∀ q rest, c.todo = q :: rest → exec cmd s =
      .next ({ v with test := some { c with todo := rest, pin := some q, step := .waiting } }.testProceed.settle)) ∧
    (c.todo = [] → exec cmd s = .next (({ v with test := none }.completeEntry .console).settle))) ∧
  (∀ (s : State) (c : TestContext) (p : Pin) (x : Nat), s.test = some c → c.pin = some p → c.step = .waiting →
    s.channel p = .ready → s.heat.thermal ≠ .limit → s.heat.lowSupply = false → s.car.state = .stopped →
    s.heat.supply = some x → s.testProceed = { s with
      channels := s.channels.set p.val (.drive 600 true)
      heat := { s.heat with acc := s.heat.acc.set p.val (min 65535 (s.heatOf p + 60)) }
      test := some { c with step := .pulse 0, supply := x } }) ∧
  (∀ (s : State) (c : TestContext) (p : Pin), s.test = some c → c.pin = some p → c.step = .waiting →
    s.channel p ≠ .ready → s.testProceed = s) ∧
  (∀ s : State, (∀ c, s.test = some c → c.pin = none ∨ ∃ n, c.step = .pulse n) → s.testProceed = s) ∧
  (∀ (s : State) (c : TestContext) (p : Pin) (x n : Nat), s.test = some c → c.pin = some p → c.step = .waiting →
    s.channel p = .recovery n → s.heat.thermal ≠ .limit → s.heat.lowSupply = false → s.car.state = .stopped →
    s.heat.supply = some x → exec (.recoveryEnd p) s = .next ({ s with
      channels := s.channels.set p.val (.drive 600 true)
      heat := { s.heat with acc := s.heat.acc.set p.val (min 65535 (s.heatOf p + 60)) }
      test := some { c with step := .pulse 0, supply := x } }).settle) ∧
  (∀ (s u : State) (c : TestContext) (p : Pin) (x : Nat) (cause : InvalidCause), s.test = some c → c.pin = some p →
    c.step = .waiting → s.channel p = .ready → s.heat.supply = some x →
    cause = .limit ∧ s.heat.thermal = .limit ∨
      cause = .supply ∧ s.heat.thermal ≠ .limit ∧ s.heat.lowSupply = true ∨
      cause = .carriage ∧ s.heat.thermal ≠ .limit ∧ s.heat.lowSupply = false ∧ s.car.state ≠ .stopped →
    u = ({ s with health := s.health.set p.val { s.pinRecord p with lastCoil := .invalid } }).post .console
      (.coilResult c.seq p (.invalid cause) x (s.pinRecord p).health (s.pinRecord p).faults c.todo.isEmpty) →
    (c.todo = [] → s.testProceed = ({ u with test := none }).completeEntry .console) ∧
    (∀ q rest, c.todo = q :: rest → s.channel q ≠ .ready →
      s.testProceed = { u with test := some { c with todo := rest, pin := some q, step := .waiting, supply := x } }) ∧
    (∀ q rest, c.todo = q :: rest → rest.length ≤ 16 → s.testProceed =
      ({ u with test := some { c with todo := rest, pin := some q, step := .waiting, supply := x } }).testProceed)) ∧
  (∀ (s u v : State) (c : TestContext) (p : Pin) (n : Nat), s.test = some c → c.pin = some p → c.step = .pulse n →
    u = ({ s with health := s.health.set p.val { s.pinRecord p with lastCoil := .invalid } }).post .console
      (.coilResult c.seq p (.invalid .cut) c.supply (s.pinRecord p).health (s.pinRecord p).faults c.todo.isEmpty) →
    (c.todo = [] → s.testCut = ({ u with test := none }).completeEntry .console) ∧
    (∀ q rest, c.todo = q :: rest →
      s.testCut = ({ u with test := some { c with todo := rest, pin := some q, step := .waiting } }).testProceed) ∧
    (s.car.state = .stopped → s.car.motion = none → s.sequ.walking = false →
      v = { s with
        car := { s.car with encA := !s.car.encA, encB := !s.car.encB, state := .fault, suspended := false }
        channels := s.channels.map Channel.cut } →
      exec .illegalTransition s = .next ((v.testCut).postBoth (.carriageFault .encoder s.car.counter .stopped)).settle))

/-- A strike pulse begins only from READY, and never for a pin that is FAILED, whatever the command; one in DRIVE is not
started anew, its time left never rises (R88, R89). -/
def Obligations.StrikesStartFromReady : Prop :=
  ∀ (c : Instr) (s t : State) (p : Pin) (n : Nat), exec c s = .next t → t.channel p = .drive n false →
    (∃ m, n ≤ m ∧ s.channel p = .drive m false) ∨ (s.channel p = .ready ∧ (s.pinRecord p).health ≠ .failed)

/-! ## Head heat (chapter 7) -/

/-- WINDOW_END judges the heat-state from the greatest accumulator before the decay, takes an eighth, rounded up, from
every accumulator, begins the next window, and posts THERMAL to both links when the thermal state changes; a pass that
waits is planned when the gates are then open (R113, R116, R118, R121). That THERMAL comes before the notices of that pass is
log entry 45. -/
def Obligations.WindowEndJudgesAndDecays : Prop :=
  ∀ s : State, ∃ u : State,
    u = { s with heat := u.heat, port := u.port } ∧
    (∀ p, u.heatOf p = s.heatOf p - (s.heatOf p + 7) / 8) ∧ u.heat.windowLeft = 100000 ∧
    u.heat.peak = s.heatOf u.heat.peakPin ∧ (∀ p, s.heatOf p ≤ u.heat.peak) ∧
    (∀ p, p < u.heat.peakPin → s.heatOf p < u.heat.peak) ∧
    u.heat.heatState.rank = max (heatEntryRank u.heat.peak) (min s.heat.heatState.rank (heatStayRank u.heat.peak)) ∧
    u.heat.tempState = s.heat.tempState ∧
    u.heat.thermal.rank = max u.heat.heatState.rank s.heat.tempState.rank ∧
    u.heat.temperature = s.heat.temperature ∧ u.heat.supply = s.heat.supply ∧ u.heat.lowSupply = s.heat.lowSupply ∧
    u.heat.scan = s.heat.scan ∧ u.heat.convLeft = s.heat.convLeft ∧
    u.port = (if u.heat.thermal = s.heat.thermal then s.port
      else (s.postBoth (.thermal u.heat.thermal s.heat.thermal u.heat.heatState s.heat.tempState u.heat.peak u.heat.peakPin
        s.heat.temperature)).port) ∧
    (u.gatesOpen = true ↔ u.heat.thermal ≠ .limit ∧ s.heat.lowSupply = false) ∧
    ((∀ c p, s.line = some c → c.stage ≠ .planDue p) → exec .windowEnd s = .next u) ∧
    (u.gatesOpen = true → (∃ c p, s.line = some c ∧ c.stage = .planDue p) → exec .windowEnd s = .next u.settle) ∧
    (u.gatesOpen = false → exec .windowEnd s = .next u)

/-- The readings that the ADC's codes give (R115). -/
def Obligations.AdcCodesGiveReadings : Prop :=
  (∀ code : BitVec 10, temperatureOf code = (code.toNat : Int) / 6 - 20 ∧ supplyOf code = code.toNat * 400 / 1023 ∧
    -20 ≤ temperatureOf code ∧ temperatureOf code ≤ 150 ∧ supplyOf code ≤ 400) ∧
  temperatureOf 1023 = 150 ∧ tempReached (temperatureOf 1023) = .limit ∧ supplyOf 0 = 0 ∧
  (∀ held, lowSupplyAfter held (supplyOf 0) = true) ∧
  (∀ code : BitVec 10,
    (temperatureOf code = 65 ↔ 510 ≤ code.toNat ∧ code.toNat ≤ 515) ∧
    (temperatureOf code = 70 ↔ 540 ≤ code.toNat ∧ code.toNat ≤ 545) ∧
    (temperatureOf code = 80 ↔ 600 ≤ code.toNat ∧ code.toNat ≤ 605) ∧
    (temperatureOf code = 85 ↔ 630 ≤ code.toNat ∧ code.toNat ≤ 635) ∧
    (temperatureOf code = 95 ↔ 690 ≤ code.toNat ∧ code.toNat ≤ 695) ∧
    (temperatureOf code = 100 ↔ 720 ≤ code.toNat ∧ code.toNat ≤ 725) ∧
    (supplyOf code = 189 ↔ 484 ≤ code.toNat ∧ code.toNat ≤ 485) ∧
    (supplyOf code = 190 ↔ 486 ≤ code.toNat ∧ code.toNat ≤ 488) ∧
    (supplyOf code = 199 ↔ 509 ≤ code.toNat ∧ code.toNat ≤ 511) ∧
    (supplyOf code = 200 ↔ 512 ≤ code.toNat ∧ code.toNat ≤ 514) ∧
    (supplyOf code = 240 ↔ 614 ≤ code.toNat ∧ code.toNat ≤ 616))

/-- TEMPERATURE_CONVERSION stores its reading and judges the temperature-state and the thermal state; SUPPLY_CONVERSION
stores its reading and judges the low-supply flag; each begins the other's conversion, and changes are posted to both
links; a pass that waits is planned when the gates are then open (R114, R115, R117, R118, R121, R122). That THERMAL and
LOW SUPPLY come before the notices of that pass is log entry 45. -/
def Obligations.ConversionsAreJudged : Prop :=
  (∀ (s : State) (code : BitVec 10), s.heat.scan = .temperature → ∃ u : State,
    u = { s with
      heat := { s.heat with
        scan := .supply, convLeft := 10000, temperature := some ((code.toNat : Int) / 6 - 20)
        tempState := u.heat.tempState, thermal := u.heat.thermal }
      port := u.port } ∧
    u.heat.tempState.rank = max (tempEntryRank ((code.toNat : Int) / 6 - 20))
      (min s.heat.tempState.rank (tempStayRank ((code.toNat : Int) / 6 - 20))) ∧
    u.heat.thermal.rank = max s.heat.heatState.rank u.heat.tempState.rank ∧
    u.port = (if u.heat.thermal = s.heat.thermal then s.port
      else (s.postBoth (.thermal u.heat.thermal s.heat.thermal s.heat.heatState u.heat.tempState s.heat.peak s.heat.peakPin
        (some ((code.toNat : Int) / 6 - 20)))).port) ∧
    ((∀ c p, s.line = some c → c.stage ≠ .planDue p) ∨ u.gatesOpen = false →
      exec (.temperatureConversion code) s = .next u) ∧
    (u.gatesOpen = true → (∃ c p, s.line = some c ∧ c.stage = .planDue p) →
      exec (.temperatureConversion code) s = .next u.settle)) ∧
  (∀ (s : State) (code : BitVec 10), s.heat.scan = .supply → ∃ u : State,
    u = { s with
      heat := { s.heat with
        scan := .temperature, convLeft := 10000, supply := some (code.toNat * 400 / 1023), lowSupply := u.heat.lowSupply }
      port := u.port } ∧
    (s.heat.lowSupply = false → (u.heat.lowSupply = true ↔ code.toNat * 400 / 1023 < 190)) ∧
    (s.heat.lowSupply = true → (u.heat.lowSupply = false ↔ 200 ≤ code.toNat * 400 / 1023)) ∧
    u.port = (if u.heat.lowSupply = s.heat.lowSupply then s.port
      else (s.postBoth (.lowSupply u.heat.lowSupply (code.toNat * 400 / 1023))).port) ∧
    ((∀ c p, s.line = some c → c.stage ≠ .planDue p) ∨ u.gatesOpen = false →
      exec (.supplyConversion code) s = .next u) ∧
    (u.gatesOpen = true → (∃ c p, s.line = some c ∧ c.stage = .planDue p) →
      exec (.supplyConversion code) s = .next u.settle))

/-! ## The form and the paper (chapters 8, 9) -/

/-- A step forward or back changes the odometer, the offset with its wraps, the form number, the forward mark and the tail
distance; a stall correction takes back its steps, and with them a forward mark that stood equal to the odometer (R127). -/
def Obligations.StepsWrapTheOffset : Prop :=
  (∀ (f : FormPosition) (len : Nat), 0 < len → f.offset < len →
    (∃ g : FormPosition, g = f.forward len ∧
      g = { f with odometer := g.odometer, offset := g.offset, form := g.form, forwardMark := g.forwardMark, paper := g.paper } ∧
      g.odometer = f.odometer + 1 ∧ g.offset = (f.offset + 1) % len ∧
      g.form = (if f.offset + 1 = len then f.form + 1 else f.form) ∧
      g.forwardMark = (if 0 < (f.odometer + 1 - f.forwardMark).toInt then f.odometer + 1 else f.forwardMark) ∧
      (∀ d, f.paper = .tail d → g.paper = .tail (d - 1)) ∧ ((∀ d, f.paper ≠ .tail d) → g.paper = f.paper)) ∧
    (∃ g : FormPosition, g = f.reverse len ∧
      g = { f with odometer := g.odometer, offset := g.offset, form := g.form, paper := g.paper } ∧
      g.odometer = f.odometer - 1 ∧ g.offset = (f.offset + (len - 1)) % len ∧
      g.form = (if f.offset = 0 then f.form - 1 else f.form) ∧
      (∀ d, f.paper = .tail d → g.paper = .tail (d + 1)) ∧ ((∀ d, f.paper ≠ .tail d) → g.paper = f.paper))) ∧
  (∀ (s t : State) (k : Nat), t = s.stallCorrection k → 0 < s.map.len → s.form.offset < s.map.len →
    t = { s with form := { s.form with
      odometer := s.form.odometer - BitVec.ofNat 32 k
      offset := ((s.form.offset - k : Int) % s.map.len).toNat
      form := s.form.form + BitVec.ofInt 16 ((s.form.offset - k : Int) / s.map.len)
      forwardMark := if s.form.forwardMark = s.form.odometer then s.form.odometer - BitVec.ofNat 32 k else s.form.forwardMark
      paper := match s.form.paper with | .tail d => .tail (d + k) | x => x } })

/-- A mark at a forward step beyond the forward mark is a perforation event, with the strap fitted, the path TRACTOR, the
learning not OFF and the paper PRESENT: it begins the learning, or its measured length locks it, is left as spurious,
becomes the candidate, or makes the candidate the learned length. Any other mark is not taken. In every paper state a
forward step whose forward mark lies more than 2 L beyond the previous edge discards the learning, and a step that is not
such, as every reverse step, leaves the learning as it is; that a mark is judged before this aging is log entry 22. In LOADING
the paper's arrival is a perforation of its own, and a later mark becomes the previous edge; that an arrival leaves
the previous edge held while the learning is OFF is log entry 23. Behind this, at every step, the paper sensor is sampled: in PRESENT
steps without paper at the station run up to TAIL at the seventy-second, which posts PAPER OUT and leaves the learning, and
paper seen in TAIL makes PRESENT (R127, R130, R135, R136, R137, R138, R140, R141). -/
def Obligations.PerforationsLearnTheLength : Prop :=
  (∀ (s t : State) (paper : Bool) (e : Odo) (f : FormPosition) (beyond : Prop) (go : FormPosition → State),
    s.form.paper = .present → t = s.formStep .forward paper true → e = s.form.odometer + 1 →
    f = s.form.forward s.map.len → (∀ g, go g = ({ s with form := g }).sensePaper .forward paper) →
    (beyond ↔ s.edgeFitted = true ∧ s.form.path = .tractor ∧ s.form.edge ≠ .off ∧ 0 < (e - s.form.forwardMark).toInt) →
    (¬ beyond → t = s.formStep .forward paper false) ∧
    (beyond →
      (s.form.edge = .lost ∨ s.form.previousEdge = none → t = go { f with previousEdge := some e, edge := .seeking }) ∧
      (∀ (p : Odo) (m : Int), s.form.edge ≠ .lost → s.form.previousEdge = some p → m = (e - p).toInt →
        (s.map.len - 3 ≤ m → m ≤ s.map.len + 3 →
          t = go { f with previousEdge := some e, edge := .locked, pendingCorrection := some e, candidate := none }) ∧
        (m < s.map.len - 3 ∨ s.map.len + 3 < m →
          (m < 144 ∨ 8640 < m → t = go { f with previousEdge := some e, edge := .seeking }) ∧
          (144 ≤ m → m ≤ 8640 → (∀ c, s.form.candidate = some c → m < (c : Int) - 3 ∨ (c : Int) + 3 < m) →
            t = go { f with previousEdge := some e, edge := .seeking, candidate := some m.toNat }) ∧
          (∀ c : Nat, 144 ≤ m → m ≤ 8640 → s.form.candidate = some c → (c : Int) - 3 ≤ m → m ≤ (c : Int) + 3 →
            t = (({ s with
              form := { f with
                offset := f.offset % c, previousEdge := some e, edge := .locked, pendingCorrection := some e
                candidate := none }
              map := { s.map with
                learned := some c, tof := min s.map.tof (min 720 (c - 1)), skip := min s.map.skip (c / 2)
                stops := s.map.stops.filter (fun y => y < c) } }).postBoth
              (.formLength c s.map.len s.map.programmed (s.map.stops.filter (fun y => c ≤ y)).length f.form
                (f.offset % c))).sensePaper .forward paper))))) ∧
  (∀ (x : State) (d : MoveDir) (paper mark : Bool) (g : FormPosition) (w : FormPosition → State) (taken aged : Prop),
    g = (match d with | .forward => x.form.forward x.map.len | .reverse => x.form.reverse x.map.len) →
    (∀ y, w y = { x with form := y }) →
    (taken ↔ mark = true ∧ d = .forward ∧ x.edgeFitted = true ∧ x.form.path = .tractor ∧ x.form.edge ≠ .off ∧
      0 < (g.odometer - x.form.forwardMark).toInt ∧ (x.form.paper = .present ∨ x.form.paper = .loading true)) →
    (aged ↔ (x.form.edge = .seeking ∨ x.form.edge = .locked) ∧
      ∃ p, x.form.previousEdge = some p ∧ 2 * (x.map.len : Int) < (g.forwardMark - p).toInt) →
    (d = .reverse → x.formStep d paper mark = (w g).sensePaper d paper) ∧
    (d = .forward → x.form.paper = .loading false → paper = true → x.formStep d paper mark = (w { g with
      paper := .loading true, forwardMark := g.odometer
      previousEdge := if x.form.edge = .off then x.form.previousEdge else some g.odometer }).sensePaper d paper) ∧
    (x.form.paper = .loading true → taken →
      x.formStep d paper mark = (w { g with previousEdge := some g.odometer }).sensePaper d paper) ∧
    (d = .forward → x.form.paper ≠ .loading false ∨ paper = false → ¬ taken →
      (¬ aged → x.formStep d paper mark = (w g).sensePaper d paper) ∧
      (aged → x.map.learned = none → x.formStep d paper mark = ((w { g with
        candidate := none, previousEdge := none, pendingCorrection := none, edge := .lost }).postBoth
          (.edgeLost x.map.len 0 g.form g.offset)).sensePaper d paper) ∧
      (∀ c n, aged → x.map.learned = some c → n = x.map.programmed → x.formStep d paper mark = (({ x with
          form := { g with
            offset := g.offset % n, candidate := none, previousEdge := none, pendingCorrection := none, edge := .lost }
          map := { x.map with
            learned := none, tof := min x.map.tof (min 720 (n - 1)), skip := min x.map.skip (n / 2)
            stops := x.map.stops.filter (fun y => y < n) } }).postBoth
          (.edgeLost n (x.map.stops.filter (fun y => n ≤ y)).length g.form (g.offset % n))).sensePaper d paper))) ∧
  (∀ (x : State) (d : MoveDir) (paper : Bool) (g : FormPosition) (w : FormPosition → State),
    g = { x.form with paperSensor := paper } → (∀ y, w y = { x with form := y }) →
    (x.form.paper = .present → paper = true → x.sensePaper d paper = w { g with noPaperRun := 0 }) ∧
    (x.form.paper = .present → paper = false → d = .reverse →
      x.sensePaper d paper = w { g with noPaperRun := x.form.noPaperRun - 1 }) ∧
    (x.form.paper = .present → paper = false → d = .forward →
      (x.form.noPaperRun < 71 → x.sensePaper d paper = w { g with noPaperRun := x.form.noPaperRun + 1 }) ∧
      (71 ≤ x.form.noPaperRun → x.sensePaper d paper =
        (w { g with paper := .tail 792, noPaperRun := 0 }).postBoth (.paperOut g.form g.offset 792))) ∧
    (∀ n, x.form.paper = .tail n → x.sensePaper d paper = w (if paper then { g with paper := .present } else g)) ∧
    ((∀ n, x.form.paper ≠ .tail n) → x.form.paper ≠ .present → x.sensePaper d paper = w g))

/-- A phase correction puts the offset where the perforation says it must be, moves the form number with a wrap, records
the correction and sets the trusted flag; without a pending correction the end of a move corrects nothing (R139, R142). -/
def Obligations.PhaseCorrectionMeetsItsTarget : Prop :=
  ∀ s : State, 0 < s.map.len → s.form.offset < s.map.len →
    (s.form.pendingCorrection = none → s.phaseCorrection = s) ∧
    (∀ e, s.form.pendingCorrection = some e → ∃ (x : Nat) (d : Int), (x : Int) =
      ((s.map.len : Int) - s.map.tof + (s.form.odometer - e).toInt - 864) % s.map.len ∧
      (∃ n : Int, d = x - s.form.offset + n * s.map.len) ∧
      -((s.map.len / 2 : Nat) : Int) ≤ d ∧ d ≤ s.map.len - 1 - (s.map.len / 2 : Nat) ∧
      s.phaseCorrection = { s with form := { s.form with
        offset := x
        form := if (s.map.len : Int) ≤ s.form.offset + d then s.form.form + 1
          else if s.form.offset + d < 0 then s.form.form - 1 else s.form.form
        lastCorrection := some d, trusted := true, pendingCorrection := none } })

/-- The skip zone lengthens a FEED and a forward trailing feed whose end offset lies in it to the next offset 0, once, and
no other move; MOVE_START makes the move with the distance so judged at that instant (R132). -/
def Obligations.SkipZoneExtendsFeeds : Prop :=
  ∀ (s : State) (n e : Nat), 0 < s.map.len → s.map.skip ≤ s.map.len / 2 → e = (s.form.offset + n) % s.map.len →
    (∀ k, k = .feed n ∨ k = .trailing n →
      (s.map.skip ≠ 0 → s.map.len - s.map.skip ≤ e →
        s.moveDistance k = (n + (s.map.len - e), false) ∧ (s.form.offset + (s.moveDistance k).1) % s.map.len = 0) ∧
      (s.map.skip = 0 ∨ e < s.map.len - s.map.skip → s.moveDistance k = (n, false)) ∧
      (∀ src paper, s.drive.state = .stopped → s.car.state = .stopped → s.drive.due = some ⟨src, k⟩ → n ≠ 0 →
        ∃ (t : State) (m : MoveContext), exec (.moveStart paper) s = .next t ∧ t.drive.state = .stepping ∧
          t.drive.move = some m ∧ m.kind = k ∧ m.dir = .forward ∧ m.distance = (s.moveDistance k).1)) ∧
    (∀ m : FormMap, m.programmed = s.map.programmed → m.learned = s.map.learned → m.tof = s.map.tof → m.trim = s.map.trim →
      m.stops = s.map.stops → ∀ k, (∀ j, k ≠ .feed j ∧ k ≠ .trailing j) →
        ({ s with map := m }).moveDistance k = s.moveDistance k) ∧
    (s.map.len = 3168 → s.map.skip = 144 → n = 48 →
      (s.form.offset = 3000 → s.moveDistance (.trailing n) = (168, false)) ∧
      (s.form.offset = 2970 → s.moveDistance (.trailing n) = (48, false)))

/-- MOVE_START starts the due move with the carriage STOPPED: its direction and distance are fixed from the record and the
map held. A move of no distance ends in that event (log entry 20), a tear advance among them, with AT_TEAR, the tear distance
0 and TEAR POSITION; that a return of no steps has the direction forward is log entry 46, and that a tear form feed that finds
the offset at 0 is such a move, with FORM BOUNDARY, is log entry 49. A LOAD with paper at the station
takes paper arrival at once, with the learning OFF too, which leaves the previous edge held (log entry 23) (R131, R132, R135, R136,
R146, R153 to R158). -/
def Obligations.MoveStartFixesTheDistance : Prop :=
  ∀ (s : State) (paper : Bool) (src : MoveSource) (k : MoveKind) (f : FormPosition) (go : FormPosition → MoveContext → State),
    s.drive.state = .stopped → s.car.state = .stopped → s.drive.due = some ⟨src, k⟩ →
    f = { s.form with paperSensor := paper } →
    (∀ g m, go g m = { s with form := g, drive := { s.drive with state := .stepping, move := some m, due := none } }) →
    (∀ dir n x, s.fixedMove k = some (dir, n) → x = go f ⟨src, k, dir, n, false, 0, 0, 0, 0, s.form.form⟩ →
      (n ≠ 0 → exec (.moveStart paper) s = .next x.settle) ∧
      (n = 0 → exec (.moveStart paper) s = .next (x.endMove .done).settle)) ∧
    (∀ (n : Nat) (x : State), k = .tearAdvance → n = (288 + s.map.trim - s.map.tof).toNat →
      x = go { f with tear := .atTear, tearDistance := 0 } ⟨src, k, .forward, n, false, 0, 0, 0, 0, s.form.form⟩ →
      (n ≠ 0 → exec (.moveStart paper) s = .next x.settle) ∧
      (n = 0 → exec (.moveStart paper) s = .next (x.endMove .done).settle)) ∧
    (∀ (u v : State) (l : Link) (q : SeqNo) (r : MotionRun), k = .tearAdvance → 288 + s.map.trim ≤ s.map.tof →
      s.form.pendingCorrection = none → src = .entry l q → s.drive.run = some r → r.kind = .tear →
      u = { s with form := { f with tear := .atTear, tearDistance := 0 }, drive := ⟨.stopped, none, none, none⟩ } →
      (s.form.offset = 0 →
        v = u.postBoth (.formBoundary s.form.form 0 s.map.len .forward s.form.trusted)) →
      (s.form.offset ≠ 0 → v = u) →
      exec (.moveStart paper) s = .next (((v.postBoth (.tearPosition s.form.form s.form.offset 0 src)).post r.link
        (.moveDone r.link r.seq .tear .done none (some r.distance) r.moved r.back r.stalls s.form.form s.form.offset
          s.form.paper .atTear s.form.path s.form.trusted)).completeEntry r.link).settle) ∧
    (k = .load → paper = false → exec (.moveStart paper) s = .next (go { f with
        paper := .loading false, candidate := none, pendingCorrection := none, noPaperRun := 0
        edge := if s.edgeFitted = true ∧ s.form.path = .tractor then .seeking else .off }
      ⟨src, k, .forward, 4320, true, 0, 0, 0, 0, s.form.form⟩).settle) ∧
    (∀ learns : Prop, k = .load → paper = true → (learns ↔ s.edgeFitted = true ∧ s.form.path = .tractor) → ∃ g : FormPosition,
      exec (.moveStart paper) s = .next (go { g with
          paper := .loading true, candidate := none, pendingCorrection := none, noPaperRun := 0
          forwardMark := s.form.odometer }
        ⟨src, k, .forward, 864 + s.map.tof, false, 0, 0, 0, 0, s.form.form⟩).settle ∧
      (learns → g = { f with edge := .seeking, previousEdge := some s.form.odometer }) ∧
      (¬ learns → g = { f with edge := .off })) ∧
    (k = .park → exec (.moveStart paper) s = .next (go { f with tear := .atPrint, tearDistance := 0 }
      ⟨src, k, .reverse, 9504, true, 0, 0, 0, 0, s.form.form⟩).settle) ∧
    (∀ d : Int, k = .eject → s.form.paper = .tail d → -288 < d → exec (.moveStart paper) s = .next (go { f with paper := .none }
      ⟨src, k, .forward, (d + 288).toNat, false, 0, 0, 0, 0, s.form.form⟩).settle) ∧
    (k = .eject → (∀ d, s.form.paper ≠ .tail d) → exec (.moveStart paper) s = .next (go f
      ⟨src, k, .forward, 9504, true, 0, 0, 0, 0, s.form.form⟩).settle)

/-- The course of a move. A STEP drives the steppers of the path held and is taken by the Form Position Unit: on the way, at
the tail limit, at the end of the distance, at what a LOAD, PARK or eject searches for and at the limit of its search, and at
a stall with its backoff. A step of the backoff of any move, in any paper state, is a reverse step that lowers the net distance,
and in a tear advance or a return the tear distance, by one, and the twelfth begins the retry wait. A sensor pulse counts in the
attempt, and the retry wait of any move ends in a new one. For a FEED or a
REVERSE over paper the steps are stated in full, the perforation channel not being read. The end of a move makes the paper and
tear states, the phase correction or on a jam its discard, FORM BOUNDARY, TEAR POSITION or JAM, and the halt; then the motion
entry goes on to its next move or completes with MOVE DONE, the line goes on, completes or is jammed, and the automatic tear
is over. The change of path that ends a PATH makes the edge state by the strap and the path; one to SHEET discards what the learning
holds, and the effective length changes with a learned length (R56, R59, R127, R128, R130, R136, R141, R145, R146, R148 to R151,
R153 to R161). The steppers' counts are log entry 38, the distance held after a search log entry 40, the order of the
judgements log entry 22, what MOVE DONE counts log entry 19; by which paper state the step of a paper arrival and a pulse beside
it are counted is log entry 44, and that a return ended by the tail limit leaves the tear state as it is is log entry 48. -/
def Obligations.PaperStepsStallAndRetry : Prop :=
  (∀ (s : State) (m : MoveContext) (up down : Steppers), s.drive.move = some m → m.kind.movesTear = false →
    m.searching = false → s.form.paper = .present → s.form.previousEdge = none →
    up = (match s.form.path with
      | .tractor => ⟨s.steppers.platen + 1, s.steppers.tractor + 1⟩
      | .sheet => ⟨s.steppers.platen + 1, s.steppers.tractor⟩) →
    down = (match s.form.path with
      | .tractor => ⟨s.steppers.platen - 1, s.steppers.tractor - 1⟩
      | .sheet => ⟨s.steppers.platen - 1, s.steppers.tractor⟩) →
    (∀ (fwd rev : FormPosition) (go : Steppers → FormPosition → DriveState → MoveContext → State),
      fwd = { s.form.forward s.map.len with paperSensor := true, noPaperRun := 0 } →
      rev = { s.form.reverse s.map.len with paperSensor := true, noPaperRun := 0 } →
      (∀ x g d n, go x g d n = { s with form := g, steppers := x, drive := { s.drive with state := d, move := some n } }) →
      (s.drive.state = .stepping → m.dir = .forward → m.net + 1 < m.distance → (m.steps + 1) / 4 < m.pulses + 5 →
        exec (.step true false) s =
          .next (go up fwd .stepping { m with net := m.net + 1, steps := m.steps + 1 }).settle) ∧
      (s.drive.state = .stepping → m.dir = .reverse → m.net + 1 < m.distance →
        exec (.step true false) s = .next (go down rev .stepping { m with net := m.net + 1 }).settle) ∧
      (∀ (r : MotionRun) (l : Link) (q : SeqNo) (n : Nat) (u : State), s.drive.state = .stepping → m.dir = .forward →
        m.kind = .feed n → m.source = .entry l q → s.drive.run = some r → r.kind = .feed n → r.link = l → r.seq = q →
        m.net + 1 = m.distance → (m.steps + 1) / 4 < m.pulses + 5 → s.form.pendingCorrection = none →
        fwd.offset ≠ 0 → fwd.form = m.startForm →
        u = { s with
          form := fwd
          steppers := up
          drive := { s.drive with state := .stopped, move := none, run := none } }.post l
            (.moveDone l q (.feed n) .done none (some (r.distance + m.distance)) (r.moved + (m.net + 1)) r.back
              (r.stalls + m.stalls) fwd.form fwd.offset fwd.paper fwd.tear fwd.path fwd.trusted) →
        exec (.step true false) s = .next (u.completeEntry l).settle) ∧
      (∀ k : Nat, s.drive.state = .stepping → m.dir = .forward → m.pulses + 5 ≤ (m.steps + 1) / 4 →
        k = m.steps + 1 - 4 * m.pulses → m.stalls < 4 →
        exec (.step true false) s = .next (((go up fwd (.backoff 12) { m with
          net := m.net + 1 - k, steps := m.steps + 1, stalls := m.stalls + 1 }).stallCorrection k).settle)) ∧
      (∀ (k : Nat) (v : State), s.drive.state = .stepping → m.dir = .forward → m.pulses + 5 ≤ (m.steps + 1) / 4 →
        k = m.steps + 1 - 4 * m.pulses → m.stalls = 4 → m.source = .auto → v = ({ s with form := fwd }).stallCorrection k →
        ∃ t : State, exec (.step true false) s = .next t ∧ t.drive.state = .stopped ∧ t.drive.move = none ∧
          t.arb.halt.jam = true ∧ t.engine = .halted ∧ t.form.trusted = false ∧ t.form.offset = v.form.offset ∧
          t.steppers = up ∧
          ∀ l, Notice.jam .auto m.kind m.distance (m.net + 1 - k) v.form.form v.form.offset ∈ (t.port.get l).notices ∨
            (t.port.get l).lost = true) ∧
      (∀ n, s.drive.state = .backoff n → 1 < n →
        exec (.step true false) s = .next (go down rev (.backoff (n - 1)) { m with net := m.net - 1 })) ∧
      (s.drive.state = .backoff 1 → exec (.step true false) s =
        .next (go down rev (.retryWait (200000 * 2 ^ (m.stalls - 1))) { m with net := m.net - 1 }))) ∧
    (s.drive.state = .stepping → m.dir = .forward → exec .sensorPulse s =
      .next { s with drive := { s.drive with move := some { m with pulses := m.pulses + 1 } } }) ∧
    (∀ n, s.drive.state = .retryWait n → exec .retryTimerExpiry s = .next { s with
      drive := { s.drive with state := .stepping, move := some { m with steps := 0, pulses := 0 } } })) ∧
  (∀ (s v : State) (m : MoveContext) (paper mark : Bool) (go : DriveState → State), s.drive.move = some m →
    v = s.formStep .reverse paper mark →
    (∀ d, go d = { v with
      form := { v.form with
        tearDistance := if m.kind = .back ∨ m.kind = .tearAdvance then s.form.tearDistance - 1 else s.form.tearDistance }
      steppers := ⟨s.steppers.platen - 1,
        if s.form.path = .tractor then s.steppers.tractor - 1 else s.steppers.tractor⟩
      drive := { s.drive with state := d, move := some { m with net := m.net - 1 } } }) →
    (∀ n, s.drive.state = .backoff n → 1 < n → exec (.step paper mark) s = .next (go (.backoff (n - 1)))) ∧
    (s.drive.state = .backoff 1 → exec (.step paper mark) s = .next (go (.retryWait (200000 * 2 ^ (m.stalls - 1))))) ∧
    (∀ n, s.drive.state = .retryWait n → exec .retryTimerExpiry s = .next { s with
      drive := { s.drive with state := .stepping, move := some { m with steps := 0, pulses := 0 } } })) ∧
  (∀ s : State, (∀ m, s.drive.move = some m →
      (s.drive.state = .stepping → m.dir = .forward → s.form.paper ≠ .none → s.form.paper ≠ .loading false →
        exec .sensorPulse s = .next { s with drive := { s.drive with move := some { m with pulses := m.pulses + 1 } } }) ∧
      (s.drive.state ≠ .stepping ∨ m.dir = .reverse ∨ s.form.paper = .none ∨ s.form.paper = .loading false →
        exec .sensorPulse s = .next s)) ∧
    (s.drive.move = none → exec .sensorPulse s = .next s)) ∧
  (∀ (s : State) (m n : MoveContext) (paper mark counted found : Bool) (one further : Int) (v w : State) (stalls : Prop),
    s.drive.state = .stepping → s.drive.move = some m → v = s.formStep m.dir paper mark →
    one = (match m.dir with | .forward => 1 | .reverse => -1) →
    (counted = true ↔ m.dir = .forward ∧ s.form.paper ≠ .none ∧ s.form.paper ≠ .loading false) →
    (found = true ↔ m.searching = true ∧ ((m.kind = .load ∧ v.form.paper = .loading true) ∨
      (m.kind = .eject ∧ ∃ d, v.form.paper = .tail d) ∨ (m.kind = .park ∧ v.form.paper = .present ∧ paper = false))) →
    further = (match m.kind with | .load => 864 + (v.map.tof : Int) | .eject => 1080 | .park => 288 | _ => 0) →
    n = { m with
      net := m.net + 1
      steps := if counted then m.steps + 1 else m.steps
      searching := m.searching && !found
      distance := if found then (m.net + 1 + further).toNat else m.distance } →
    w = { v with
      form := { v.form with
        tearDistance := if m.kind = .back ∨ m.kind = .tearAdvance then v.form.tearDistance + one else v.form.tearDistance
        paper := if found = true ∧ m.kind = .eject then .none else v.form.paper }
      steppers := ⟨s.steppers.platen + one,
        if s.form.path = .tractor then s.steppers.tractor + one else s.steppers.tractor⟩
      drive := { s.drive with move := some n } } →
    (stalls ↔ counted = true ∧ n.pulses + 5 ≤ n.steps / 4) →
    (m.dir = .forward → s.form.paper = .tail 73 → w.form.paper = .tail 72 →
      exec (.step paper mark) s = .next (w.endMove .tail).settle) ∧
    (m.dir = .reverse ∨ s.form.paper ≠ .tail 73 ∨ w.form.paper ≠ .tail 72 →
      (¬ stalls → (n.distance : Int) ≤ n.net →
        exec (.step paper mark) s = .next (w.endMove (if n.searching then (if m.kind = .load then .noPaper else .noEdge)
          else .done)).settle) ∧
      (¬ stalls → n.net < n.distance → exec (.step paper mark) s = .next w.settle) ∧
      (∀ (k : Nat) (x y : State), stalls → k = n.steps - 4 * n.pulses → x = w.stallCorrection k →
        y = { x with
          form := { x.form with
            tearDistance := if m.kind = .back ∨ m.kind = .tearAdvance then x.form.tearDistance - k else x.form.tearDistance }
          drive := { w.drive with move := some { n with net := n.net - k, stalls := n.stalls + 1 } } } →
        (n.stalls < 4 → exec (.step paper mark) s = .next ({ y with drive := { y.drive with state := .backoff 12 } }).settle) ∧
        (4 ≤ n.stalls → exec (.step paper mark) s = .next (y.endMove .jam).settle)))) ∧
  (∀ (s : State) (m : MoveContext) (e : MoveEnd) (f : FormPosition) (v x y z : State), s.drive.move = some m →
    f = (match m.kind, e with
      | .load, .done => { s.form with offset := 0, form := 0, paper := .present, trusted := true }
      | .load, .noPaper => { s.form with paper := .none }
      | .load, .jam => { s.form with paper := if s.form.paperSensor then .present else .none }
      | .park, .done => { s.form with paper := .parked }
      | .back, .done => { s.form with tear := .atPrint, tearDistance := 0 }
      | _, _ => s.form) →
    (e = .jam → v = { s with
      form := { f with pendingCorrection := none, trusted := false }
      drive := { s.drive with state := .stopped, move := none } }) →
    (e ≠ .jam →
      v = ({ s with form := f, drive := { s.drive with state := .stopped, move := none } }).phaseCorrection) →
    (v.form.offset = 0 ∨ v.form.form ≠ m.startForm →
      x = v.postBoth (.formBoundary v.form.form v.form.offset v.map.len m.dir v.form.trusted)) →
    (v.form.offset ≠ 0 → v.form.form = m.startForm → x = v) →
    y = (if e = .jam then x.postBoth (.jam m.source m.kind m.distance m.net x.form.form x.form.offset)
      else if e = .done ∧ m.kind = .tearAdvance then
        x.postBoth (.tearPosition x.form.form x.form.offset x.form.tearDistance m.source)
      else x) →
    z = { y with arb := { y.arb with halt := { y.arb.halt with
      jam := y.arb.halt.jam || decide (e = .jam)
      paperOut := y.arb.halt.paperOut || decide (e = .tail)
      noPaper := y.arb.halt.noPaper || decide (e = .noPaper) } } } →
    (m.source = .auto → s.endMove e = z) ∧
    (∀ c, m.source = .line → s.line = some c →
      (e = .jam → s.endMove e = ((z.loseDots c.unstruck false).modifyResult c.link (fun r =>
        { r with short := true })).setStage .jammed) ∧
      (e = .tail → s.endMove e = (z.loseDots c.unstruck false).completeLine) ∧
      (e = .done → s.endMove e = z.lineMoveDone)) ∧
    (∀ (l : Link) (q : SeqNo) (r b : MotionRun) (next : MoveKind → State)
        (done : State → MoveOutcome → Option NotMadeReason → State) (inside : Prop),
      m.source = .entry l q → s.drive.run = some r →
      b = (if m.kind = .back then { r with back := r.back + (match m.dir with | .forward => m.net | .reverse => -m.net) }
        else { r with
          distance := r.distance + (match m.kind with | .load => 0 | .park => 0 | .eject => 0 | _ => m.distance)
          moved := r.moved + m.net
          stalls := r.stalls + m.stalls }) →
      (∀ k, next k = { z with drive := { z.drive with run := some b, due := some ⟨.entry r.link r.seq, k⟩ } }) →
      (∀ w o reason, done w o reason = (({ w with drive := { w.drive with run := none } }).post r.link (.moveDone r.link r.seq
        r.kind o reason (match r.kind with | .load => none | .park => none | .path _ => none | _ => some b.distance) b.moved
        b.back b.stalls w.form.form w.form.offset w.form.paper w.form.tear w.form.path w.form.trusted)).completeEntry r.link) →
      (inside ↔ s.form.paper = .present ∨ ∃ d, s.form.paper = .tail d) →
      (e = .jam → s.endMove e = { z with drive := { z.drive with run := some { b with jammed := true } } }) ∧
      (∀ o, e = .tail ∧ o = .tail ∨ e = .noEdge ∧ o = .noEdge ∨ e = .noPaper ∧ o = .noPaper → s.endMove e = done z o none) ∧
      (e = .done →
        (∀ k, m.kind = .back → (inside ∧ ((∃ n, r.kind = .feed n ∧ k = .feed n) ∨ (r.kind = .vtab ∧ k = .vtab) ∨
            (r.kind = .formfeed ∧ k = .formfeed) ∨ (∃ n, s.form.path = .tractor ∧ r.kind = .reverse n ∧ k = .reverse n) ∨
            (s.form.path = .sheet ∧ r.kind = .path .tractor ∧ k = .eject))) ∨
            (r.kind = .load ∧ (∃ d, s.form.paper = .tail d) ∧ k = .eject) → s.endMove e = next k) ∧
        (∀ reason, m.kind = .back → (reason = .path ∧ s.form.path = .sheet ∧ ∃ n, r.kind = .reverse n) ∨
            (reason = .paper ∧ (s.form.paper = .none ∨ s.form.paper = .parked) ∧ (r.kind = .vtab ∨ r.kind = .formfeed ∨
              ∃ n, r.kind = .feed n ∨ (s.form.path = .tractor ∧ r.kind = .reverse n))) →
          s.endMove e = done z .notMade (some reason)) ∧
        (m.kind = .tearFeed → s.endMove e = next .tearAdvance) ∧
        (m.kind = .eject → r.kind = .load → s.endMove e = next .load) ∧
        (∀ p, m.kind = .eject ∨ m.kind = .park → r.kind = .path p → s.endMove e = done (z.changePath p) .done none) ∧
        (m.kind ≠ .back → m.kind ≠ .tearFeed → (m.kind = .eject → r.kind ≠ .load) →
          (m.kind = .eject ∨ m.kind = .park → ∀ p, r.kind ≠ .path p) → s.endMove e = done z .done none)))) ∧
  (∀ (s : State) (off : FormPosition), off = { s.form with
      path := .sheet, edge := .off, candidate := none, previousEdge := none, pendingCorrection := none } →
    s.changePath .tractor = { s with
      form := { s.form with path := .tractor, edge := if s.edgeFitted then .seeking else .off } } ∧
    (s.map.learned = none → s.changePath .sheet = { s with form := off }) ∧
    (∀ c n, s.map.learned = some c → n = s.map.programmed → s.changePath .sheet = { s with
      form := { off with offset := s.form.offset % n }
      map := { s.map with
        learned := none, tof := min s.map.tof (min 720 (n - 1)), skip := min s.map.skip (n / 2)
        stops := s.map.stops.filter (fun y => y < n) } }))

/-! ## The Arbiter's timers and the tally inputs (chapter 10) -/

/-- The idle-release timer starts when the Job queue is empty under the Job hold with no entry granted, and the auto-tear
timer runs exactly while the engine is IDLE at offset 0 of a present form with both queues empty (log entry 18). The expiry of
the idle-release timer releases the hold; that of the auto-tear timer asks for the tear advance on the
TRACTOR path with paper PRESENT; a tally input rises into RISING and falls into LOW; a qualified edge makes HIGH and acts
by the mode and the mask (R154, R168, R169, R170, R175, R178, R179). -/
def Obligations.TimersAndTallyInputs : Prop :=
  ∀ s : State,
    (∃ a b : Option Nat, s.judgeTimers = { s with arb := { s.arb with idleTimer := a, autoTimer := b } } ∧
      (s.arb.hold = true → s.store.job.queue = [] → s.arb.granted = none → s.arb.idleTimer = none →
        a = some (s.arb.head.idleRelease * 5000000)) ∧
      (s.arb.hold = false ∨ s.store.job.queue ≠ [] ∨ s.arb.granted ≠ none ∨ s.arb.idleTimer ≠ none → a = s.arb.idleTimer) ∧
      (∀ c : Prop, (c ↔ s.engine = .idle ∧ s.store.job.queue = [] ∧ s.store.console.queue = [] ∧ s.form.path = .tractor ∧
          s.form.paper = .present ∧ s.form.offset = 0 ∧ s.form.tear = .atPrint ∧ s.arb.head.autoTear ≠ 0) →
        (c → s.arb.autoTimer = none → b = some (s.arb.head.autoTear * 10000000)) ∧
        (c → s.arb.autoTimer ≠ none → b = s.arb.autoTimer) ∧ (¬ c → b = none))) ∧
    (∀ n, s.arb.idleTimer = some n → exec .idleReleaseTimerExpiry s =
      .next { s with arb := { s.arb with hold := false, idleTimer := none } }.settle) ∧
    (∀ n, s.arb.autoTimer = some n → s.form.path = .tractor → s.form.paper = .present → exec .automaticTear s = .next { s with
      arb := { s.arb with autoTimer := none }, drive := { s.drive with due := some ⟨.auto, .tearAdvance⟩ } }.settle) ∧
    (∀ n, s.arb.autoTimer = some n → s.form.path = .sheet ∨ s.form.paper ≠ .present →
      exec .automaticTear s = .next { s with arb := { s.arb with autoTimer := none } }.settle) ∧
    ∀ (i : Fin 2) (t : TallyUnit) (go : TallyUnit → State), t = s.tallyUnit i →
      (∀ x, go x = { s with tally := s.tally.set i.val x }) →
      (t.qual = .low → exec (.tallyInputChange i true) s = .next (go { t with qual := .rising 0 })) ∧
      exec (.tallyInputChange i false) s = .next (go { t with qual := .low }) ∧
      ∀ n, t.qual = .rising n →
        (t.mode = .off → exec (.qualifiedEdge i) s = .next (go { t with qual := .high }).settle) ∧
        (t.mode ≠ .off → t.unmasked = false →
          exec (.qualifiedEdge i) s = .next (go { t with qual := .high, latch := true }).settle) ∧
        (t.mode = .edge → t.unmasked = true →
          exec (.qualifiedEdge i) s = .next ((go { t with qual := .high }).release i .edge).settle) ∧
        (t.mode = .count → t.unmasked = true → t.present = 0 →
          exec (.qualifiedEdge i) s = .next (go { t with qual := .high }).settle) ∧
        (t.mode = .count → t.unmasked = true → t.present = 1 →
          exec (.qualifiedEdge i) s = .next ((go { t with qual := .high, present := t.armed }).release i .count).settle) ∧
        (t.mode = .count → t.unmasked = true → 2 ≤ t.present.toNat →
          exec (.qualifiedEdge i) s = .next (go { t with qual := .high, present := t.present - 1 }).settle)

/-! ## Invariants that every step keeps -/

/-- Every step keeps the form sound: the map in its ranges, the offset below the effective length, and a candidate that is
a form length (R126, R127, R129). -/
def Obligations.FormSoundIsKept : Prop :=
  ∀ s t : State, s.FormSound → step s = .next t → t.FormSound

/-- Every step keeps the carriage and the paper from being in motion together, and the index armed in the seek step alone
(R66, R77). -/
def Obligations.OneMotionIsKept : Prop :=
  ∀ s t : State, s.OneMotion → step s = .next t → t.OneMotion

/-- Every step keeps each block in one chain at most, each charge that of its chain, the shared region within its total,
and the queues in the order of acceptance (R18, R25, R27, R32). -/
def Obligations.StoreSoundIsKept : Prop :=
  ∀ s t : State, s.StoreSound → step s = .next t → t.StoreSound

/-- Every step keeps the accumulators, the notice queues, the pin records, the position counter, the count period and the
head settings in their ranges, at most 17 pins left to a coil test, and the Sequencer without a running timer or a repair
list while it is IDLE (R63, R64, R80, R87, R95, R101, R102, R111, R184, R186); that the list is emptied with the walk is log entry 36. -/
def Obligations.BoundsAreKept : Prop :=
  ∀ s t : State, s.Bounded → step s = .next t → t.Bounded

/-- Every step keeps at most one entry GRANTED, at the head of its queue, and the line, the motion or the coil test in
progress that entry's (R32, R33, R40, R102, R163). -/
def Obligations.GrantSoundIsKept : Prop :=
  ∀ s t : State, s.GrantSound → step s = .next t → t.GrantSound
end

