-- ==== Sys2Proof/Laws/Dots.lean ====
section
/-! SUPPORT. Sets of dots, column by column: what a set holds after one more column, a map over its columns, a union,
and which rows a set of striking pins stands for (R41, R44, R51). -/

namespace Sys2Proof.Machine

/-- The columns of a set of dots are in ascending order. -/
def ascending (d : DotSet) : Prop := (d.map (·.1)).Pairwise (· < ·)

@[simp] theorem dotsAt_nil (k : Nat) : dotsAt [] k = 0 := rfl

theorem dotsAt_cons (c : Nat) (m : Rows) (d : DotSet) (k : Nat) :
    dotsAt ((c, m) :: d) k = if k = c then m else dotsAt d k := by
  simp only [dotsAt, List.lookup]
  by_cases h : k = c
  · simp [h]
  · have : (k == c) = false := by simp [h]
    simp only [this, if_neg h]

theorem dotsAt_of_not_mem {d : DotSet} {k : Nat} (h : k ∉ d.map (·.1)) : dotsAt d k = 0 := by
  induction d with
  | nil => rfl
  | cons x d ih =>
    simp only [List.map_cons, List.mem_cons, not_or] at h
    rw [dotsAt_cons, if_neg h.1]
    exact ih h.2

theorem dotsMap_cons (f : Nat → Rows → Rows) (c : Nat) (m : Rows) (d : DotSet) :
    dotsMap f ((c, m) :: d) = if f c m = 0 then dotsMap f d else (c, f c m) :: dotsMap f d := by
  simp only [dotsMap, List.filterMap_cons]
  by_cases h : f c m = 0
  · simp only [if_pos h]
  · simp only [if_neg h]

/-- A map over the rows of each column, column by column. -/
theorem dotsAt_dotsMap {f : Nat → Rows → Rows} (hf : ∀ k, f k 0 = 0) {d : DotSet} (h : (d.map (·.1)).Nodup) (k : Nat) :
    dotsAt (dotsMap f d) k = f k (dotsAt d k) := by
  induction d with
  | nil => exact (hf k).symm
  | cons x d ih =>
    obtain ⟨c, m⟩ := x
    simp only [List.map_cons, List.nodup_cons] at h
    have ih := ih h.2
    have gone : dotsAt (dotsMap f d) c = 0 := by
      refine dotsAt_of_not_mem fun hc => h.1 ?_
      simp only [dotsMap, List.mem_map, List.mem_filterMap] at hc ⊢
      obtain ⟨a, ⟨x, hx, hy⟩, rfl⟩ := hc
      refine ⟨x, hx, ?_⟩
      split at hy
      · cases hy
      · rw [← Option.some.inj hy]
    rw [dotsMap_cons, dotsAt_cons]
    by_cases hk : k = c
    · subst hk
      split
      · rename_i hz
        rw [gone, if_pos rfl, hz]
      · rw [dotsAt_cons, if_pos rfl, if_pos rfl]
    · split
      · simpa [hk] using ih
      · simpa [dotsAt_cons, hk] using ih

theorem mem_dotsInsert {c : Nat} {m : Rows} {d : DotSet} {x : Nat} (h : x ∈ (dotsInsert c m d).map (·.1)) :
    x = c ∨ x ∈ d.map (·.1) := by
  induction d with
  | nil => simpa [dotsInsert] using h
  | cons y d ih =>
    simp only [dotsInsert] at h
    split at h
    · simpa using h
    · split at h
      · rename_i hc
        exact .inr (by simpa [hc] using h)
      · simp only [List.map_cons, List.mem_cons] at h ⊢
        rcases h with h | h
        · exact .inr (.inl h)
        · rcases ih h with h | h
          · exact .inl h
          · exact .inr (.inr h)

/-- One more column of dots keeps the order, and adds its rows to those of its column alone. -/
theorem dotsInsert_spec (c : Nat) (m : Rows) {d : DotSet} (h : ascending d) :
    ascending (dotsInsert c m d) ∧ ∀ k, dotsAt (dotsInsert c m d) k = dotsAt d k ||| if k = c then m else 0 := by
  induction d with
  | nil => exact ⟨by simp [ascending, dotsInsert], fun k => by simp [dotsInsert, dotsAt_cons]⟩
  | cons y d ih =>
    obtain ⟨b, n⟩ := y
    simp only [ascending, List.map_cons, List.pairwise_cons] at h ih ⊢
    have ih := ih h.2
    simp only [dotsInsert]
    split
    · rename_i hc
      refine ⟨?_, fun k => ?_⟩
      · simp only [List.map_cons, List.pairwise_cons, List.mem_cons]
        refine ⟨?_, h⟩
        rintro a (rfl | ha)
        · exact hc
        · exact lt_trans hc (h.1 a ha)
      · by_cases hk : k = c
        · subst hk
          rw [dotsAt_cons, dotsAt_of_not_mem (d := (b, n) :: d)]
          · simp
          · intro hm
            simp only [List.map_cons, List.mem_cons] at hm
            rcases hm with hm | hm
            · omega
            · have := h.1 _ hm; omega
        · simp [dotsAt_cons, hk]
    · split
      · rename_i hc
        subst hc
        refine ⟨by simpa using h, fun k => ?_⟩
        by_cases hk : k = c <;> simp [dotsAt_cons, hk, BitVec.or_comm]
      · rename_i hlt hne
        refine ⟨?_, fun k => ?_⟩
        · simp only [List.map_cons, List.pairwise_cons]
          refine ⟨fun a ha => ?_, ih.1⟩
          rcases mem_dotsInsert ha with rfl | ha
          · omega
          · exact h.1 a ha
        · by_cases hk : k = b
          · subst hk; simp [dotsAt_cons, Ne.symm hne]
          · simp [dotsAt_cons, hk, ih.2]

/-- The row of a dot and the pin that strikes it in a pass (R44). -/
theorem PassId.getLsbD_rowsOfPins (p : PassId) (m : Rows) (r : Pin) :
    (p.rowsOfPins m).getLsbD r.val = true ↔ ∃ i : Pin, m.getLsbD i.val = true ∧ (r.val : Int) = i.val + p.rowShift := by
  cases p with
  | main _ =>
    exact ⟨fun h => ⟨r, h, by simp [PassId.rowShift]⟩, fun ⟨i, h, e⟩ => by
      have : r = i := Fin.ext (by simp [PassId.rowShift] at e; exact e)
      subst this; exact h⟩
  | repair =>
    exact ⟨fun h => ⟨r, h, by simp [PassId.rowShift]⟩, fun ⟨i, h, e⟩ => by
      have : r = i := Fin.ext (by simp [PassId.rowShift] at e; exact e)
      subst this; exact h⟩
  | up _ =>
    simp only [PassId.rowsOfPins, PassId.rowShift, BitVec.getLsbD_shiftLeft, Bool.and_eq_true, decide_eq_true_eq,
      Bool.not_eq_true', decide_eq_false_iff_not]
    constructor
    · rintro ⟨⟨-, h1⟩, h⟩
      exact ⟨⟨r.val - 1, by omega⟩, h, by show (r.val : Int) = ((r.val - 1 : Nat) : Int) + 1; omega⟩
    · rintro ⟨i, h, e⟩
      have hi : r.val - 1 = i.val := by omega
      exact ⟨⟨r.isLt, by omega⟩, by rw [hi]; exact h⟩
  | down _ =>
    simp only [PassId.rowsOfPins, PassId.rowShift, BitVec.getLsbD_ushiftRight]
    constructor
    · intro h
      have : 1 + r.val < 18 := BitVec.lt_of_getLsbD h
      exact ⟨⟨1 + r.val, this⟩, h, by show (r.val : Int) = ((1 + r.val : Nat) : Int) + -1; omega⟩
    · rintro ⟨i, h, e⟩
      have hi : 1 + r.val = i.val := by omega
      rw [hi]; exact h

end Sys2Proof.Machine
end

