-- ==== Sys2Proof/Laws/State.lean ====
section
/-! SUPPORT. What each update of the state does to each field: one lemma for each field and update, true by `rfl`,
so that no later proof unfolds a record update. -/

namespace Sys2Proof.Machine

/-! ## One value for each link -/

@[simp] theorem PerLink.get_set_same {α : Type} (x : PerLink α) (l : Link) (v : α) : (x.set l v).get l = v := by
  cases l <;> rfl

theorem PerLink.get_set {α : Type} (x : PerLink α) (l k : Link) (v : α) :
    (x.set l v).get k = if k = l then v else x.get k := by
  cases l <;> cases k <;> rfl

@[simp] theorem PerLink.get_set_other {α : Type} (x : PerLink α) (l k : Link) (v : α) (h : k ≠ l) :
    (x.set l v).get k = x.get k := by
  rw [PerLink.get_set, if_neg h]

theorem PerLink.ext_get {α : Type} {x y : PerLink α} (h : ∀ l, x.get l = y.get l) : x = y := by
  cases x; cases y; exact congrArg₂ _ (h .job) (h .console)

/-! ## `State.modifyPort` -/

section
variable (s : State) (l : Link) (f : LinkPort → LinkPort)

@[simp] theorem State.modifyPort_width : (s.modifyPort l f).width = s.width := rfl
@[simp] theorem State.modifyPort_edgeFitted : (s.modifyPort l f).edgeFitted = s.edgeFitted := rfl
@[simp] theorem State.modifyPort_port : (s.modifyPort l f).port = s.port.set l (f (s.port.get l)) := rfl
@[simp] theorem State.modifyPort_store : (s.modifyPort l f).store = s.store := rfl
@[simp] theorem State.modifyPort_acceptCount : (s.modifyPort l f).acceptCount = s.acceptCount := rfl
@[simp] theorem State.modifyPort_arb : (s.modifyPort l f).arb = s.arb := rfl
@[simp] theorem State.modifyPort_line : (s.modifyPort l f).line = s.line := rfl
@[simp] theorem State.modifyPort_lists : (s.modifyPort l f).lists = s.lists := rfl
@[simp] theorem State.modifyPort_dwell : (s.modifyPort l f).dwell = s.dwell := rfl
@[simp] theorem State.modifyPort_car : (s.modifyPort l f).car = s.car := rfl
@[simp] theorem State.modifyPort_sequ : (s.modifyPort l f).sequ = s.sequ := rfl
@[simp] theorem State.modifyPort_channels : (s.modifyPort l f).channels = s.channels := rfl
@[simp] theorem State.modifyPort_health : (s.modifyPort l f).health = s.health := rfl
@[simp] theorem State.modifyPort_test : (s.modifyPort l f).test = s.test := rfl
@[simp] theorem State.modifyPort_heat : (s.modifyPort l f).heat = s.heat := rfl
@[simp] theorem State.modifyPort_form : (s.modifyPort l f).form = s.form := rfl
@[simp] theorem State.modifyPort_map : (s.modifyPort l f).map = s.map := rfl
@[simp] theorem State.modifyPort_drive : (s.modifyPort l f).drive = s.drive := rfl
@[simp] theorem State.modifyPort_tally : (s.modifyPort l f).tally = s.tally := rfl
@[simp] theorem State.modifyPort_freeIndex : (s.modifyPort l f).freeIndex = s.freeIndex := rfl
@[simp] theorem State.modifyPort_pending : (s.modifyPort l f).pending = s.pending := rfl
@[simp] theorem State.modifyPort_steppers : (s.modifyPort l f).steppers = s.steppers := rfl

end

/-! ## `State.post` -/

section
variable (s : State) (l : Link) (n : Notice)

@[simp] theorem State.post_width : (s.post l n).width = s.width := rfl
@[simp] theorem State.post_edgeFitted : (s.post l n).edgeFitted = s.edgeFitted := rfl
@[simp] theorem State.post_port : (s.post l n).port = s.port.set l ((s.port.get l).post n) := rfl
@[simp] theorem State.post_store : (s.post l n).store = s.store := rfl
@[simp] theorem State.post_acceptCount : (s.post l n).acceptCount = s.acceptCount := rfl
@[simp] theorem State.post_arb : (s.post l n).arb = s.arb := rfl
@[simp] theorem State.post_line : (s.post l n).line = s.line := rfl
@[simp] theorem State.post_lists : (s.post l n).lists = s.lists := rfl
@[simp] theorem State.post_dwell : (s.post l n).dwell = s.dwell := rfl
@[simp] theorem State.post_car : (s.post l n).car = s.car := rfl
@[simp] theorem State.post_sequ : (s.post l n).sequ = s.sequ := rfl
@[simp] theorem State.post_channels : (s.post l n).channels = s.channels := rfl
@[simp] theorem State.post_health : (s.post l n).health = s.health := rfl
@[simp] theorem State.post_test : (s.post l n).test = s.test := rfl
@[simp] theorem State.post_heat : (s.post l n).heat = s.heat := rfl
@[simp] theorem State.post_form : (s.post l n).form = s.form := rfl
@[simp] theorem State.post_map : (s.post l n).map = s.map := rfl
@[simp] theorem State.post_drive : (s.post l n).drive = s.drive := rfl
@[simp] theorem State.post_tally : (s.post l n).tally = s.tally := rfl
@[simp] theorem State.post_freeIndex : (s.post l n).freeIndex = s.freeIndex := rfl
@[simp] theorem State.post_pending : (s.post l n).pending = s.pending := rfl
@[simp] theorem State.post_steppers : (s.post l n).steppers = s.steppers := rfl

end

/-! ## `State.postBoth` -/

section
variable (s : State) (n : Notice)

@[simp] theorem State.postBoth_width : (s.postBoth n).width = s.width := rfl
@[simp] theorem State.postBoth_edgeFitted : (s.postBoth n).edgeFitted = s.edgeFitted := rfl
@[simp] theorem State.postBoth_port : (s.postBoth n).port = ⟨s.port.job.post n, s.port.console.post n⟩ := rfl
@[simp] theorem State.postBoth_store : (s.postBoth n).store = s.store := rfl
@[simp] theorem State.postBoth_acceptCount : (s.postBoth n).acceptCount = s.acceptCount := rfl
@[simp] theorem State.postBoth_arb : (s.postBoth n).arb = s.arb := rfl
@[simp] theorem State.postBoth_line : (s.postBoth n).line = s.line := rfl
@[simp] theorem State.postBoth_lists : (s.postBoth n).lists = s.lists := rfl
@[simp] theorem State.postBoth_dwell : (s.postBoth n).dwell = s.dwell := rfl
@[simp] theorem State.postBoth_car : (s.postBoth n).car = s.car := rfl
@[simp] theorem State.postBoth_sequ : (s.postBoth n).sequ = s.sequ := rfl
@[simp] theorem State.postBoth_channels : (s.postBoth n).channels = s.channels := rfl
@[simp] theorem State.postBoth_health : (s.postBoth n).health = s.health := rfl
@[simp] theorem State.postBoth_test : (s.postBoth n).test = s.test := rfl
@[simp] theorem State.postBoth_heat : (s.postBoth n).heat = s.heat := rfl
@[simp] theorem State.postBoth_form : (s.postBoth n).form = s.form := rfl
@[simp] theorem State.postBoth_map : (s.postBoth n).map = s.map := rfl
@[simp] theorem State.postBoth_drive : (s.postBoth n).drive = s.drive := rfl
@[simp] theorem State.postBoth_tally : (s.postBoth n).tally = s.tally := rfl
@[simp] theorem State.postBoth_freeIndex : (s.postBoth n).freeIndex = s.freeIndex := rfl
@[simp] theorem State.postBoth_pending : (s.postBoth n).pending = s.pending := rfl
@[simp] theorem State.postBoth_steppers : (s.postBoth n).steppers = s.steppers := rfl

end

/-! ## `State.modifyStore` -/

section
variable (s : State) (l : Link) (f : LinkStore → LinkStore)

@[simp] theorem State.modifyStore_width : (s.modifyStore l f).width = s.width := rfl
@[simp] theorem State.modifyStore_edgeFitted : (s.modifyStore l f).edgeFitted = s.edgeFitted := rfl
@[simp] theorem State.modifyStore_port : (s.modifyStore l f).port = s.port := rfl
@[simp] theorem State.modifyStore_store : (s.modifyStore l f).store = s.store.set l (f (s.store.get l)) := rfl
@[simp] theorem State.modifyStore_acceptCount : (s.modifyStore l f).acceptCount = s.acceptCount := rfl
@[simp] theorem State.modifyStore_arb : (s.modifyStore l f).arb = s.arb := rfl
@[simp] theorem State.modifyStore_line : (s.modifyStore l f).line = s.line := rfl
@[simp] theorem State.modifyStore_lists : (s.modifyStore l f).lists = s.lists := rfl
@[simp] theorem State.modifyStore_dwell : (s.modifyStore l f).dwell = s.dwell := rfl
@[simp] theorem State.modifyStore_car : (s.modifyStore l f).car = s.car := rfl
@[simp] theorem State.modifyStore_sequ : (s.modifyStore l f).sequ = s.sequ := rfl
@[simp] theorem State.modifyStore_channels : (s.modifyStore l f).channels = s.channels := rfl
@[simp] theorem State.modifyStore_health : (s.modifyStore l f).health = s.health := rfl
@[simp] theorem State.modifyStore_test : (s.modifyStore l f).test = s.test := rfl
@[simp] theorem State.modifyStore_heat : (s.modifyStore l f).heat = s.heat := rfl
@[simp] theorem State.modifyStore_form : (s.modifyStore l f).form = s.form := rfl
@[simp] theorem State.modifyStore_map : (s.modifyStore l f).map = s.map := rfl
@[simp] theorem State.modifyStore_drive : (s.modifyStore l f).drive = s.drive := rfl
@[simp] theorem State.modifyStore_tally : (s.modifyStore l f).tally = s.tally := rfl
@[simp] theorem State.modifyStore_freeIndex : (s.modifyStore l f).freeIndex = s.freeIndex := rfl
@[simp] theorem State.modifyStore_pending : (s.modifyStore l f).pending = s.pending := rfl
@[simp] theorem State.modifyStore_steppers : (s.modifyStore l f).steppers = s.steppers := rfl

end

/-! ## `State.reflow` -/

section
variable (s : State)

@[simp] theorem State.reflow_width : (s.reflow).width = s.width := rfl
@[simp] theorem State.reflow_edgeFitted : (s.reflow).edgeFitted = s.edgeFitted := rfl
@[simp] theorem State.reflow_port : (s.reflow).port = s.port := rfl
@[simp] theorem State.reflow_acceptCount : (s.reflow).acceptCount = s.acceptCount := rfl
@[simp] theorem State.reflow_arb : (s.reflow).arb = s.arb := rfl
@[simp] theorem State.reflow_line : (s.reflow).line = s.line := rfl
@[simp] theorem State.reflow_lists : (s.reflow).lists = s.lists := rfl
@[simp] theorem State.reflow_dwell : (s.reflow).dwell = s.dwell := rfl
@[simp] theorem State.reflow_car : (s.reflow).car = s.car := rfl
@[simp] theorem State.reflow_sequ : (s.reflow).sequ = s.sequ := rfl
@[simp] theorem State.reflow_channels : (s.reflow).channels = s.channels := rfl
@[simp] theorem State.reflow_health : (s.reflow).health = s.health := rfl
@[simp] theorem State.reflow_test : (s.reflow).test = s.test := rfl
@[simp] theorem State.reflow_heat : (s.reflow).heat = s.heat := rfl
@[simp] theorem State.reflow_form : (s.reflow).form = s.form := rfl
@[simp] theorem State.reflow_map : (s.reflow).map = s.map := rfl
@[simp] theorem State.reflow_drive : (s.reflow).drive = s.drive := rfl
@[simp] theorem State.reflow_tally : (s.reflow).tally = s.tally := rfl
@[simp] theorem State.reflow_freeIndex : (s.reflow).freeIndex = s.freeIndex := rfl
@[simp] theorem State.reflow_pending : (s.reflow).pending = s.pending := rfl
@[simp] theorem State.reflow_steppers : (s.reflow).steppers = s.steppers := rfl

end

/-! ## `State.releaseHead` -/

section
variable (s : State) (l : Link)

@[simp] theorem State.releaseHead_width : (s.releaseHead l).width = s.width := rfl
@[simp] theorem State.releaseHead_edgeFitted : (s.releaseHead l).edgeFitted = s.edgeFitted := rfl
@[simp] theorem State.releaseHead_port : (s.releaseHead l).port = s.port := rfl
@[simp] theorem State.releaseHead_acceptCount : (s.releaseHead l).acceptCount = s.acceptCount := rfl
@[simp] theorem State.releaseHead_arb : (s.releaseHead l).arb = s.arb := rfl
@[simp] theorem State.releaseHead_line : (s.releaseHead l).line = s.line := rfl
@[simp] theorem State.releaseHead_lists : (s.releaseHead l).lists = s.lists := rfl
@[simp] theorem State.releaseHead_dwell : (s.releaseHead l).dwell = s.dwell := rfl
@[simp] theorem State.releaseHead_car : (s.releaseHead l).car = s.car := rfl
@[simp] theorem State.releaseHead_sequ : (s.releaseHead l).sequ = s.sequ := rfl
@[simp] theorem State.releaseHead_channels : (s.releaseHead l).channels = s.channels := rfl
@[simp] theorem State.releaseHead_health : (s.releaseHead l).health = s.health := rfl
@[simp] theorem State.releaseHead_test : (s.releaseHead l).test = s.test := rfl
@[simp] theorem State.releaseHead_heat : (s.releaseHead l).heat = s.heat := rfl
@[simp] theorem State.releaseHead_form : (s.releaseHead l).form = s.form := rfl
@[simp] theorem State.releaseHead_map : (s.releaseHead l).map = s.map := rfl
@[simp] theorem State.releaseHead_drive : (s.releaseHead l).drive = s.drive := rfl
@[simp] theorem State.releaseHead_tally : (s.releaseHead l).tally = s.tally := rfl
@[simp] theorem State.releaseHead_freeIndex : (s.releaseHead l).freeIndex = s.freeIndex := rfl
@[simp] theorem State.releaseHead_pending : (s.releaseHead l).pending = s.pending := rfl
@[simp] theorem State.releaseHead_steppers : (s.releaseHead l).steppers = s.steppers := rfl

end

/-! ## `State.purge` -/

section
variable (s : State) (l : Link)

@[simp] theorem State.purge_width : (s.purge l).width = s.width := rfl
@[simp] theorem State.purge_edgeFitted : (s.purge l).edgeFitted = s.edgeFitted := rfl
@[simp] theorem State.purge_port : (s.purge l).port = s.port := rfl
@[simp] theorem State.purge_acceptCount : (s.purge l).acceptCount = s.acceptCount := rfl
@[simp] theorem State.purge_arb : (s.purge l).arb = s.arb := rfl
@[simp] theorem State.purge_line : (s.purge l).line = s.line := rfl
@[simp] theorem State.purge_lists : (s.purge l).lists = s.lists := rfl
@[simp] theorem State.purge_dwell : (s.purge l).dwell = s.dwell := rfl
@[simp] theorem State.purge_car : (s.purge l).car = s.car := rfl
@[simp] theorem State.purge_sequ : (s.purge l).sequ = s.sequ := rfl
@[simp] theorem State.purge_channels : (s.purge l).channels = s.channels := rfl
@[simp] theorem State.purge_health : (s.purge l).health = s.health := rfl
@[simp] theorem State.purge_test : (s.purge l).test = s.test := rfl
@[simp] theorem State.purge_heat : (s.purge l).heat = s.heat := rfl
@[simp] theorem State.purge_form : (s.purge l).form = s.form := rfl
@[simp] theorem State.purge_map : (s.purge l).map = s.map := rfl
@[simp] theorem State.purge_drive : (s.purge l).drive = s.drive := rfl
@[simp] theorem State.purge_tally : (s.purge l).tally = s.tally := rfl
@[simp] theorem State.purge_freeIndex : (s.purge l).freeIndex = s.freeIndex := rfl
@[simp] theorem State.purge_pending : (s.purge l).pending = s.pending := rfl
@[simp] theorem State.purge_steppers : (s.purge l).steppers = s.steppers := rfl

end

/-! ## `State.modifyHead` -/

section
variable (s : State) (l : Link) (f : Entry → Entry)

@[simp] theorem State.modifyHead_width : (s.modifyHead l f).width = s.width := rfl
@[simp] theorem State.modifyHead_edgeFitted : (s.modifyHead l f).edgeFitted = s.edgeFitted := rfl
@[simp] theorem State.modifyHead_port : (s.modifyHead l f).port = s.port := rfl
@[simp] theorem State.modifyHead_acceptCount : (s.modifyHead l f).acceptCount = s.acceptCount := rfl
@[simp] theorem State.modifyHead_arb : (s.modifyHead l f).arb = s.arb := rfl
@[simp] theorem State.modifyHead_line : (s.modifyHead l f).line = s.line := rfl
@[simp] theorem State.modifyHead_lists : (s.modifyHead l f).lists = s.lists := rfl
@[simp] theorem State.modifyHead_dwell : (s.modifyHead l f).dwell = s.dwell := rfl
@[simp] theorem State.modifyHead_car : (s.modifyHead l f).car = s.car := rfl
@[simp] theorem State.modifyHead_sequ : (s.modifyHead l f).sequ = s.sequ := rfl
@[simp] theorem State.modifyHead_channels : (s.modifyHead l f).channels = s.channels := rfl
@[simp] theorem State.modifyHead_health : (s.modifyHead l f).health = s.health := rfl
@[simp] theorem State.modifyHead_test : (s.modifyHead l f).test = s.test := rfl
@[simp] theorem State.modifyHead_heat : (s.modifyHead l f).heat = s.heat := rfl
@[simp] theorem State.modifyHead_form : (s.modifyHead l f).form = s.form := rfl
@[simp] theorem State.modifyHead_map : (s.modifyHead l f).map = s.map := rfl
@[simp] theorem State.modifyHead_drive : (s.modifyHead l f).drive = s.drive := rfl
@[simp] theorem State.modifyHead_tally : (s.modifyHead l f).tally = s.tally := rfl
@[simp] theorem State.modifyHead_freeIndex : (s.modifyHead l f).freeIndex = s.freeIndex := rfl
@[simp] theorem State.modifyHead_pending : (s.modifyHead l f).pending = s.pending := rfl
@[simp] theorem State.modifyHead_steppers : (s.modifyHead l f).steppers = s.steppers := rfl

end

/-! ## `State.modifyResult` -/

section
variable (s : State) (l : Link) (f : LineResult → LineResult)

@[simp] theorem State.modifyResult_width : (s.modifyResult l f).width = s.width := rfl
@[simp] theorem State.modifyResult_edgeFitted : (s.modifyResult l f).edgeFitted = s.edgeFitted := rfl
@[simp] theorem State.modifyResult_port : (s.modifyResult l f).port = s.port := rfl
@[simp] theorem State.modifyResult_acceptCount : (s.modifyResult l f).acceptCount = s.acceptCount := rfl
@[simp] theorem State.modifyResult_arb : (s.modifyResult l f).arb = s.arb := rfl
@[simp] theorem State.modifyResult_line : (s.modifyResult l f).line = s.line := rfl
@[simp] theorem State.modifyResult_lists : (s.modifyResult l f).lists = s.lists := rfl
@[simp] theorem State.modifyResult_dwell : (s.modifyResult l f).dwell = s.dwell := rfl
@[simp] theorem State.modifyResult_car : (s.modifyResult l f).car = s.car := rfl
@[simp] theorem State.modifyResult_sequ : (s.modifyResult l f).sequ = s.sequ := rfl
@[simp] theorem State.modifyResult_channels : (s.modifyResult l f).channels = s.channels := rfl
@[simp] theorem State.modifyResult_health : (s.modifyResult l f).health = s.health := rfl
@[simp] theorem State.modifyResult_test : (s.modifyResult l f).test = s.test := rfl
@[simp] theorem State.modifyResult_heat : (s.modifyResult l f).heat = s.heat := rfl
@[simp] theorem State.modifyResult_form : (s.modifyResult l f).form = s.form := rfl
@[simp] theorem State.modifyResult_map : (s.modifyResult l f).map = s.map := rfl
@[simp] theorem State.modifyResult_drive : (s.modifyResult l f).drive = s.drive := rfl
@[simp] theorem State.modifyResult_tally : (s.modifyResult l f).tally = s.tally := rfl
@[simp] theorem State.modifyResult_freeIndex : (s.modifyResult l f).freeIndex = s.freeIndex := rfl
@[simp] theorem State.modifyResult_pending : (s.modifyResult l f).pending = s.pending := rfl
@[simp] theorem State.modifyResult_steppers : (s.modifyResult l f).steppers = s.steppers := rfl

end

/-! ## `State.releaseHold` -/

section
variable (s : State)

@[simp] theorem State.releaseHold_width : (s.releaseHold).width = s.width := rfl
@[simp] theorem State.releaseHold_edgeFitted : (s.releaseHold).edgeFitted = s.edgeFitted := rfl
@[simp] theorem State.releaseHold_port : (s.releaseHold).port = s.port := rfl
@[simp] theorem State.releaseHold_store : (s.releaseHold).store = s.store := rfl
@[simp] theorem State.releaseHold_acceptCount : (s.releaseHold).acceptCount = s.acceptCount := rfl
@[simp] theorem State.releaseHold_arb : (s.releaseHold).arb = { s.arb with hold := false, idleTimer := none } := rfl
@[simp] theorem State.releaseHold_line : (s.releaseHold).line = s.line := rfl
@[simp] theorem State.releaseHold_lists : (s.releaseHold).lists = s.lists := rfl
@[simp] theorem State.releaseHold_dwell : (s.releaseHold).dwell = s.dwell := rfl
@[simp] theorem State.releaseHold_car : (s.releaseHold).car = s.car := rfl
@[simp] theorem State.releaseHold_sequ : (s.releaseHold).sequ = s.sequ := rfl
@[simp] theorem State.releaseHold_channels : (s.releaseHold).channels = s.channels := rfl
@[simp] theorem State.releaseHold_health : (s.releaseHold).health = s.health := rfl
@[simp] theorem State.releaseHold_test : (s.releaseHold).test = s.test := rfl
@[simp] theorem State.releaseHold_heat : (s.releaseHold).heat = s.heat := rfl
@[simp] theorem State.releaseHold_form : (s.releaseHold).form = s.form := rfl
@[simp] theorem State.releaseHold_map : (s.releaseHold).map = s.map := rfl
@[simp] theorem State.releaseHold_drive : (s.releaseHold).drive = s.drive := rfl
@[simp] theorem State.releaseHold_tally : (s.releaseHold).tally = s.tally := rfl
@[simp] theorem State.releaseHold_freeIndex : (s.releaseHold).freeIndex = s.freeIndex := rfl
@[simp] theorem State.releaseHold_pending : (s.releaseHold).pending = s.pending := rfl
@[simp] theorem State.releaseHold_steppers : (s.releaseHold).steppers = s.steppers := rfl

end

/-! ## `State.modifyHalt` -/

section
variable (s : State) (f : HaltSet → HaltSet)

@[simp] theorem State.modifyHalt_width : (s.modifyHalt f).width = s.width := rfl
@[simp] theorem State.modifyHalt_edgeFitted : (s.modifyHalt f).edgeFitted = s.edgeFitted := rfl
@[simp] theorem State.modifyHalt_port : (s.modifyHalt f).port = s.port := rfl
@[simp] theorem State.modifyHalt_store : (s.modifyHalt f).store = s.store := rfl
@[simp] theorem State.modifyHalt_acceptCount : (s.modifyHalt f).acceptCount = s.acceptCount := rfl
@[simp] theorem State.modifyHalt_arb : (s.modifyHalt f).arb = { s.arb with halt := f s.arb.halt } := rfl
@[simp] theorem State.modifyHalt_line : (s.modifyHalt f).line = s.line := rfl
@[simp] theorem State.modifyHalt_lists : (s.modifyHalt f).lists = s.lists := rfl
@[simp] theorem State.modifyHalt_dwell : (s.modifyHalt f).dwell = s.dwell := rfl
@[simp] theorem State.modifyHalt_car : (s.modifyHalt f).car = s.car := rfl
@[simp] theorem State.modifyHalt_sequ : (s.modifyHalt f).sequ = s.sequ := rfl
@[simp] theorem State.modifyHalt_channels : (s.modifyHalt f).channels = s.channels := rfl
@[simp] theorem State.modifyHalt_health : (s.modifyHalt f).health = s.health := rfl
@[simp] theorem State.modifyHalt_test : (s.modifyHalt f).test = s.test := rfl
@[simp] theorem State.modifyHalt_heat : (s.modifyHalt f).heat = s.heat := rfl
@[simp] theorem State.modifyHalt_form : (s.modifyHalt f).form = s.form := rfl
@[simp] theorem State.modifyHalt_map : (s.modifyHalt f).map = s.map := rfl
@[simp] theorem State.modifyHalt_drive : (s.modifyHalt f).drive = s.drive := rfl
@[simp] theorem State.modifyHalt_tally : (s.modifyHalt f).tally = s.tally := rfl
@[simp] theorem State.modifyHalt_freeIndex : (s.modifyHalt f).freeIndex = s.freeIndex := rfl
@[simp] theorem State.modifyHalt_pending : (s.modifyHalt f).pending = s.pending := rfl
@[simp] theorem State.modifyHalt_steppers : (s.modifyHalt f).steppers = s.steppers := rfl

end

/-! ## `State.modifyArb` -/

section
variable (s : State) (f : Arbiter → Arbiter)

@[simp] theorem State.modifyArb_width : (s.modifyArb f).width = s.width := rfl
@[simp] theorem State.modifyArb_edgeFitted : (s.modifyArb f).edgeFitted = s.edgeFitted := rfl
@[simp] theorem State.modifyArb_port : (s.modifyArb f).port = s.port := rfl
@[simp] theorem State.modifyArb_store : (s.modifyArb f).store = s.store := rfl
@[simp] theorem State.modifyArb_acceptCount : (s.modifyArb f).acceptCount = s.acceptCount := rfl
@[simp] theorem State.modifyArb_arb : (s.modifyArb f).arb = f s.arb := rfl
@[simp] theorem State.modifyArb_line : (s.modifyArb f).line = s.line := rfl
@[simp] theorem State.modifyArb_lists : (s.modifyArb f).lists = s.lists := rfl
@[simp] theorem State.modifyArb_dwell : (s.modifyArb f).dwell = s.dwell := rfl
@[simp] theorem State.modifyArb_car : (s.modifyArb f).car = s.car := rfl
@[simp] theorem State.modifyArb_sequ : (s.modifyArb f).sequ = s.sequ := rfl
@[simp] theorem State.modifyArb_channels : (s.modifyArb f).channels = s.channels := rfl
@[simp] theorem State.modifyArb_health : (s.modifyArb f).health = s.health := rfl
@[simp] theorem State.modifyArb_test : (s.modifyArb f).test = s.test := rfl
@[simp] theorem State.modifyArb_heat : (s.modifyArb f).heat = s.heat := rfl
@[simp] theorem State.modifyArb_form : (s.modifyArb f).form = s.form := rfl
@[simp] theorem State.modifyArb_map : (s.modifyArb f).map = s.map := rfl
@[simp] theorem State.modifyArb_drive : (s.modifyArb f).drive = s.drive := rfl
@[simp] theorem State.modifyArb_tally : (s.modifyArb f).tally = s.tally := rfl
@[simp] theorem State.modifyArb_freeIndex : (s.modifyArb f).freeIndex = s.freeIndex := rfl
@[simp] theorem State.modifyArb_pending : (s.modifyArb f).pending = s.pending := rfl
@[simp] theorem State.modifyArb_steppers : (s.modifyArb f).steppers = s.steppers := rfl

end

/-! ## `State.modifyLine` -/

section
variable (s : State) (f : LineContext → LineContext)

@[simp] theorem State.modifyLine_width : (s.modifyLine f).width = s.width := rfl
@[simp] theorem State.modifyLine_edgeFitted : (s.modifyLine f).edgeFitted = s.edgeFitted := rfl
@[simp] theorem State.modifyLine_port : (s.modifyLine f).port = s.port := rfl
@[simp] theorem State.modifyLine_store : (s.modifyLine f).store = s.store := rfl
@[simp] theorem State.modifyLine_acceptCount : (s.modifyLine f).acceptCount = s.acceptCount := rfl
@[simp] theorem State.modifyLine_arb : (s.modifyLine f).arb = s.arb := rfl
@[simp] theorem State.modifyLine_line : (s.modifyLine f).line = s.line.map f := rfl
@[simp] theorem State.modifyLine_lists : (s.modifyLine f).lists = s.lists := rfl
@[simp] theorem State.modifyLine_dwell : (s.modifyLine f).dwell = s.dwell := rfl
@[simp] theorem State.modifyLine_car : (s.modifyLine f).car = s.car := rfl
@[simp] theorem State.modifyLine_sequ : (s.modifyLine f).sequ = s.sequ := rfl
@[simp] theorem State.modifyLine_channels : (s.modifyLine f).channels = s.channels := rfl
@[simp] theorem State.modifyLine_health : (s.modifyLine f).health = s.health := rfl
@[simp] theorem State.modifyLine_test : (s.modifyLine f).test = s.test := rfl
@[simp] theorem State.modifyLine_heat : (s.modifyLine f).heat = s.heat := rfl
@[simp] theorem State.modifyLine_form : (s.modifyLine f).form = s.form := rfl
@[simp] theorem State.modifyLine_map : (s.modifyLine f).map = s.map := rfl
@[simp] theorem State.modifyLine_drive : (s.modifyLine f).drive = s.drive := rfl
@[simp] theorem State.modifyLine_tally : (s.modifyLine f).tally = s.tally := rfl
@[simp] theorem State.modifyLine_freeIndex : (s.modifyLine f).freeIndex = s.freeIndex := rfl
@[simp] theorem State.modifyLine_pending : (s.modifyLine f).pending = s.pending := rfl
@[simp] theorem State.modifyLine_steppers : (s.modifyLine f).steppers = s.steppers := rfl

end

/-! ## `State.setStage` -/

section
variable (s : State) (g : LineStage)

@[simp] theorem State.setStage_width : (s.setStage g).width = s.width := rfl
@[simp] theorem State.setStage_edgeFitted : (s.setStage g).edgeFitted = s.edgeFitted := rfl
@[simp] theorem State.setStage_port : (s.setStage g).port = s.port := rfl
@[simp] theorem State.setStage_store : (s.setStage g).store = s.store := rfl
@[simp] theorem State.setStage_acceptCount : (s.setStage g).acceptCount = s.acceptCount := rfl
@[simp] theorem State.setStage_arb : (s.setStage g).arb = s.arb := rfl
@[simp] theorem State.setStage_line : (s.setStage g).line = s.line.map (fun c => { c with stage := g }) := rfl
@[simp] theorem State.setStage_lists : (s.setStage g).lists = s.lists := rfl
@[simp] theorem State.setStage_dwell : (s.setStage g).dwell = s.dwell := rfl
@[simp] theorem State.setStage_car : (s.setStage g).car = s.car := rfl
@[simp] theorem State.setStage_sequ : (s.setStage g).sequ = s.sequ := rfl
@[simp] theorem State.setStage_channels : (s.setStage g).channels = s.channels := rfl
@[simp] theorem State.setStage_health : (s.setStage g).health = s.health := rfl
@[simp] theorem State.setStage_test : (s.setStage g).test = s.test := rfl
@[simp] theorem State.setStage_heat : (s.setStage g).heat = s.heat := rfl
@[simp] theorem State.setStage_form : (s.setStage g).form = s.form := rfl
@[simp] theorem State.setStage_map : (s.setStage g).map = s.map := rfl
@[simp] theorem State.setStage_drive : (s.setStage g).drive = s.drive := rfl
@[simp] theorem State.setStage_tally : (s.setStage g).tally = s.tally := rfl
@[simp] theorem State.setStage_freeIndex : (s.setStage g).freeIndex = s.freeIndex := rfl
@[simp] theorem State.setStage_pending : (s.setStage g).pending = s.pending := rfl
@[simp] theorem State.setStage_steppers : (s.setStage g).steppers = s.steppers := rfl

end

/-! ## `State.setList` -/

section
variable (s : State) (i : Fin 2) (x : StrikeList)

@[simp] theorem State.setList_width : (s.setList i x).width = s.width := rfl
@[simp] theorem State.setList_edgeFitted : (s.setList i x).edgeFitted = s.edgeFitted := rfl
@[simp] theorem State.setList_port : (s.setList i x).port = s.port := rfl
@[simp] theorem State.setList_store : (s.setList i x).store = s.store := rfl
@[simp] theorem State.setList_acceptCount : (s.setList i x).acceptCount = s.acceptCount := rfl
@[simp] theorem State.setList_arb : (s.setList i x).arb = s.arb := rfl
@[simp] theorem State.setList_line : (s.setList i x).line = s.line := rfl
@[simp] theorem State.setList_lists : (s.setList i x).lists = s.lists.set i.val x := rfl
@[simp] theorem State.setList_dwell : (s.setList i x).dwell = s.dwell := rfl
@[simp] theorem State.setList_car : (s.setList i x).car = s.car := rfl
@[simp] theorem State.setList_sequ : (s.setList i x).sequ = s.sequ := rfl
@[simp] theorem State.setList_channels : (s.setList i x).channels = s.channels := rfl
@[simp] theorem State.setList_health : (s.setList i x).health = s.health := rfl
@[simp] theorem State.setList_test : (s.setList i x).test = s.test := rfl
@[simp] theorem State.setList_heat : (s.setList i x).heat = s.heat := rfl
@[simp] theorem State.setList_form : (s.setList i x).form = s.form := rfl
@[simp] theorem State.setList_map : (s.setList i x).map = s.map := rfl
@[simp] theorem State.setList_drive : (s.setList i x).drive = s.drive := rfl
@[simp] theorem State.setList_tally : (s.setList i x).tally = s.tally := rfl
@[simp] theorem State.setList_freeIndex : (s.setList i x).freeIndex = s.freeIndex := rfl
@[simp] theorem State.setList_pending : (s.setList i x).pending = s.pending := rfl
@[simp] theorem State.setList_steppers : (s.setList i x).steppers = s.steppers := rfl

end

/-! ## `State.dropPlan` -/

section
variable (s : State)

@[simp] theorem State.dropPlan_width : (s.dropPlan).width = s.width := rfl
@[simp] theorem State.dropPlan_edgeFitted : (s.dropPlan).edgeFitted = s.edgeFitted := rfl
@[simp] theorem State.dropPlan_port : (s.dropPlan).port = s.port := rfl
@[simp] theorem State.dropPlan_store : (s.dropPlan).store = s.store := rfl
@[simp] theorem State.dropPlan_acceptCount : (s.dropPlan).acceptCount = s.acceptCount := rfl
@[simp] theorem State.dropPlan_arb : (s.dropPlan).arb = s.arb := rfl
@[simp] theorem State.dropPlan_line : (s.dropPlan).line = s.line := rfl
@[simp] theorem State.dropPlan_lists : (s.dropPlan).lists = s.lists.map (fun x => if x.isWaiting then .free else x) := rfl
@[simp] theorem State.dropPlan_dwell : (s.dropPlan).dwell = .none := rfl
@[simp] theorem State.dropPlan_car : (s.dropPlan).car = s.car := rfl
@[simp] theorem State.dropPlan_sequ : (s.dropPlan).sequ = s.sequ := rfl
@[simp] theorem State.dropPlan_channels : (s.dropPlan).channels = s.channels := rfl
@[simp] theorem State.dropPlan_health : (s.dropPlan).health = s.health := rfl
@[simp] theorem State.dropPlan_test : (s.dropPlan).test = s.test := rfl
@[simp] theorem State.dropPlan_heat : (s.dropPlan).heat = s.heat := rfl
@[simp] theorem State.dropPlan_form : (s.dropPlan).form = s.form := rfl
@[simp] theorem State.dropPlan_map : (s.dropPlan).map = s.map := rfl
@[simp] theorem State.dropPlan_drive : (s.dropPlan).drive = s.drive := rfl
@[simp] theorem State.dropPlan_tally : (s.dropPlan).tally = s.tally := rfl
@[simp] theorem State.dropPlan_freeIndex : (s.dropPlan).freeIndex = s.freeIndex := rfl
@[simp] theorem State.dropPlan_pending : (s.dropPlan).pending = s.pending := rfl
@[simp] theorem State.dropPlan_steppers : (s.dropPlan).steppers = s.steppers := rfl

end

/-! ## `State.freeLists` -/

section
variable (s : State)

@[simp] theorem State.freeLists_width : (s.freeLists).width = s.width := rfl
@[simp] theorem State.freeLists_edgeFitted : (s.freeLists).edgeFitted = s.edgeFitted := rfl
@[simp] theorem State.freeLists_port : (s.freeLists).port = s.port := rfl
@[simp] theorem State.freeLists_store : (s.freeLists).store = s.store := rfl
@[simp] theorem State.freeLists_acceptCount : (s.freeLists).acceptCount = s.acceptCount := rfl
@[simp] theorem State.freeLists_arb : (s.freeLists).arb = s.arb := rfl
@[simp] theorem State.freeLists_line : (s.freeLists).line = s.line := rfl
@[simp] theorem State.freeLists_lists : (s.freeLists).lists = Vector.replicate 2 .free := rfl
@[simp] theorem State.freeLists_dwell : (s.freeLists).dwell = .none := rfl
@[simp] theorem State.freeLists_car : (s.freeLists).car = s.car := rfl
@[simp] theorem State.freeLists_sequ : (s.freeLists).sequ = s.sequ := rfl
@[simp] theorem State.freeLists_channels : (s.freeLists).channels = s.channels := rfl
@[simp] theorem State.freeLists_health : (s.freeLists).health = s.health := rfl
@[simp] theorem State.freeLists_test : (s.freeLists).test = s.test := rfl
@[simp] theorem State.freeLists_heat : (s.freeLists).heat = s.heat := rfl
@[simp] theorem State.freeLists_form : (s.freeLists).form = s.form := rfl
@[simp] theorem State.freeLists_map : (s.freeLists).map = s.map := rfl
@[simp] theorem State.freeLists_drive : (s.freeLists).drive = s.drive := rfl
@[simp] theorem State.freeLists_tally : (s.freeLists).tally = s.tally := rfl
@[simp] theorem State.freeLists_freeIndex : (s.freeLists).freeIndex = s.freeIndex := rfl
@[simp] theorem State.freeLists_pending : (s.freeLists).pending = s.pending := rfl
@[simp] theorem State.freeLists_steppers : (s.freeLists).steppers = s.steppers := rfl

end

/-! ## `State.modifyCar` -/

section
variable (s : State) (f : Carriage → Carriage)

@[simp] theorem State.modifyCar_width : (s.modifyCar f).width = s.width := rfl
@[simp] theorem State.modifyCar_edgeFitted : (s.modifyCar f).edgeFitted = s.edgeFitted := rfl
@[simp] theorem State.modifyCar_port : (s.modifyCar f).port = s.port := rfl
@[simp] theorem State.modifyCar_store : (s.modifyCar f).store = s.store := rfl
@[simp] theorem State.modifyCar_acceptCount : (s.modifyCar f).acceptCount = s.acceptCount := rfl
@[simp] theorem State.modifyCar_arb : (s.modifyCar f).arb = s.arb := rfl
@[simp] theorem State.modifyCar_line : (s.modifyCar f).line = s.line := rfl
@[simp] theorem State.modifyCar_lists : (s.modifyCar f).lists = s.lists := rfl
@[simp] theorem State.modifyCar_dwell : (s.modifyCar f).dwell = s.dwell := rfl
@[simp] theorem State.modifyCar_car : (s.modifyCar f).car = f s.car := rfl
@[simp] theorem State.modifyCar_sequ : (s.modifyCar f).sequ = s.sequ := rfl
@[simp] theorem State.modifyCar_channels : (s.modifyCar f).channels = s.channels := rfl
@[simp] theorem State.modifyCar_health : (s.modifyCar f).health = s.health := rfl
@[simp] theorem State.modifyCar_test : (s.modifyCar f).test = s.test := rfl
@[simp] theorem State.modifyCar_heat : (s.modifyCar f).heat = s.heat := rfl
@[simp] theorem State.modifyCar_form : (s.modifyCar f).form = s.form := rfl
@[simp] theorem State.modifyCar_map : (s.modifyCar f).map = s.map := rfl
@[simp] theorem State.modifyCar_drive : (s.modifyCar f).drive = s.drive := rfl
@[simp] theorem State.modifyCar_tally : (s.modifyCar f).tally = s.tally := rfl
@[simp] theorem State.modifyCar_freeIndex : (s.modifyCar f).freeIndex = s.freeIndex := rfl
@[simp] theorem State.modifyCar_pending : (s.modifyCar f).pending = s.pending := rfl
@[simp] theorem State.modifyCar_steppers : (s.modifyCar f).steppers = s.steppers := rfl

end

/-! ## `State.modifySequ` -/

section
variable (s : State) (f : Sequencer → Sequencer)

@[simp] theorem State.modifySequ_width : (s.modifySequ f).width = s.width := rfl
@[simp] theorem State.modifySequ_edgeFitted : (s.modifySequ f).edgeFitted = s.edgeFitted := rfl
@[simp] theorem State.modifySequ_port : (s.modifySequ f).port = s.port := rfl
@[simp] theorem State.modifySequ_store : (s.modifySequ f).store = s.store := rfl
@[simp] theorem State.modifySequ_acceptCount : (s.modifySequ f).acceptCount = s.acceptCount := rfl
@[simp] theorem State.modifySequ_arb : (s.modifySequ f).arb = s.arb := rfl
@[simp] theorem State.modifySequ_line : (s.modifySequ f).line = s.line := rfl
@[simp] theorem State.modifySequ_lists : (s.modifySequ f).lists = s.lists := rfl
@[simp] theorem State.modifySequ_dwell : (s.modifySequ f).dwell = s.dwell := rfl
@[simp] theorem State.modifySequ_car : (s.modifySequ f).car = s.car := rfl
@[simp] theorem State.modifySequ_sequ : (s.modifySequ f).sequ = f s.sequ := rfl
@[simp] theorem State.modifySequ_channels : (s.modifySequ f).channels = s.channels := rfl
@[simp] theorem State.modifySequ_health : (s.modifySequ f).health = s.health := rfl
@[simp] theorem State.modifySequ_test : (s.modifySequ f).test = s.test := rfl
@[simp] theorem State.modifySequ_heat : (s.modifySequ f).heat = s.heat := rfl
@[simp] theorem State.modifySequ_form : (s.modifySequ f).form = s.form := rfl
@[simp] theorem State.modifySequ_map : (s.modifySequ f).map = s.map := rfl
@[simp] theorem State.modifySequ_drive : (s.modifySequ f).drive = s.drive := rfl
@[simp] theorem State.modifySequ_tally : (s.modifySequ f).tally = s.tally := rfl
@[simp] theorem State.modifySequ_freeIndex : (s.modifySequ f).freeIndex = s.freeIndex := rfl
@[simp] theorem State.modifySequ_pending : (s.modifySequ f).pending = s.pending := rfl
@[simp] theorem State.modifySequ_steppers : (s.modifySequ f).steppers = s.steppers := rfl

end

/-! ## `State.setChannel` -/

section
variable (s : State) (p : Pin) (c : Channel)

@[simp] theorem State.setChannel_width : (s.setChannel p c).width = s.width := rfl
@[simp] theorem State.setChannel_edgeFitted : (s.setChannel p c).edgeFitted = s.edgeFitted := rfl
@[simp] theorem State.setChannel_port : (s.setChannel p c).port = s.port := rfl
@[simp] theorem State.setChannel_store : (s.setChannel p c).store = s.store := rfl
@[simp] theorem State.setChannel_acceptCount : (s.setChannel p c).acceptCount = s.acceptCount := rfl
@[simp] theorem State.setChannel_arb : (s.setChannel p c).arb = s.arb := rfl
@[simp] theorem State.setChannel_line : (s.setChannel p c).line = s.line := rfl
@[simp] theorem State.setChannel_lists : (s.setChannel p c).lists = s.lists := rfl
@[simp] theorem State.setChannel_dwell : (s.setChannel p c).dwell = s.dwell := rfl
@[simp] theorem State.setChannel_car : (s.setChannel p c).car = s.car := rfl
@[simp] theorem State.setChannel_sequ : (s.setChannel p c).sequ = s.sequ := rfl
@[simp] theorem State.setChannel_channels : (s.setChannel p c).channels = s.channels.set p.val c := rfl
@[simp] theorem State.setChannel_health : (s.setChannel p c).health = s.health := rfl
@[simp] theorem State.setChannel_test : (s.setChannel p c).test = s.test := rfl
@[simp] theorem State.setChannel_heat : (s.setChannel p c).heat = s.heat := rfl
@[simp] theorem State.setChannel_form : (s.setChannel p c).form = s.form := rfl
@[simp] theorem State.setChannel_map : (s.setChannel p c).map = s.map := rfl
@[simp] theorem State.setChannel_drive : (s.setChannel p c).drive = s.drive := rfl
@[simp] theorem State.setChannel_tally : (s.setChannel p c).tally = s.tally := rfl
@[simp] theorem State.setChannel_freeIndex : (s.setChannel p c).freeIndex = s.freeIndex := rfl
@[simp] theorem State.setChannel_pending : (s.setChannel p c).pending = s.pending := rfl
@[simp] theorem State.setChannel_steppers : (s.setChannel p c).steppers = s.steppers := rfl

end

/-! ## `State.cutAll` -/

section
variable (s : State)

@[simp] theorem State.cutAll_width : (s.cutAll).width = s.width := rfl
@[simp] theorem State.cutAll_edgeFitted : (s.cutAll).edgeFitted = s.edgeFitted := rfl
@[simp] theorem State.cutAll_port : (s.cutAll).port = s.port := rfl
@[simp] theorem State.cutAll_store : (s.cutAll).store = s.store := rfl
@[simp] theorem State.cutAll_acceptCount : (s.cutAll).acceptCount = s.acceptCount := rfl
@[simp] theorem State.cutAll_arb : (s.cutAll).arb = s.arb := rfl
@[simp] theorem State.cutAll_line : (s.cutAll).line = s.line := rfl
@[simp] theorem State.cutAll_lists : (s.cutAll).lists = s.lists := rfl
@[simp] theorem State.cutAll_dwell : (s.cutAll).dwell = s.dwell := rfl
@[simp] theorem State.cutAll_car : (s.cutAll).car = s.car := rfl
@[simp] theorem State.cutAll_sequ : (s.cutAll).sequ = s.sequ := rfl
@[simp] theorem State.cutAll_channels : (s.cutAll).channels = s.channels.map Channel.cut := rfl
@[simp] theorem State.cutAll_health : (s.cutAll).health = s.health := rfl
@[simp] theorem State.cutAll_test : (s.cutAll).test = s.test := rfl
@[simp] theorem State.cutAll_heat : (s.cutAll).heat = s.heat := rfl
@[simp] theorem State.cutAll_form : (s.cutAll).form = s.form := rfl
@[simp] theorem State.cutAll_map : (s.cutAll).map = s.map := rfl
@[simp] theorem State.cutAll_drive : (s.cutAll).drive = s.drive := rfl
@[simp] theorem State.cutAll_tally : (s.cutAll).tally = s.tally := rfl
@[simp] theorem State.cutAll_freeIndex : (s.cutAll).freeIndex = s.freeIndex := rfl
@[simp] theorem State.cutAll_pending : (s.cutAll).pending = s.pending := rfl
@[simp] theorem State.cutAll_steppers : (s.cutAll).steppers = s.steppers := rfl

end

/-! ## `State.setPinRecord` -/

section
variable (s : State) (p : Pin) (r : PinRecord)

@[simp] theorem State.setPinRecord_width : (s.setPinRecord p r).width = s.width := rfl
@[simp] theorem State.setPinRecord_edgeFitted : (s.setPinRecord p r).edgeFitted = s.edgeFitted := rfl
@[simp] theorem State.setPinRecord_port : (s.setPinRecord p r).port = s.port := rfl
@[simp] theorem State.setPinRecord_store : (s.setPinRecord p r).store = s.store := rfl
@[simp] theorem State.setPinRecord_acceptCount : (s.setPinRecord p r).acceptCount = s.acceptCount := rfl
@[simp] theorem State.setPinRecord_arb : (s.setPinRecord p r).arb = s.arb := rfl
@[simp] theorem State.setPinRecord_line : (s.setPinRecord p r).line = s.line := rfl
@[simp] theorem State.setPinRecord_lists : (s.setPinRecord p r).lists = s.lists := rfl
@[simp] theorem State.setPinRecord_dwell : (s.setPinRecord p r).dwell = s.dwell := rfl
@[simp] theorem State.setPinRecord_car : (s.setPinRecord p r).car = s.car := rfl
@[simp] theorem State.setPinRecord_sequ : (s.setPinRecord p r).sequ = s.sequ := rfl
@[simp] theorem State.setPinRecord_channels : (s.setPinRecord p r).channels = s.channels := rfl
@[simp] theorem State.setPinRecord_health : (s.setPinRecord p r).health = s.health.set p.val r := rfl
@[simp] theorem State.setPinRecord_test : (s.setPinRecord p r).test = s.test := rfl
@[simp] theorem State.setPinRecord_heat : (s.setPinRecord p r).heat = s.heat := rfl
@[simp] theorem State.setPinRecord_form : (s.setPinRecord p r).form = s.form := rfl
@[simp] theorem State.setPinRecord_map : (s.setPinRecord p r).map = s.map := rfl
@[simp] theorem State.setPinRecord_drive : (s.setPinRecord p r).drive = s.drive := rfl
@[simp] theorem State.setPinRecord_tally : (s.setPinRecord p r).tally = s.tally := rfl
@[simp] theorem State.setPinRecord_freeIndex : (s.setPinRecord p r).freeIndex = s.freeIndex := rfl
@[simp] theorem State.setPinRecord_pending : (s.setPinRecord p r).pending = s.pending := rfl
@[simp] theorem State.setPinRecord_steppers : (s.setPinRecord p r).steppers = s.steppers := rfl

end

/-! ## `State.setTest` -/

section
variable (s : State) (c : Option TestContext)

@[simp] theorem State.setTest_width : (s.setTest c).width = s.width := rfl
@[simp] theorem State.setTest_edgeFitted : (s.setTest c).edgeFitted = s.edgeFitted := rfl
@[simp] theorem State.setTest_port : (s.setTest c).port = s.port := rfl
@[simp] theorem State.setTest_store : (s.setTest c).store = s.store := rfl
@[simp] theorem State.setTest_acceptCount : (s.setTest c).acceptCount = s.acceptCount := rfl
@[simp] theorem State.setTest_arb : (s.setTest c).arb = s.arb := rfl
@[simp] theorem State.setTest_line : (s.setTest c).line = s.line := rfl
@[simp] theorem State.setTest_lists : (s.setTest c).lists = s.lists := rfl
@[simp] theorem State.setTest_dwell : (s.setTest c).dwell = s.dwell := rfl
@[simp] theorem State.setTest_car : (s.setTest c).car = s.car := rfl
@[simp] theorem State.setTest_sequ : (s.setTest c).sequ = s.sequ := rfl
@[simp] theorem State.setTest_channels : (s.setTest c).channels = s.channels := rfl
@[simp] theorem State.setTest_health : (s.setTest c).health = s.health := rfl
@[simp] theorem State.setTest_test : (s.setTest c).test = c := rfl
@[simp] theorem State.setTest_heat : (s.setTest c).heat = s.heat := rfl
@[simp] theorem State.setTest_form : (s.setTest c).form = s.form := rfl
@[simp] theorem State.setTest_map : (s.setTest c).map = s.map := rfl
@[simp] theorem State.setTest_drive : (s.setTest c).drive = s.drive := rfl
@[simp] theorem State.setTest_tally : (s.setTest c).tally = s.tally := rfl
@[simp] theorem State.setTest_freeIndex : (s.setTest c).freeIndex = s.freeIndex := rfl
@[simp] theorem State.setTest_pending : (s.setTest c).pending = s.pending := rfl
@[simp] theorem State.setTest_steppers : (s.setTest c).steppers = s.steppers := rfl

end

/-! ## `State.addHeat` -/

section
variable (s : State) (p : Pin) (n : Nat)

@[simp] theorem State.addHeat_width : (s.addHeat p n).width = s.width := rfl
@[simp] theorem State.addHeat_edgeFitted : (s.addHeat p n).edgeFitted = s.edgeFitted := rfl
@[simp] theorem State.addHeat_port : (s.addHeat p n).port = s.port := rfl
@[simp] theorem State.addHeat_store : (s.addHeat p n).store = s.store := rfl
@[simp] theorem State.addHeat_acceptCount : (s.addHeat p n).acceptCount = s.acceptCount := rfl
@[simp] theorem State.addHeat_arb : (s.addHeat p n).arb = s.arb := rfl
@[simp] theorem State.addHeat_line : (s.addHeat p n).line = s.line := rfl
@[simp] theorem State.addHeat_lists : (s.addHeat p n).lists = s.lists := rfl
@[simp] theorem State.addHeat_dwell : (s.addHeat p n).dwell = s.dwell := rfl
@[simp] theorem State.addHeat_car : (s.addHeat p n).car = s.car := rfl
@[simp] theorem State.addHeat_sequ : (s.addHeat p n).sequ = s.sequ := rfl
@[simp] theorem State.addHeat_channels : (s.addHeat p n).channels = s.channels := rfl
@[simp] theorem State.addHeat_health : (s.addHeat p n).health = s.health := rfl
@[simp] theorem State.addHeat_test : (s.addHeat p n).test = s.test := rfl
@[simp] theorem State.addHeat_heat : (s.addHeat p n).heat = { s.heat with acc := s.heat.acc.set p.val (min 65535 (s.heatOf p + n)) } := rfl
@[simp] theorem State.addHeat_form : (s.addHeat p n).form = s.form := rfl
@[simp] theorem State.addHeat_map : (s.addHeat p n).map = s.map := rfl
@[simp] theorem State.addHeat_drive : (s.addHeat p n).drive = s.drive := rfl
@[simp] theorem State.addHeat_tally : (s.addHeat p n).tally = s.tally := rfl
@[simp] theorem State.addHeat_freeIndex : (s.addHeat p n).freeIndex = s.freeIndex := rfl
@[simp] theorem State.addHeat_pending : (s.addHeat p n).pending = s.pending := rfl
@[simp] theorem State.addHeat_steppers : (s.addHeat p n).steppers = s.steppers := rfl

end

/-! ## `State.modifyHeat` -/

section
variable (s : State) (f : Thermal → Thermal)

@[simp] theorem State.modifyHeat_width : (s.modifyHeat f).width = s.width := rfl
@[simp] theorem State.modifyHeat_edgeFitted : (s.modifyHeat f).edgeFitted = s.edgeFitted := rfl
@[simp] theorem State.modifyHeat_port : (s.modifyHeat f).port = s.port := rfl
@[simp] theorem State.modifyHeat_store : (s.modifyHeat f).store = s.store := rfl
@[simp] theorem State.modifyHeat_acceptCount : (s.modifyHeat f).acceptCount = s.acceptCount := rfl
@[simp] theorem State.modifyHeat_arb : (s.modifyHeat f).arb = s.arb := rfl
@[simp] theorem State.modifyHeat_line : (s.modifyHeat f).line = s.line := rfl
@[simp] theorem State.modifyHeat_lists : (s.modifyHeat f).lists = s.lists := rfl
@[simp] theorem State.modifyHeat_dwell : (s.modifyHeat f).dwell = s.dwell := rfl
@[simp] theorem State.modifyHeat_car : (s.modifyHeat f).car = s.car := rfl
@[simp] theorem State.modifyHeat_sequ : (s.modifyHeat f).sequ = s.sequ := rfl
@[simp] theorem State.modifyHeat_channels : (s.modifyHeat f).channels = s.channels := rfl
@[simp] theorem State.modifyHeat_health : (s.modifyHeat f).health = s.health := rfl
@[simp] theorem State.modifyHeat_test : (s.modifyHeat f).test = s.test := rfl
@[simp] theorem State.modifyHeat_heat : (s.modifyHeat f).heat = f s.heat := rfl
@[simp] theorem State.modifyHeat_form : (s.modifyHeat f).form = s.form := rfl
@[simp] theorem State.modifyHeat_map : (s.modifyHeat f).map = s.map := rfl
@[simp] theorem State.modifyHeat_drive : (s.modifyHeat f).drive = s.drive := rfl
@[simp] theorem State.modifyHeat_tally : (s.modifyHeat f).tally = s.tally := rfl
@[simp] theorem State.modifyHeat_freeIndex : (s.modifyHeat f).freeIndex = s.freeIndex := rfl
@[simp] theorem State.modifyHeat_pending : (s.modifyHeat f).pending = s.pending := rfl
@[simp] theorem State.modifyHeat_steppers : (s.modifyHeat f).steppers = s.steppers := rfl

end

/-! ## `State.modifyForm` -/

section
variable (s : State) (f : FormPosition → FormPosition)

@[simp] theorem State.modifyForm_width : (s.modifyForm f).width = s.width := rfl
@[simp] theorem State.modifyForm_edgeFitted : (s.modifyForm f).edgeFitted = s.edgeFitted := rfl
@[simp] theorem State.modifyForm_port : (s.modifyForm f).port = s.port := rfl
@[simp] theorem State.modifyForm_store : (s.modifyForm f).store = s.store := rfl
@[simp] theorem State.modifyForm_acceptCount : (s.modifyForm f).acceptCount = s.acceptCount := rfl
@[simp] theorem State.modifyForm_arb : (s.modifyForm f).arb = s.arb := rfl
@[simp] theorem State.modifyForm_line : (s.modifyForm f).line = s.line := rfl
@[simp] theorem State.modifyForm_lists : (s.modifyForm f).lists = s.lists := rfl
@[simp] theorem State.modifyForm_dwell : (s.modifyForm f).dwell = s.dwell := rfl
@[simp] theorem State.modifyForm_car : (s.modifyForm f).car = s.car := rfl
@[simp] theorem State.modifyForm_sequ : (s.modifyForm f).sequ = s.sequ := rfl
@[simp] theorem State.modifyForm_channels : (s.modifyForm f).channels = s.channels := rfl
@[simp] theorem State.modifyForm_health : (s.modifyForm f).health = s.health := rfl
@[simp] theorem State.modifyForm_test : (s.modifyForm f).test = s.test := rfl
@[simp] theorem State.modifyForm_heat : (s.modifyForm f).heat = s.heat := rfl
@[simp] theorem State.modifyForm_form : (s.modifyForm f).form = f s.form := rfl
@[simp] theorem State.modifyForm_map : (s.modifyForm f).map = s.map := rfl
@[simp] theorem State.modifyForm_drive : (s.modifyForm f).drive = s.drive := rfl
@[simp] theorem State.modifyForm_tally : (s.modifyForm f).tally = s.tally := rfl
@[simp] theorem State.modifyForm_freeIndex : (s.modifyForm f).freeIndex = s.freeIndex := rfl
@[simp] theorem State.modifyForm_pending : (s.modifyForm f).pending = s.pending := rfl
@[simp] theorem State.modifyForm_steppers : (s.modifyForm f).steppers = s.steppers := rfl

end

/-! ## `State.stallCorrection` -/

section
variable (s : State) (k : Nat)

@[simp] theorem State.stallCorrection_width : (s.stallCorrection k).width = s.width := rfl
@[simp] theorem State.stallCorrection_edgeFitted : (s.stallCorrection k).edgeFitted = s.edgeFitted := rfl
@[simp] theorem State.stallCorrection_port : (s.stallCorrection k).port = s.port := rfl
@[simp] theorem State.stallCorrection_store : (s.stallCorrection k).store = s.store := rfl
@[simp] theorem State.stallCorrection_acceptCount : (s.stallCorrection k).acceptCount = s.acceptCount := rfl
@[simp] theorem State.stallCorrection_arb : (s.stallCorrection k).arb = s.arb := rfl
@[simp] theorem State.stallCorrection_line : (s.stallCorrection k).line = s.line := rfl
@[simp] theorem State.stallCorrection_lists : (s.stallCorrection k).lists = s.lists := rfl
@[simp] theorem State.stallCorrection_dwell : (s.stallCorrection k).dwell = s.dwell := rfl
@[simp] theorem State.stallCorrection_car : (s.stallCorrection k).car = s.car := rfl
@[simp] theorem State.stallCorrection_sequ : (s.stallCorrection k).sequ = s.sequ := rfl
@[simp] theorem State.stallCorrection_channels : (s.stallCorrection k).channels = s.channels := rfl
@[simp] theorem State.stallCorrection_health : (s.stallCorrection k).health = s.health := rfl
@[simp] theorem State.stallCorrection_test : (s.stallCorrection k).test = s.test := rfl
@[simp] theorem State.stallCorrection_heat : (s.stallCorrection k).heat = s.heat := rfl
@[simp] theorem State.stallCorrection_map : (s.stallCorrection k).map = s.map := rfl
@[simp] theorem State.stallCorrection_drive : (s.stallCorrection k).drive = s.drive := rfl
@[simp] theorem State.stallCorrection_tally : (s.stallCorrection k).tally = s.tally := rfl
@[simp] theorem State.stallCorrection_freeIndex : (s.stallCorrection k).freeIndex = s.freeIndex := rfl
@[simp] theorem State.stallCorrection_pending : (s.stallCorrection k).pending = s.pending := rfl
@[simp] theorem State.stallCorrection_steppers : (s.stallCorrection k).steppers = s.steppers := rfl

end

/-! ## `State.modifyMap` -/

section
variable (s : State) (f : FormMap → FormMap)

@[simp] theorem State.modifyMap_width : (s.modifyMap f).width = s.width := rfl
@[simp] theorem State.modifyMap_edgeFitted : (s.modifyMap f).edgeFitted = s.edgeFitted := rfl
@[simp] theorem State.modifyMap_port : (s.modifyMap f).port = s.port := rfl
@[simp] theorem State.modifyMap_store : (s.modifyMap f).store = s.store := rfl
@[simp] theorem State.modifyMap_acceptCount : (s.modifyMap f).acceptCount = s.acceptCount := rfl
@[simp] theorem State.modifyMap_arb : (s.modifyMap f).arb = s.arb := rfl
@[simp] theorem State.modifyMap_line : (s.modifyMap f).line = s.line := rfl
@[simp] theorem State.modifyMap_lists : (s.modifyMap f).lists = s.lists := rfl
@[simp] theorem State.modifyMap_dwell : (s.modifyMap f).dwell = s.dwell := rfl
@[simp] theorem State.modifyMap_car : (s.modifyMap f).car = s.car := rfl
@[simp] theorem State.modifyMap_sequ : (s.modifyMap f).sequ = s.sequ := rfl
@[simp] theorem State.modifyMap_channels : (s.modifyMap f).channels = s.channels := rfl
@[simp] theorem State.modifyMap_health : (s.modifyMap f).health = s.health := rfl
@[simp] theorem State.modifyMap_test : (s.modifyMap f).test = s.test := rfl
@[simp] theorem State.modifyMap_heat : (s.modifyMap f).heat = s.heat := rfl
@[simp] theorem State.modifyMap_form : (s.modifyMap f).form = s.form := rfl
@[simp] theorem State.modifyMap_map : (s.modifyMap f).map = f s.map := rfl
@[simp] theorem State.modifyMap_drive : (s.modifyMap f).drive = s.drive := rfl
@[simp] theorem State.modifyMap_tally : (s.modifyMap f).tally = s.tally := rfl
@[simp] theorem State.modifyMap_freeIndex : (s.modifyMap f).freeIndex = s.freeIndex := rfl
@[simp] theorem State.modifyMap_pending : (s.modifyMap f).pending = s.pending := rfl
@[simp] theorem State.modifyMap_steppers : (s.modifyMap f).steppers = s.steppers := rfl

end

/-! ## `State.relength` -/

section
variable (s : State)

@[simp] theorem State.relength_width : (s.relength).width = s.width := rfl
@[simp] theorem State.relength_edgeFitted : (s.relength).edgeFitted = s.edgeFitted := rfl
@[simp] theorem State.relength_port : (s.relength).port = s.port := rfl
@[simp] theorem State.relength_store : (s.relength).store = s.store := rfl
@[simp] theorem State.relength_acceptCount : (s.relength).acceptCount = s.acceptCount := rfl
@[simp] theorem State.relength_arb : (s.relength).arb = s.arb := rfl
@[simp] theorem State.relength_line : (s.relength).line = s.line := rfl
@[simp] theorem State.relength_lists : (s.relength).lists = s.lists := rfl
@[simp] theorem State.relength_dwell : (s.relength).dwell = s.dwell := rfl
@[simp] theorem State.relength_car : (s.relength).car = s.car := rfl
@[simp] theorem State.relength_sequ : (s.relength).sequ = s.sequ := rfl
@[simp] theorem State.relength_channels : (s.relength).channels = s.channels := rfl
@[simp] theorem State.relength_health : (s.relength).health = s.health := rfl
@[simp] theorem State.relength_test : (s.relength).test = s.test := rfl
@[simp] theorem State.relength_heat : (s.relength).heat = s.heat := rfl
@[simp] theorem State.relength_form : (s.relength).form = { s.form with offset := s.form.offset % s.map.len, pendingCorrection := none } := rfl
@[simp] theorem State.relength_drive : (s.relength).drive = s.drive := rfl
@[simp] theorem State.relength_tally : (s.relength).tally = s.tally := rfl
@[simp] theorem State.relength_freeIndex : (s.relength).freeIndex = s.freeIndex := rfl
@[simp] theorem State.relength_pending : (s.relength).pending = s.pending := rfl
@[simp] theorem State.relength_steppers : (s.relength).steppers = s.steppers := rfl

end

/-! ## `State.modifyDrive` -/

section
variable (s : State) (f : Drive → Drive)

@[simp] theorem State.modifyDrive_width : (s.modifyDrive f).width = s.width := rfl
@[simp] theorem State.modifyDrive_edgeFitted : (s.modifyDrive f).edgeFitted = s.edgeFitted := rfl
@[simp] theorem State.modifyDrive_port : (s.modifyDrive f).port = s.port := rfl
@[simp] theorem State.modifyDrive_store : (s.modifyDrive f).store = s.store := rfl
@[simp] theorem State.modifyDrive_acceptCount : (s.modifyDrive f).acceptCount = s.acceptCount := rfl
@[simp] theorem State.modifyDrive_arb : (s.modifyDrive f).arb = s.arb := rfl
@[simp] theorem State.modifyDrive_line : (s.modifyDrive f).line = s.line := rfl
@[simp] theorem State.modifyDrive_lists : (s.modifyDrive f).lists = s.lists := rfl
@[simp] theorem State.modifyDrive_dwell : (s.modifyDrive f).dwell = s.dwell := rfl
@[simp] theorem State.modifyDrive_car : (s.modifyDrive f).car = s.car := rfl
@[simp] theorem State.modifyDrive_sequ : (s.modifyDrive f).sequ = s.sequ := rfl
@[simp] theorem State.modifyDrive_channels : (s.modifyDrive f).channels = s.channels := rfl
@[simp] theorem State.modifyDrive_health : (s.modifyDrive f).health = s.health := rfl
@[simp] theorem State.modifyDrive_test : (s.modifyDrive f).test = s.test := rfl
@[simp] theorem State.modifyDrive_heat : (s.modifyDrive f).heat = s.heat := rfl
@[simp] theorem State.modifyDrive_form : (s.modifyDrive f).form = s.form := rfl
@[simp] theorem State.modifyDrive_map : (s.modifyDrive f).map = s.map := rfl
@[simp] theorem State.modifyDrive_drive : (s.modifyDrive f).drive = f s.drive := rfl
@[simp] theorem State.modifyDrive_tally : (s.modifyDrive f).tally = s.tally := rfl
@[simp] theorem State.modifyDrive_freeIndex : (s.modifyDrive f).freeIndex = s.freeIndex := rfl
@[simp] theorem State.modifyDrive_pending : (s.modifyDrive f).pending = s.pending := rfl
@[simp] theorem State.modifyDrive_steppers : (s.modifyDrive f).steppers = s.steppers := rfl

end

/-! ## `State.setDue` -/

section
variable (s : State) (d : Option DueMove)

@[simp] theorem State.setDue_width : (s.setDue d).width = s.width := rfl
@[simp] theorem State.setDue_edgeFitted : (s.setDue d).edgeFitted = s.edgeFitted := rfl
@[simp] theorem State.setDue_port : (s.setDue d).port = s.port := rfl
@[simp] theorem State.setDue_store : (s.setDue d).store = s.store := rfl
@[simp] theorem State.setDue_acceptCount : (s.setDue d).acceptCount = s.acceptCount := rfl
@[simp] theorem State.setDue_arb : (s.setDue d).arb = s.arb := rfl
@[simp] theorem State.setDue_line : (s.setDue d).line = s.line := rfl
@[simp] theorem State.setDue_lists : (s.setDue d).lists = s.lists := rfl
@[simp] theorem State.setDue_dwell : (s.setDue d).dwell = s.dwell := rfl
@[simp] theorem State.setDue_car : (s.setDue d).car = s.car := rfl
@[simp] theorem State.setDue_sequ : (s.setDue d).sequ = s.sequ := rfl
@[simp] theorem State.setDue_channels : (s.setDue d).channels = s.channels := rfl
@[simp] theorem State.setDue_health : (s.setDue d).health = s.health := rfl
@[simp] theorem State.setDue_test : (s.setDue d).test = s.test := rfl
@[simp] theorem State.setDue_heat : (s.setDue d).heat = s.heat := rfl
@[simp] theorem State.setDue_form : (s.setDue d).form = s.form := rfl
@[simp] theorem State.setDue_map : (s.setDue d).map = s.map := rfl
@[simp] theorem State.setDue_drive : (s.setDue d).drive = { s.drive with due := d } := rfl
@[simp] theorem State.setDue_tally : (s.setDue d).tally = s.tally := rfl
@[simp] theorem State.setDue_freeIndex : (s.setDue d).freeIndex = s.freeIndex := rfl
@[simp] theorem State.setDue_pending : (s.setDue d).pending = s.pending := rfl
@[simp] theorem State.setDue_steppers : (s.setDue d).steppers = s.steppers := rfl

end

/-! ## `State.modifyTally` -/

section
variable (s : State) (u : Fin 2) (f : TallyUnit → TallyUnit)

@[simp] theorem State.modifyTally_width : (s.modifyTally u f).width = s.width := rfl
@[simp] theorem State.modifyTally_edgeFitted : (s.modifyTally u f).edgeFitted = s.edgeFitted := rfl
@[simp] theorem State.modifyTally_port : (s.modifyTally u f).port = s.port := rfl
@[simp] theorem State.modifyTally_store : (s.modifyTally u f).store = s.store := rfl
@[simp] theorem State.modifyTally_acceptCount : (s.modifyTally u f).acceptCount = s.acceptCount := rfl
@[simp] theorem State.modifyTally_arb : (s.modifyTally u f).arb = s.arb := rfl
@[simp] theorem State.modifyTally_line : (s.modifyTally u f).line = s.line := rfl
@[simp] theorem State.modifyTally_lists : (s.modifyTally u f).lists = s.lists := rfl
@[simp] theorem State.modifyTally_dwell : (s.modifyTally u f).dwell = s.dwell := rfl
@[simp] theorem State.modifyTally_car : (s.modifyTally u f).car = s.car := rfl
@[simp] theorem State.modifyTally_sequ : (s.modifyTally u f).sequ = s.sequ := rfl
@[simp] theorem State.modifyTally_channels : (s.modifyTally u f).channels = s.channels := rfl
@[simp] theorem State.modifyTally_health : (s.modifyTally u f).health = s.health := rfl
@[simp] theorem State.modifyTally_test : (s.modifyTally u f).test = s.test := rfl
@[simp] theorem State.modifyTally_heat : (s.modifyTally u f).heat = s.heat := rfl
@[simp] theorem State.modifyTally_form : (s.modifyTally u f).form = s.form := rfl
@[simp] theorem State.modifyTally_map : (s.modifyTally u f).map = s.map := rfl
@[simp] theorem State.modifyTally_drive : (s.modifyTally u f).drive = s.drive := rfl
@[simp] theorem State.modifyTally_tally : (s.modifyTally u f).tally = s.tally.set u.val (f (s.tallyUnit u)) := rfl
@[simp] theorem State.modifyTally_freeIndex : (s.modifyTally u f).freeIndex = s.freeIndex := rfl
@[simp] theorem State.modifyTally_pending : (s.modifyTally u f).pending = s.pending := rfl
@[simp] theorem State.modifyTally_steppers : (s.modifyTally u f).steppers = s.steppers := rfl

end

/-! ## `State.useFree` -/

section
variable (s : State)

@[simp] theorem State.useFree_width : (s.useFree).width = s.width := rfl
@[simp] theorem State.useFree_edgeFitted : (s.useFree).edgeFitted = s.edgeFitted := rfl
@[simp] theorem State.useFree_port : (s.useFree).port = s.port := rfl
@[simp] theorem State.useFree_store : (s.useFree).store = s.store := rfl
@[simp] theorem State.useFree_acceptCount : (s.useFree).acceptCount = s.acceptCount := rfl
@[simp] theorem State.useFree_arb : (s.useFree).arb = s.arb := rfl
@[simp] theorem State.useFree_line : (s.useFree).line = s.line := rfl
@[simp] theorem State.useFree_lists : (s.useFree).lists = s.lists := rfl
@[simp] theorem State.useFree_dwell : (s.useFree).dwell = s.dwell := rfl
@[simp] theorem State.useFree_car : (s.useFree).car = s.car := rfl
@[simp] theorem State.useFree_sequ : (s.useFree).sequ = s.sequ := rfl
@[simp] theorem State.useFree_channels : (s.useFree).channels = s.channels := rfl
@[simp] theorem State.useFree_health : (s.useFree).health = s.health := rfl
@[simp] theorem State.useFree_test : (s.useFree).test = s.test := rfl
@[simp] theorem State.useFree_heat : (s.useFree).heat = s.heat := rfl
@[simp] theorem State.useFree_form : (s.useFree).form = s.form := rfl
@[simp] theorem State.useFree_map : (s.useFree).map = s.map := rfl
@[simp] theorem State.useFree_drive : (s.useFree).drive = s.drive := rfl
@[simp] theorem State.useFree_tally : (s.useFree).tally = s.tally := rfl
@[simp] theorem State.useFree_freeIndex : (s.useFree).freeIndex = s.freeIndex + 1 := rfl
@[simp] theorem State.useFree_pending : (s.useFree).pending = s.pending := rfl
@[simp] theorem State.useFree_steppers : (s.useFree).steppers = s.steppers := rfl

end

/-! ## `State.receive` -/

section
variable (s : State) (l : Link) (r : RxState) (n : Nat)

@[simp] theorem State.receive_width : (s.receive l r n).width = s.width := rfl
@[simp] theorem State.receive_edgeFitted : (s.receive l r n).edgeFitted = s.edgeFitted := rfl
@[simp] theorem State.receive_port : (s.receive l r n).port = s.port.set l { s.port.get l with rx := r, position := (s.port.get l).position + n } := rfl
@[simp] theorem State.receive_store : (s.receive l r n).store = s.store := rfl
@[simp] theorem State.receive_acceptCount : (s.receive l r n).acceptCount = s.acceptCount := rfl
@[simp] theorem State.receive_arb : (s.receive l r n).arb = s.arb := rfl
@[simp] theorem State.receive_line : (s.receive l r n).line = s.line := rfl
@[simp] theorem State.receive_lists : (s.receive l r n).lists = s.lists := rfl
@[simp] theorem State.receive_dwell : (s.receive l r n).dwell = s.dwell := rfl
@[simp] theorem State.receive_car : (s.receive l r n).car = s.car := rfl
@[simp] theorem State.receive_sequ : (s.receive l r n).sequ = s.sequ := rfl
@[simp] theorem State.receive_channels : (s.receive l r n).channels = s.channels := rfl
@[simp] theorem State.receive_health : (s.receive l r n).health = s.health := rfl
@[simp] theorem State.receive_test : (s.receive l r n).test = s.test := rfl
@[simp] theorem State.receive_heat : (s.receive l r n).heat = s.heat := rfl
@[simp] theorem State.receive_form : (s.receive l r n).form = s.form := rfl
@[simp] theorem State.receive_map : (s.receive l r n).map = s.map := rfl
@[simp] theorem State.receive_drive : (s.receive l r n).drive = s.drive := rfl
@[simp] theorem State.receive_tally : (s.receive l r n).tally = s.tally := rfl
@[simp] theorem State.receive_freeIndex : (s.receive l r n).freeIndex = s.freeIndex := rfl
@[simp] theorem State.receive_pending : (s.receive l r n).pending = s.pending := rfl
@[simp] theorem State.receive_steppers : (s.receive l r n).steppers = s.steppers := rfl

end

/-! ## `State.respond` -/

section
variable (s : State) (l : Link) (f : Frame) (st : Status) (bs : List Byte)

@[simp] theorem State.respond_width : (s.respond l f st bs).width = s.width := rfl
@[simp] theorem State.respond_edgeFitted : (s.respond l f st bs).edgeFitted = s.edgeFitted := rfl
@[simp] theorem State.respond_store : (s.respond l f st bs).store = s.store := rfl
@[simp] theorem State.respond_acceptCount : (s.respond l f st bs).acceptCount = s.acceptCount := rfl
@[simp] theorem State.respond_arb : (s.respond l f st bs).arb = s.arb := rfl
@[simp] theorem State.respond_line : (s.respond l f st bs).line = s.line := rfl
@[simp] theorem State.respond_lists : (s.respond l f st bs).lists = s.lists := rfl
@[simp] theorem State.respond_dwell : (s.respond l f st bs).dwell = s.dwell := rfl
@[simp] theorem State.respond_car : (s.respond l f st bs).car = s.car := rfl
@[simp] theorem State.respond_sequ : (s.respond l f st bs).sequ = s.sequ := rfl
@[simp] theorem State.respond_channels : (s.respond l f st bs).channels = s.channels := rfl
@[simp] theorem State.respond_health : (s.respond l f st bs).health = s.health := rfl
@[simp] theorem State.respond_test : (s.respond l f st bs).test = s.test := rfl
@[simp] theorem State.respond_heat : (s.respond l f st bs).heat = s.heat := rfl
@[simp] theorem State.respond_form : (s.respond l f st bs).form = s.form := rfl
@[simp] theorem State.respond_map : (s.respond l f st bs).map = s.map := rfl
@[simp] theorem State.respond_drive : (s.respond l f st bs).drive = s.drive := rfl
@[simp] theorem State.respond_tally : (s.respond l f st bs).tally = s.tally := rfl
@[simp] theorem State.respond_freeIndex : (s.respond l f st bs).freeIndex = s.freeIndex := rfl
@[simp] theorem State.respond_pending : (s.respond l f st bs).pending = s.pending := rfl
@[simp] theorem State.respond_steppers : (s.respond l f st bs).steppers = s.steppers := rfl

end

/-! ## `State.driveStep` -/

section
variable (s : State) (d : MoveDir)

@[simp] theorem State.driveStep_width : (s.driveStep d).width = s.width := rfl
@[simp] theorem State.driveStep_edgeFitted : (s.driveStep d).edgeFitted = s.edgeFitted := rfl
@[simp] theorem State.driveStep_port : (s.driveStep d).port = s.port := rfl
@[simp] theorem State.driveStep_store : (s.driveStep d).store = s.store := rfl
@[simp] theorem State.driveStep_acceptCount : (s.driveStep d).acceptCount = s.acceptCount := rfl
@[simp] theorem State.driveStep_arb : (s.driveStep d).arb = s.arb := rfl
@[simp] theorem State.driveStep_line : (s.driveStep d).line = s.line := rfl
@[simp] theorem State.driveStep_lists : (s.driveStep d).lists = s.lists := rfl
@[simp] theorem State.driveStep_dwell : (s.driveStep d).dwell = s.dwell := rfl
@[simp] theorem State.driveStep_car : (s.driveStep d).car = s.car := rfl
@[simp] theorem State.driveStep_sequ : (s.driveStep d).sequ = s.sequ := rfl
@[simp] theorem State.driveStep_channels : (s.driveStep d).channels = s.channels := rfl
@[simp] theorem State.driveStep_health : (s.driveStep d).health = s.health := rfl
@[simp] theorem State.driveStep_test : (s.driveStep d).test = s.test := rfl
@[simp] theorem State.driveStep_heat : (s.driveStep d).heat = s.heat := rfl
@[simp] theorem State.driveStep_form : (s.driveStep d).form = s.form := rfl
@[simp] theorem State.driveStep_map : (s.driveStep d).map = s.map := rfl
@[simp] theorem State.driveStep_drive : (s.driveStep d).drive = s.drive := rfl
@[simp] theorem State.driveStep_tally : (s.driveStep d).tally = s.tally := rfl
@[simp] theorem State.driveStep_freeIndex : (s.driveStep d).freeIndex = s.freeIndex := rfl
@[simp] theorem State.driveStep_pending : (s.driveStep d).pending = s.pending := rfl
@[simp] theorem State.driveStep_steppers : (s.driveStep d).steppers = s.steppers.driven s.form.path d := rfl

end

/-! ## `State.handOver` -/

section
variable (s : State)

@[simp] theorem State.handOver_width : (s.handOver).width = s.width := rfl
@[simp] theorem State.handOver_edgeFitted : (s.handOver).edgeFitted = s.edgeFitted := rfl
@[simp] theorem State.handOver_port : (s.handOver).port = s.port := rfl
@[simp] theorem State.handOver_store : (s.handOver).store = s.store := rfl
@[simp] theorem State.handOver_acceptCount : (s.handOver).acceptCount = s.acceptCount := rfl
@[simp] theorem State.handOver_arb : (s.handOver).arb = s.arb := rfl
@[simp] theorem State.handOver_line : (s.handOver).line = s.line := rfl
@[simp] theorem State.handOver_lists : (s.handOver).lists = s.lists := rfl
@[simp] theorem State.handOver_dwell : (s.handOver).dwell = s.dwell := rfl
@[simp] theorem State.handOver_car : (s.handOver).car = s.car := rfl
@[simp] theorem State.handOver_sequ : (s.handOver).sequ = { s.sequ with repairs := [], overflow := false } := rfl
@[simp] theorem State.handOver_channels : (s.handOver).channels = s.channels := rfl
@[simp] theorem State.handOver_health : (s.handOver).health = s.health := rfl
@[simp] theorem State.handOver_test : (s.handOver).test = s.test := rfl
@[simp] theorem State.handOver_heat : (s.handOver).heat = s.heat := rfl
@[simp] theorem State.handOver_form : (s.handOver).form = s.form := rfl
@[simp] theorem State.handOver_map : (s.handOver).map = s.map := rfl
@[simp] theorem State.handOver_drive : (s.handOver).drive = s.drive := rfl
@[simp] theorem State.handOver_tally : (s.handOver).tally = s.tally := rfl
@[simp] theorem State.handOver_freeIndex : (s.handOver).freeIndex = s.freeIndex := rfl
@[simp] theorem State.handOver_pending : (s.handOver).pending = s.pending := rfl
@[simp] theorem State.handOver_steppers : (s.handOver).steppers = s.steppers := rfl

end

/-! ## `State.walkStop` -/

section
variable (s : State)

@[simp] theorem State.walkStop_width : (s.walkStop).width = s.width := rfl
@[simp] theorem State.walkStop_edgeFitted : (s.walkStop).edgeFitted = s.edgeFitted := rfl
@[simp] theorem State.walkStop_port : (s.walkStop).port = s.port := rfl
@[simp] theorem State.walkStop_store : (s.walkStop).store = s.store := rfl
@[simp] theorem State.walkStop_acceptCount : (s.walkStop).acceptCount = s.acceptCount := rfl
@[simp] theorem State.walkStop_arb : (s.walkStop).arb = s.arb := rfl
@[simp] theorem State.walkStop_line : (s.walkStop).line = s.line := rfl
@[simp] theorem State.walkStop_lists : (s.walkStop).lists = s.lists := rfl
@[simp] theorem State.walkStop_dwell : (s.walkStop).dwell = s.dwell := rfl
@[simp] theorem State.walkStop_car : (s.walkStop).car = s.car := rfl
@[simp] theorem State.walkStop_sequ : (s.walkStop).sequ = { s.sequ with walking := false, timerA := .idle, timerB := .idle, repairs := [], overflow := false } := rfl
@[simp] theorem State.walkStop_channels : (s.walkStop).channels = s.channels := rfl
@[simp] theorem State.walkStop_health : (s.walkStop).health = s.health := rfl
@[simp] theorem State.walkStop_test : (s.walkStop).test = s.test := rfl
@[simp] theorem State.walkStop_heat : (s.walkStop).heat = s.heat := rfl
@[simp] theorem State.walkStop_form : (s.walkStop).form = s.form := rfl
@[simp] theorem State.walkStop_map : (s.walkStop).map = s.map := rfl
@[simp] theorem State.walkStop_drive : (s.walkStop).drive = s.drive := rfl
@[simp] theorem State.walkStop_tally : (s.walkStop).tally = s.tally := rfl
@[simp] theorem State.walkStop_freeIndex : (s.walkStop).freeIndex = s.freeIndex := rfl
@[simp] theorem State.walkStop_pending : (s.walkStop).pending = s.pending := rfl
@[simp] theorem State.walkStop_steppers : (s.walkStop).steppers = s.steppers := rfl

end

end Sys2Proof.Machine
end

