-- ==== Sys2Proof/Laws/Notices.lean ====
section
/-! SUPPORT. Posting a notice (R186): what it does to a port, and what it keeps. -/

namespace Sys2Proof.Machine

/-! ## One port -/

section
variable (p : LinkPort) (n : Notice)

@[simp] theorem LinkPort.post_selLow : (p.post n).selLow = p.selLow := by unfold LinkPort.post; split <;> rfl
@[simp] theorem LinkPort.post_rx : (p.post n).rx = p.rx := by unfold LinkPort.post; split <;> rfl
@[simp] theorem LinkPort.post_position : (p.post n).position = p.position := by unfold LinkPort.post; split <;> rfl
@[simp] theorem LinkPort.post_response : (p.post n).response = p.response := by unfold LinkPort.post; split <;> rfl
@[simp] theorem LinkPort.post_built : (p.post n).built = p.built := by unfold LinkPort.post; split <;> rfl

/-- Everything a posting can do to a port: the notice joins the tail, or LOST is set (R186). -/
theorem LinkPort.post_cases :
    (p.notices.length < 16 ∧ p.post n = { p with notices := p.notices ++ [n] }) ∨
      (16 ≤ p.notices.length ∧ p.post n = { p with lost := true }) := by
  unfold LinkPort.post
  split
  · exact .inr ⟨‹_›, rfl⟩
  · exact .inl ⟨by omega, rfl⟩

theorem LinkPort.post_length_le (h : p.notices.length ≤ 16) : (p.post n).notices.length ≤ 16 := by
  obtain ⟨hl, e⟩ | ⟨_, e⟩ := p.post_cases n <;> rw [e] <;> simp <;> omega

theorem LinkPort.post_extends : ∃ more, (p.post n).notices = p.notices ++ more := by
  obtain ⟨_, e⟩ | ⟨_, e⟩ := p.post_cases n
  · exact ⟨[n], by rw [e]⟩
  · exact ⟨[], by rw [e]; simp⟩

theorem LinkPort.post_lost (h : p.lost = true) : (p.post n).lost = true := by
  obtain ⟨_, e⟩ | ⟨_, e⟩ := p.post_cases n <;> rw [e]; exact h

theorem LinkPort.post_heard : n ∈ (p.post n).notices ∨ (p.post n).lost = true := by
  obtain ⟨_, e⟩ | ⟨_, e⟩ := p.post_cases n <;> rw [e] <;> simp

/-- A notice held before a posting is held after it. -/
theorem LinkPort.mem_post {m : Notice} (h : m ∈ p.notices) : m ∈ (p.post n).notices := by
  obtain ⟨more, e⟩ := p.post_extends n
  rw [e]; exact List.mem_append_left _ h

end

/-! ## The state -/

theorem State.post_get (s : State) (l k : Link) (n : Notice) :
    (s.post l n).port.get k = if k = l then (s.port.get l).post n else s.port.get k := by
  rw [State.post_port, PerLink.get_set]

@[simp] theorem State.postBoth_get (s : State) (k : Link) (n : Notice) :
    (s.postBoth n).port.get k = (s.port.get k).post n := by
  cases k <;> rfl

/-- What a series of postings keeps of a port: the receiver and the responses stay, the notices held stay in front,
LOST stays set, and the queue stays within 16. -/
structure LinkPort.Later (p q : LinkPort) : Prop where
  selLow : q.selLow = p.selLow
  rx : q.rx = p.rx
  position : q.position = p.position
  response : q.response = p.response
  built : q.built = p.built
  notices : ∃ more, q.notices = p.notices ++ more
  lost : p.lost = true → q.lost = true
  bound : p.notices.length ≤ 16 → q.notices.length ≤ 16

theorem LinkPort.Later.refl (p : LinkPort) : p.Later p :=
  ⟨rfl, rfl, rfl, rfl, rfl, ⟨[], by simp⟩, id, id⟩

theorem LinkPort.Later.trans {p q r : LinkPort} (a : p.Later q) (b : q.Later r) : p.Later r :=
  ⟨b.selLow.trans a.selLow, b.rx.trans a.rx, b.position.trans a.position, b.response.trans a.response,
    b.built.trans a.built,
    by obtain ⟨m, hm⟩ := a.notices; obtain ⟨n, hn⟩ := b.notices; exact ⟨m ++ n, by rw [hn, hm, List.append_assoc]⟩,
    fun h => b.lost (a.lost h), fun h => b.bound (a.bound h)⟩

theorem LinkPort.Later.post (p : LinkPort) (n : Notice) : p.Later (p.post n) :=
  ⟨by simp, by simp, by simp, by simp, by simp, p.post_extends n, p.post_lost n, p.post_length_le n⟩

/-- `t` differs from `s` in its ports at most by postings. -/
def State.PortsLater (s t : State) : Prop := ∀ l, (s.port.get l).Later (t.port.get l)

theorem State.PortsLater.refl (s : State) : s.PortsLater s := fun _ => .refl _

theorem State.PortsLater.trans {s t u : State} (a : s.PortsLater t) (b : t.PortsLater u) : s.PortsLater u :=
  fun l => (a l).trans (b l)

theorem State.PortsLater.of_eq {s t : State} (h : t.port = s.port) : s.PortsLater t :=
  fun l => by rw [h]; exact .refl _

theorem State.PortsLater.post (s : State) (l : Link) (n : Notice) : s.PortsLater (s.post l n) := fun k => by
  rw [State.post_get]
  split
  · next h => subst h; exact .post _ _
  · exact .refl _

theorem State.PortsLater.postBoth (s : State) (n : Notice) : s.PortsLater (s.postBoth n) := fun k => by
  rw [State.postBoth_get]; exact .post _ _

end Sys2Proof.Machine
end

