-- ==== Sys2Proof/Laws/Form.lean ====
section
/-! SUPPORT. The form: a legal map has a length in 144 to 8 640, steps keep the offset below it, a change of the
effective length leaves a legal map, and what steps, arrivals and corrections leave alone (R127 to R130, R139). -/

namespace Sys2Proof.Machine

/-! ## Lengths (R129, R130) -/

theorem FormMap.Legal.len_range {m : FormMap} (h : m.Legal) : 144 ≤ m.len ∧ m.len ≤ 8640 := by
  unfold FormMap.len
  cases hl : m.learned with
  | none => exact h.programmed
  | some n => exact h.learned n hl

theorem FormMap.Legal.len_pos {m : FormMap} (h : m.Legal) : 0 < m.len := by
  have := h.len_range.1; omega

/-- With the lengths in their ranges, the clamps and the removal of R130 leave a legal map. -/
theorem FormMap.legal_of_clamped {m : FormMap} (hp : 144 ≤ m.programmed ∧ m.programmed ≤ 8640)
    (hl : ∀ n, m.learned = some n → 144 ≤ n ∧ n ≤ 8640) (ht : -72 ≤ m.trim ∧ m.trim ≤ 72) (hf : m.stops.length ≤ 12)
    (ha : m.stops.Pairwise (· < ·)) :
    ({ m with
      tof := min m.tof (min 720 (m.len - 1))
      skip := min m.skip (m.len / 2)
      stops := m.stops.filter (fun x => x < m.len) } : FormMap).Legal where
  programmed := hp
  learned := hl
  tof := Nat.min_le_right _ _
  trim := ht
  skip := Nat.min_le_right _ _
  few := (List.length_filter_le _ _).trans hf
  ascending := ha.filter _
  below := fun x hx => by have := (List.mem_filter.mp hx).2; exact of_decide_eq_true this

/-! ## The offset after steps (R127) -/

theorem FormPosition.forward_offset_lt {f : FormPosition} {len : Nat} (h : 0 < len) : (f.forward len).offset < len := by
  unfold FormPosition.forward
  dsimp only
  split <;> omega

theorem FormPosition.reverse_offset_lt {f : FormPosition} {len : Nat} (h : f.offset < len) :
    (f.reverse len).offset < len := by
  unfold FormPosition.reverse
  dsimp only
  split <;> omega

theorem FormPosition.moved_offset_lt {f : FormPosition} {len : Nat} (h : f.offset < len) (d : MoveDir) :
    (f.moved len d).offset < len := by
  cases d
  · exact FormPosition.forward_offset_lt (by omega)
  · exact FormPosition.reverse_offset_lt h

theorem FormPosition.withdraw_offset_lt {len : Nat} (k : Nat) {f : FormPosition} (h : f.offset < len) :
    (f.withdraw len k).offset < len := by
  induction k generalizing f with
  | zero => exact h
  | succ k ih => exact ih (FormPosition.reverse_offset_lt h)

/-- A step changes the odometer, the offset, the form number, the forward mark and the tail distance alone (R127). -/
theorem FormPosition.moved_frame (f : FormPosition) (len : Nat) (d : MoveDir) :
    f.moved len d = { f with
      odometer := (f.moved len d).odometer, offset := (f.moved len d).offset, form := (f.moved len d).form
      forwardMark := (f.moved len d).forwardMark, paper := (f.moved len d).paper } := by
  cases d <;> rfl

/-- Withdrawn steps leave the same of the record as a reverse step does. -/
theorem FormPosition.withdraw_frame (len k : Nat) (f : FormPosition) :
    f.withdraw len k = { f with
      odometer := (f.withdraw len k).odometer, offset := (f.withdraw len k).offset, form := (f.withdraw len k).form
      paper := (f.withdraw len k).paper } := by
  induction k generalizing f with
  | zero => rfl
  | succ k ih => exact ih (f.reverse len)

theorem FormPosition.withdraw_odometer (len k : Nat) (f : FormPosition) :
    (f.withdraw len k).odometer = f.odometer - BitVec.ofNat 32 k := by
  induction k generalizing f with
  | zero => simp [FormPosition.withdraw]
  | succ k ih =>
    rw [FormPosition.withdraw, ih]
    simp only [FormPosition.reverse]
    rw [BitVec.ofNat_add]
    bv_omega

/-- The tail distance after withdrawn steps (R127). -/
theorem FormPosition.withdraw_paper (len k : Nat) (f : FormPosition) :
    (f.withdraw len k).paper = f.paper.tailBy k := by
  induction k generalizing f with
  | zero => cases h : f.paper <;> simp [FormPosition.withdraw, PaperState.tailBy, h]
  | succ k ih =>
    rw [FormPosition.withdraw, ih]
    simp only [FormPosition.reverse]
    cases h : f.paper <;> simp [PaperState.tailBy]
    omega

/-- A stall correction keeps the offset below the length (R127). -/
theorem State.stallCorrection_offset_lt {s : State} (k : Nat) (h : s.form.offset < s.map.len) :
    (s.stallCorrection k).form.offset < s.map.len := by
  have := FormPosition.withdraw_offset_lt k h
  unfold State.stallCorrection
  simp only [State.modifyForm_form]
  split <;> exact this

/-! ## Blocks of a step -/

/-- A stall correction changes the form position record alone. -/
theorem State.stallCorrection_frame (s : State) (k : Nat) :
    s.stallCorrection k = { s with form := (s.stallCorrection k).form } := rfl

/-- A phase correction changes the form position record alone (R139). -/
theorem State.phaseCorrection_frame (s : State) :
    s.phaseCorrection = { s with form := s.phaseCorrection.form } := by
  unfold State.phaseCorrection
  split <;> rfl

/-- The correction δ lies in -floor(L/2) to L - 1 - floor(L/2) (R139). -/
theorem correctionDelta_range {len : Nat} (target offset : Int) (h : 0 < len) :
    -((len / 2 : Nat) : Int) ≤ correctionDelta len target offset ∧
      correctionDelta len target offset ≤ (len : Int) - 1 - (len / 2 : Nat) := by
  have h0 := Int.emod_nonneg (target - offset) (b := (len : Int)) (by omega)
  have h1 := Int.emod_lt_of_pos (target - offset) (b := (len : Int)) (by omega)
  unfold correctionDelta
  dsimp only
  split <;> omega

/-- The judgement of a boundary at the end of a move posts at most one notice (R128). -/
theorem State.judgeBoundary_cases (s : State) (n : BitVec 16) (d : MoveDir) :
    s.judgeBoundary n d = s ∨
      s.judgeBoundary n d = s.postBoth (.formBoundary s.form.form s.form.offset s.map.len d s.form.trusted) := by
  unfold State.judgeBoundary
  split
  · exact .inr rfl
  · exact .inl rfl

/-- `t` differs from `s` in the form position record, the form map and the ports alone. -/
def State.FormOnly (s t : State) : Prop := t = { s with form := t.form, map := t.map, port := t.port }

theorem State.FormOnly.refl (s : State) : s.FormOnly s := rfl

theorem State.FormOnly.trans {s t u : State} (a : s.FormOnly t) (b : t.FormOnly u) : s.FormOnly u := by
  unfold State.FormOnly at a b ⊢
  rw [a] at b
  exact b

theorem State.FormOnly.modifyForm (s : State) (f : FormPosition → FormPosition) : s.FormOnly (s.modifyForm f) := rfl

theorem State.FormOnly.modifyMap (s : State) (f : FormMap → FormMap) : s.FormOnly (s.modifyMap f) := rfl

theorem State.FormOnly.relength (s : State) : s.FormOnly s.relength := rfl

theorem State.FormOnly.postBoth (s : State) (n : Notice) : s.FormOnly (s.postBoth n) := rfl

theorem State.FormOnly.sensePaper (s : State) (d : MoveDir) (p : Bool) : s.FormOnly (s.sensePaper d p) := by
  unfold State.sensePaper
  dsimp only
  split
  · exact rfl
  · exact rfl
  · split
    · exact rfl
    · exact rfl
  · exact rfl
  · exact rfl

theorem State.FormOnly.age (s : State) : s.FormOnly s.age := by
  unfold State.age
  dsimp only
  split <;> exact rfl

theorem State.FormOnly.migrate (s : State) (c : Nat) (e : Odo) : s.FormOnly (s.migrate c e) :=
  (((State.FormOnly.modifyMap s _).trans (.relength _)).trans (.modifyForm _ _)).trans (.postBoth _ _)

theorem State.FormOnly.judgeLength (s : State) (p e : Odo) : s.FormOnly (s.judgeLength p e) := by
  unfold State.judgeLength
  refine (State.FormOnly.modifyForm s (fun f => { f with previousEdge := some e })).trans ?_
  generalize s.modifyForm (fun f => { f with previousEdge := some e }) = t
  dsimp only
  split
  · exact .modifyForm _ _
  split
  · exact .modifyForm _ _
  split
  · exact .modifyForm _ _
  split
  · exact .migrate _ _ _
  · exact .modifyForm _ _

theorem State.FormOnly.perforation (s : State) (e : Odo) : s.FormOnly (s.perforation e) := by
  unfold State.perforation
  split
  · exact rfl
  · split
    · exact rfl
    · exact rfl
    · exact .judgeLength _ _ _
  · exact .refl _

theorem State.FormOnly.paperArrives (s : State) : s.FormOnly s.paperArrives := .modifyForm _ _

theorem State.FormOnly.ite {s t u : State} {p : Prop} [Decidable p] (a : s.FormOnly t) (b : s.FormOnly u) :
    s.FormOnly (if p then t else u) := by
  split
  · exact a
  · exact b

/-- A step of the form changes the form position record, the form map and the notices alone (R127, R135 to R141). -/
theorem State.FormOnly.formStep (s : State) (d : MoveDir) (paper mark : Bool) : s.FormOnly (s.formStep d paper mark) := by
  unfold State.formStep
  dsimp only
  refine (State.FormOnly.modifyForm s (fun f => f.moved s.map.len d)).trans ?_
  generalize s.modifyForm (fun f => f.moved s.map.len d) = t
  cases d
  · dsimp only
    refine State.FormOnly.trans ?_ (.sensePaper _ _ _)
    have h : t.FormOnly (if t.form.paper = .loading false then (if paper = true then t.paperArrives else t)
        else if (mark && s.form.carriesMark && t.takesPerforations) = true then t.perforation t.form.odometer else t) :=
      .ite (.ite (.paperArrives _) (.refl _)) (.ite (.perforation _ _) (.refl _))
    exact h.trans (.ite (.age _) (.refl _))
  · exact .sensePaper _ _ _

/-- The Form Position Unit reads the steps, not the counts of the steppers (R127, R146). -/
theorem State.FormOnly.driveStep_steppers (s : State) (d : MoveDir) (e : MoveDir) (paper mark : Bool) :
    ((s.driveStep d).formStep e paper mark).steppers = s.steppers.driven s.form.path d := by
  rw [State.FormOnly.formStep (s.driveStep d) e paper mark, State.driveStep_steppers]

end Sys2Proof.Machine
end

