-- ==== Sys2Proof/Laws/Pins.lean ====
section
/-! SUPPORT. The pins: reading a channel, a record or an accumulator after a write, the judgements of a strike, and
what an offer, a miss and a fired pin change (R84 to R96, R112). -/

namespace Sys2Proof.Machine

/-! ## Reading after a write -/

theorem Pin.val_ne {p q : Pin} (h : q ≠ p) : p.val ≠ q.val := fun e => h (Fin.ext e.symm)

@[simp] theorem State.channel_setChannel (s : State) (p : Pin) (c : Channel) : (s.setChannel p c).channel p = c := by
  simp [State.channel, State.setChannel]

theorem State.channel_setChannel_other (s : State) {p q : Pin} (c : Channel) (h : q ≠ p) :
    (s.setChannel p c).channel q = s.channel q := by
  simp [State.channel, State.setChannel, Vector.getElem_set_ne _ _ (Pin.val_ne h)]

@[simp] theorem State.pinRecord_setPinRecord (s : State) (p : Pin) (r : PinRecord) :
    (s.setPinRecord p r).pinRecord p = r := by
  simp [State.pinRecord, State.setPinRecord]

theorem State.pinRecord_setPinRecord_other (s : State) {p q : Pin} (r : PinRecord) (h : q ≠ p) :
    (s.setPinRecord p r).pinRecord q = s.pinRecord q := by
  simp [State.pinRecord, State.setPinRecord, Vector.getElem_set_ne _ _ (Pin.val_ne h)]

@[simp] theorem State.heatOf_addHeat (s : State) (p : Pin) (n : Nat) :
    (s.addHeat p n).heatOf p = min 65535 (s.heatOf p + n) := by
  simp [State.heatOf, State.addHeat]

theorem State.heatOf_addHeat_other (s : State) {p q : Pin} (n : Nat) (h : q ≠ p) :
    (s.addHeat p n).heatOf q = s.heatOf q := by
  simp [State.heatOf, State.addHeat, Vector.getElem_set_ne _ _ (Pin.val_ne h)]

@[simp] theorem State.channel_cutAll (s : State) (p : Pin) : s.cutAll.channel p = (s.channel p).cut := by
  simp [State.channel, State.cutAll]

/-- A cut begins no strike. -/
theorem Channel.cut_ne_drive (c : Channel) (n : Nat) (b : Bool) : c.cut ≠ .drive n b := by
  cases c <;> simp [Channel.cut]

@[simp] theorem Channel.cut_cut (c : Channel) : c.cut.cut = c.cut := by cases c <;> rfl

/-- The channels of two states agree when the channel vectors do. -/
theorem State.channel_congr {s t : State} (h : t.channels = s.channels) (p : Pin) : t.channel p = s.channel p := by
  rw [State.channel, State.channel, h]

theorem State.pinRecord_congr {s t : State} (h : t.health = s.health) (p : Pin) : t.pinRecord p = s.pinRecord p := by
  rw [State.pinRecord, State.pinRecord, h]

theorem State.isFailed_congr {s t : State} (h : t.health = s.health) (p : Pin) : t.isFailed p = s.isFailed p := by
  rw [State.isFailed, State.isFailed, State.pinRecord_congr h]

theorem State.heatOf_congr {s t : State} (h : t.heat.acc = s.heat.acc) (p : Pin) : t.heatOf p = s.heatOf p := by
  rw [State.heatOf, State.heatOf]; simp only [h]

/-! ## Misses (R86, R87) -/

/-- Everything an offer can do: the item joins the repair list, or the overflow mark is set (R87). -/
theorem Sequencer.offer_cases (q : Sequencer) (i : RepairItem) :
    (q.repairs.length < 5120 ∧ q.offer i = { q with repairs := q.repairs ++ [i] }) ∨
      (5120 ≤ q.repairs.length ∧ q.offer i = { q with overflow := true }) := by
  unfold Sequencer.offer
  split
  · exact .inr ⟨‹_›, rfl⟩
  · exact .inl ⟨by omega, rfl⟩

/-- An offer changes the repair list and the overflow mark alone. -/
theorem Sequencer.offer_frame (q : Sequencer) (i : RepairItem) :
    q.offer i = { q with repairs := (q.offer i).repairs, overflow := (q.offer i).overflow } := by
  obtain ⟨_, e⟩ | ⟨_, e⟩ := q.offer_cases i <;> rw [e]

/-- A missed pin changes the repair list and the overflow mark alone. -/
theorem State.missPin_frame (s : State) (a : PassId) (e : StrikeEntry) (p : Pin) :
    s.missPin a e p = { s with sequ := { s.sequ with
      repairs := (s.missPin a e p).sequ.repairs, overflow := (s.missPin a e p).sequ.overflow } } :=
  congrArg (fun q : Sequencer => ({ s with sequ := q } : State)) (Sequencer.offer_frame _ _)

/-- A missed entry changes the repair list and the overflow mark alone (R86, R87). -/
theorem State.missEntry_frame (s : State) (a : PassId) (e : StrikeEntry) :
    s.missEntry a e = { s with sequ := { s.sequ with
      repairs := (s.missEntry a e).sequ.repairs, overflow := (s.missEntry a e).sequ.overflow } } := by
  unfold State.missEntry
  generalize pinsOf e.rowMask = ps
  induction ps generalizing s with
  | nil => rfl
  | cons p ps ih =>
    rw [List.foldl_cons, ih (s.missPin a e p), State.missPin_frame s a e p]

/-! ## A fired pin (R84, R89, R112) -/

/-- Everything that one pin of a fire request can do (R84, R89). -/
theorem State.firePin_cases (s : State) (a : PassId) (i : Nat) (e : StrikeEntry) (p : Pin) :
    (s.isFailed p = false ∧ s.channel p = .ready ∧
        s.firePin a i e p =
          ((s.setChannel p (.drive (s.sequ.driveTime * 10) false)).addHeat p s.sequ.driveTime).markStruck i p) ∨
      ((s.isFailed p = true ∨ s.channel p ≠ .ready) ∧ s.firePin a i e p = s.missPin a e p) := by
  unfold State.firePin
  split
  · exact .inr ⟨.inl ‹_›, rfl⟩
  · next h =>
    split
    · next h' => exact .inl ⟨by simpa using h, h', rfl⟩
    · next h' => exact .inr ⟨.inr h', rfl⟩

/-- Marking a pin struck changes the strike lists alone. -/
theorem State.markStruck_frame (s : State) (i : Nat) (p : Pin) :
    s.markStruck i p = { s with lists := (s.markStruck i p).lists } := by
  unfold State.markStruck
  split <;> rfl

/-! ## Judgements (R95, R96) -/

/-- Everything that a faulty strike can do to a pin's record (R95, R96). -/
theorem State.judgeFault_cases (s : State) (p : Pin) (c : PinCause) :
    (2 ≤ (s.pinRecord p).faults ∧ s.judgeFault p c =
        (s.setPinRecord p { s.pinRecord p with faults := 3, health := .failed }).postBoth (.pinFailed p c)) ∨
      ((s.pinRecord p).faults < 2 ∧ s.judgeFault p c =
        s.setPinRecord p { s.pinRecord p with faults := (s.pinRecord p).faults + 1, health := .suspect }) := by
  unfold State.judgeFault
  dsimp only
  split
  · exact .inl ⟨‹_›, rfl⟩
  · exact .inr ⟨by omega, rfl⟩

end Sys2Proof.Machine
end

