-- ==== Sys2Proof/Laws/Receiver.lean ====
section
/-! SUPPORT. The frame receiver (R181): bytes one after another, the codes of the kinds, and where a frame that is
taken leaves the receiver. -/

namespace Sys2Proof.Machine

@[simp] theorem kindOfByte_code (k : ReqKind) : kindOfByte k.code = some k := by cases k <;> rfl

/-- A kind byte that names a kind is the code of that kind. -/
theorem code_of_kindOfByte {b : Byte} {k : ReqKind} (h : kindOfByte b = some k) : k.code = b := by
  have hb : b.toNat < 16 := (List.getElem?_eq_some_iff.mp h).1
  have : ∀ c : Fin 16, ∀ j, ReqKind.all[c.val]? = some j → j.code = BitVec.ofNat 8 c.val := by decide
  rw [this ⟨b.toNat, hb⟩ k h]
  exact BitVec.eq_of_toNat_eq (by simp)

/-! ## One byte -/

@[simp] theorem rxByte_discard (b : Byte) : rxByte (.discard none) b = rxTo (.discard none) := rfl

/-- A byte that completes a frame leaves the receiver in DISCARD. -/
theorem rxByte_taken {r : RxState} {b : Byte} {f : Frame} (h : (rxByte r b).taken = some f) :
    (rxByte r b).rx = .discard none := by
  unfold rxByte at h ⊢
  split at h <;> try (simp [rxTo] at h; done)
  · split at h <;> simp [rxTo, rxBad] at h
  · unfold rxHeader at h ⊢
    split at h
    · simp [rxBad, rxTo] at h
    · dsimp only at h ⊢
      split at h
      · simp [rxBad, rxTo] at h
      · split at h
        · simp_all [rxDone]
        · simp [rxTo] at h
  · unfold rxPayload at h ⊢
    dsimp only at h ⊢
    split at h
    · simp [rxBad, rxTo] at h
    · next h₁ =>
      rw [if_neg h₁]
      split at h
      · next h₂ => rw [if_pos h₂]; rfl
      · simp [rxTo] at h

/-! ## Bytes one after another -/

@[simp] theorem rxRun_nil (r : RxState) : rxRun r [] = rxTo r := rfl

@[simp] theorem rxRun_cons_rx (r : RxState) (b : Byte) (bs : List Byte) :
    (rxRun r (b :: bs)).rx = (rxRun (rxByte r b).rx bs).rx := rfl

@[simp] theorem rxRun_cons_taken (r : RxState) (b : Byte) (bs : List Byte) :
    (rxRun r (b :: bs)).taken = (rxByte r b).taken.or (rxRun (rxByte r b).rx bs).taken := rfl

@[simp] theorem rxRun_discard (bs : List Byte) : rxRun (.discard none) bs = rxTo (.discard none) := by
  induction bs with
  | nil => rfl
  | cons b bs ih => simp [rxRun, ih, rxTo]

theorem rxRun_append_rx (r : RxState) (as bs : List Byte) :
    (rxRun r (as ++ bs)).rx = (rxRun (rxRun r as).rx bs).rx := by
  induction as generalizing r with
  | nil => rfl
  | cons a as ih => simp [ih]

theorem rxRun_append_taken (r : RxState) (as bs : List Byte) :
    (rxRun r (as ++ bs)).taken = (rxRun r as).taken.or (rxRun (rxRun r as).rx bs).taken := by
  induction as generalizing r with
  | nil => simp [rxTo]
  | cons a as ih => simp [ih, Option.or_assoc]

/-- Bytes that complete a frame leave the receiver in DISCARD. -/
theorem rxRun_taken {r : RxState} {bs : List Byte} {f : Frame} (h : (rxRun r bs).taken = some f) :
    (rxRun r bs).rx = .discard none := by
  induction bs generalizing r with
  | nil => simp [rxTo] at h
  | cons b bs ih =>
    rw [rxRun_cons_taken] at h
    rw [rxRun_cons_rx]
    cases hb : (rxByte r b).taken with
    | none => rw [hb, Option.none_or] at h; exact ih h
    | some g => rw [rxByte_taken hb]; simp [rxTo]

/-- The payload bytes of a frame whose length is fixed up: all but the last leave the receiver in PAYLOAD. -/
theorem rxRun_payload (k : ReqKind) (tag : Byte) (n : Nat) (got bs : List Byte)
    (hs : k = .setForm → 10 ≤ got.length ∨ got.length + bs.length < 10) (hn : got.length + bs.length < n) :
    rxRun (.payload k tag n got) bs = rxTo (.payload k tag n (got ++ bs)) := by
  induction bs generalizing got with
  | nil => simp
  | cons b bs ih =>
    have step : rxByte (.payload k tag n got) b = rxTo (.payload k tag n (got ++ [b])) := by
      simp only [rxByte, rxPayload, List.length_append, List.length_cons, List.length_nil] at hn ⊢
      rw [if_neg, if_neg (by omega)]
      rintro ⟨hk, hl, -⟩
      have := hs hk
      simp only [List.length_cons] at this
      omega
    have := ih (got ++ [b])
      (by intro hk; have := hs hk; simp only [List.length_append, List.length_cons, List.length_nil] at this ⊢; omega)
      (by simp only [List.length_append, List.length_cons, List.length_nil] at hn ⊢; omega)
    rw [rxRun, step]
    simp [rxTo, this]

/-! ## A request's frame -/

/-- A request in which no frame completes, or one of another kind, leaves the state (log entries 1, 3); else it is the
request of its kind, in the state that has heard its bytes. -/
theorem State.request_cases (s : State) (k : ReqKind) (l : Link) (bytes : List Byte) (take : State → Link → Frame → State) :
    (∃ f, s.frameOf l bytes = some f ∧ f.kind = k ∧
        s.request k l bytes take = take (s.receive l (.discard none) bytes.length) l f) ∨
      ((∀ f, s.frameOf l bytes = some f → f.kind ≠ k) ∧ s.request k l bytes take = s) := by
  unfold State.request
  cases h : s.frameOf l bytes with
  | none => exact .inr ⟨by simp, rfl⟩
  | some f =>
    have hr : (rxRun (s.port.get l).rx bytes).rx = .discard none := by
      unfold State.frameOf at h
      split at h
      · exact rxRun_taken h
      · simp at h
    by_cases hk : f.kind = k
    · exact .inl ⟨f, rfl, hk, by simp only [if_pos hk, hr]⟩
    · exact .inr ⟨by simpa using hk, by simp only [if_neg hk]⟩

end Sys2Proof.Machine
end

