-- ==== Sys2Proof/Laws/Settle.lean ====
section
/-! SUPPORT. What an event brings with it: the steps of `settle` one by one, and how a property of a state, or a
relation between two states, passes through all of them (R165, R168). -/

namespace Sys2Proof.Machine

/-! ## One step -/

/-- Everything that one step of `settle` can be: a plan, a LOAD in a paper halt, or a judgement of the selected head. -/
theorem State.settleOnce_cases {s t : State} (h : s.settleOnce = some t) :
    (∃ p, s.planDue = some p ∧ t = s.planNow p) ∨
      (∃ e, s.planDue = none ∧ s.loadReady = some e ∧ t = s.grant .console e) ∨
      (∃ l, s.planDue = none ∧ s.loadReady = none ∧ s.isIdle = true ∧ s.select = some l ∧ t = s.judgeHead l) := by
  unfold State.settleOnce at h
  split at h
  · next p hp => exact .inl ⟨p, hp, (Option.some.inj h).symm⟩
  · next hp =>
    split at h
    · next e he => exact .inr (.inl ⟨e, hp, he, (Option.some.inj h).symm⟩)
    · next he =>
      split at h
      · next hi =>
        split at h
        · next l hl => exact .inr (.inr ⟨l, hp, he, hi, hl, (Option.some.inj h).symm⟩)
        · simp at h
      · simp at h

/-- Everything that the judgement of a head can do (R165, R167). -/
theorem State.judgeHead_cases (s : State) (l : Link) :
    (s.headEntry l = none ∧ s.judgeHead l = s) ∨
      (∃ e, s.headEntry l = some e ∧ s.judgePaper e.record = .grant ∧ s.judgeHead l = s.grant l e) ∨
      (∃ e, s.headEntry l = some e ∧ s.judgePaper e.record = .noPaper ∧
        s.judgeHead l = s.modifyHalt (fun h => { h with noPaper := true })) ∨
      (∃ e, s.headEntry l = some e ∧ s.judgePaper e.record = .paperOut ∧
        s.judgeHead l = s.modifyHalt (fun h => { h with paperOut := true })) := by
  unfold State.judgeHead
  cases hq : s.headEntry l with
  | none => exact .inl ⟨rfl, rfl⟩
  | some e =>
    dsimp only
    cases hv : s.judgePaper e.record with
    | grant => exact .inr (.inl ⟨e, rfl, hv, rfl⟩)
    | noPaper => exact .inr (.inr (.inl ⟨e, rfl, hv, rfl⟩))
    | paperOut => exact .inr (.inr (.inr ⟨e, rfl, hv, rfl⟩))

/-- A LOAD that a paper halt lets in is QUEUED at the head of the Console queue, with no entry granted (R171). -/
theorem State.loadReady_spec {s : State} {e : Entry} (h : s.loadReady = some e) :
    s.headEntry .console = some e ∧ e.state = .queued ∧ e.record = .motion .load ∧ s.arb.granted = none ∧
      s.arb.halt.onlyPaper = true := by
  unfold State.loadReady at h
  split at h
  · next hc =>
    split at h
    · next d hd =>
      split at h
      · next hr =>
        have := Option.some.inj h; subst this
        simp only [Entry.ready, Bool.and_eq_true, decide_eq_true_eq, Option.isNone_iff_eq_none] at hc hr
        exact ⟨hd, hr.1, hr.2, hc.2, hc.1⟩
      · simp at h
    · simp at h
  · simp at h

/-- A link that the grant order selects has a ready head (R166). -/
theorem State.select_spec {s : State} {l : Link} (h : s.select = some l) :
    ∃ e, s.headEntry l = some e ∧ e.state = .queued := by
  have ready : ∀ k, s.headReady k = true → ∃ e, s.headEntry k = some e ∧ e.state = .queued := by
    intro k hk
    unfold State.headReady at hk
    split at hk
    · next e he => exact ⟨e, he, by simpa [Entry.ready] using hk⟩
    · simp at hk
  unfold State.select at h
  split at h
  · next hu =>
    have := Option.some.inj h; subst this
    unfold State.urgentReady at hu
    split at hu
    · next e he =>
      simp only [Entry.ready, Bool.and_eq_true, decide_eq_true_eq] at hu
      exact ⟨e, he, hu.1⟩
    · simp at hu
  · split at h
    · split at h
      · next hj => have := Option.some.inj h; subst this; exact ready _ hj
      · simp at h
    · split at h
      · next hc => have := Option.some.inj h; subst this; exact ready _ hc
      · split at h
        · next hj => have := Option.some.inj h; subst this; exact ready _ hj
        · simp at h

/-- A line whose pass waits for its start is never shown as IDLE (R163). -/
theorem PassId.waitingEngine_ne_idle (p : PassId) : p.waitingEngine ≠ .idle := by
  unfold PassId.waitingEngine; split <;> decide

/-- An engine that is IDLE has no cause in its halt set, no entry granted, and a carriage STOPPED (R163). -/
theorem State.isIdle_spec {s : State} (h : s.isIdle = true) :
    s.arb.halt.isEmpty = true ∧ s.arb.granted = none ∧ s.car.state = .stopped := by
  have he : s.engine = .idle := by simpa [State.isIdle] using h
  unfold State.engine at he
  split at he
  · simp at he
  · next hh =>
    split at he
    · split at he
      · next c _ =>
        cases hs : c.stage <;> simp [LineStage.engine, hs, PassId.waitingEngine_ne_idle] at he
      · simp at he
      · simp at he
    · next hg =>
      split at he
      · simp at he
      · split at he
        · next hc => exact ⟨by simpa using hh, by simpa using hg, hc⟩
        · simp at he

/-! ## A line that a halt holds (R171, R173) -/

/-- Everything that the end of a line's work can be: the line completes, or a halt holds it. -/
theorem State.finishLine_cases (s : State) :
    (s.arb.halt.isEmpty = true ∧ s.finishLine = s.completeLine) ∨
      (s.arb.halt.isEmpty = false ∧ s.finishLine = s.setStage .held) := by
  unfold State.finishLine
  cases h : s.arb.halt.isEmpty
  · exact .inr ⟨rfl, rfl⟩
  · exact .inl ⟨rfl, rfl⟩

/-- Everything that the leaving of a halt can do to a line: a line that it held completes, any other stays. -/
theorem State.takeUpLine_cases (s : State) :
    (s.takeUpLine = s ∧ ∀ c, s.line = some c → ¬ (s.arb.halt.isEmpty = true ∧ c.stage = .held)) ∨
      (∃ c, s.line = some c ∧ s.arb.halt.isEmpty = true ∧ c.stage = .held ∧ s.takeUpLine = s.completeLine) := by
  unfold State.takeUpLine
  cases hl : s.line with
  | none => exact .inl ⟨rfl, fun c h => (Option.some_ne_none c h.symm).elim⟩
  | some c =>
    dsimp only
    split
    · next h => exact .inr ⟨c, rfl, h.1, h.2, rfl⟩
    · next h => exact .inl ⟨rfl, fun d hd => by injection hd with hd; subst hd; exact h⟩

/-! ## All the steps -/

/-- Steps that come to an end at a state with nothing to plan or grant stop there, whatever is left of the bound. -/
theorem State.settleLoop_stop {s : State} (h : s.settleOnce = none) (n : Nat) : s.settleLoop n = s := by
  cases n with
  | zero => rfl
  | succ n => unfold State.settleLoop; rw [h]

/-- A step, and then the steps from the state that it makes. -/
theorem State.settleLoop_step {s t : State} (h : s.settleOnce = some t) (n : Nat) : s.settleLoop (n + 1) = t.settleLoop n := by
  rw [State.settleLoop, h]

/-- A plan or a grant after which nothing is left to plan or grant is followed by the judgement of the timers. -/
theorem State.settle_of_one {s t : State} (h : s.settleOnce = some t) (e : t.settleOnce = none) : s.settle = t.judgeTimers := by
  unfold State.settle
  rw [State.settleLoop_step h, State.settleLoop_stop e]

/-- A relation that is reflexive and transitive, and holds of each step, holds of the whole of `settle`. -/
theorem State.settle_rel (R : State → State → Prop) (refl : ∀ s, R s s) (trans : ∀ {s t u}, R s t → R t u → R s u)
    (once : ∀ {s t}, s.settleOnce = some t → R s t) (timers : ∀ s, R s s.judgeTimers) (s : State) : R s s.settle := by
  have loop : ∀ n s, R s (State.settleLoop n s) := by
    intro n
    induction n with
    | zero => exact fun s => refl s
    | succ n ih =>
      intro s
      unfold State.settleLoop
      split
      · next t ht => exact trans (once ht) (ih t)
      · exact refl s
  exact trans (loop 1024 s) (timers _)

/-- A property that each step of `settle` keeps, and the judgement of the timers, holds after it. -/
theorem State.settle_induct (P : State → Prop) (once : ∀ {s t}, P s → s.settleOnce = some t → P t)
    (timers : ∀ {s}, P s → P s.judgeTimers) {s : State} (h : P s) : P s.settle :=
  State.settle_rel (fun s t => P s → P t) (fun _ => id) (fun a b h => b (a h)) (fun a h => once h a) (fun _ => timers) s h

/-! ## The timers (R168, R170, R175) -/

/-- The judgement of the timers changes the two timers alone. -/
theorem State.judgeTimers_frame (s : State) :
    s.judgeTimers = { s with arb := { s.arb with
      idleTimer := s.judgeTimers.arb.idleTimer, autoTimer := s.judgeTimers.arb.autoTimer } } := by
  have a : ∀ t : State, t.judgeIdleTimer = { t with arb := { t.arb with idleTimer := t.judgeIdleTimer.arb.idleTimer } } := by
    intro t
    unfold State.judgeIdleTimer
    split <;> rfl
  have b : ∀ t : State, t.judgeTearTimer = { t with arb := { t.arb with autoTimer := t.judgeTearTimer.arb.autoTimer } } := by
    intro t
    unfold State.judgeTearTimer
    split
    · split <;> rfl
    · rfl
  unfold State.judgeTimers
  rw [b, a]

end Sys2Proof.Machine
end

