-- ==== Sys2Proof/Laws/Store.lean ====
section
/-! SUPPORT. The operations over the queues of the Line Store, entry by entry: re-evaluation of FLOW, acceptance,
release, purge, a change of the head, and the completion of the granted entry (R28, R31, R35, R36). -/

namespace Sys2Proof.Machine

/-! ## FLOW (R31) -/

@[simp] theorem State.reflow_queue (s : State) (l : Link) : (s.reflow.store.get l).queue = (s.store.get l).queue := by
  cases l <;> rfl

@[simp] theorem State.reflow_nextSeq (s : State) (l : Link) :
    (s.reflow.store.get l).nextSeq = (s.store.get l).nextSeq := by
  cases l <;> rfl

@[simp] theorem State.reflow_flow (s : State) (l : Link) :
    (s.reflow.store.get l).flow = flowAfter (s.store.get l).flow (availableBlocks s.store l) (availableDescs s.store l) := by
  cases l <;> rfl

@[simp] theorem State.reflow_headEntry (s : State) (l : Link) : s.reflow.headEntry l = s.headEntry l := by
  simp [State.headEntry]

/-! ## The queues after each operation -/

theorem State.modifyStore_get (s : State) (l k : Link) (f : LinkStore → LinkStore) :
    (s.modifyStore l f).store.get k = if k = l then f (s.store.get l) else s.store.get k := by
  rw [State.modifyStore_store, PerLink.get_set]

theorem State.releaseHead_queue (s : State) (l k : Link) :
    ((s.releaseHead l).store.get k).queue = if k = l then (s.store.get l).queue.tail else (s.store.get k).queue := by
  rw [State.releaseHead, State.reflow_queue, State.modifyStore_get]; split <;> rfl

theorem State.releaseHead_nextSeq (s : State) (l k : Link) :
    ((s.releaseHead l).store.get k).nextSeq = (s.store.get k).nextSeq := by
  rw [State.releaseHead, State.reflow_nextSeq, State.modifyStore_get]; split <;> simp_all

theorem State.purge_queue (s : State) (l k : Link) :
    ((s.purge l).store.get k).queue =
      if k = l then (s.store.get l).queue.filter (fun e => e.state = .granted) else (s.store.get k).queue := by
  rw [State.purge, State.reflow_queue, State.modifyStore_get]; split <;> rfl

theorem State.purge_nextSeq (s : State) (l k : Link) : ((s.purge l).store.get k).nextSeq = (s.store.get k).nextSeq := by
  rw [State.purge, State.reflow_nextSeq, State.modifyStore_get]; split <;> simp_all

/-- The queue with its head changed, when it has one. -/
theorem State.modifyHead_queue (s : State) (l k : Link) (f : Entry → Entry) :
    ((s.modifyHead l f).store.get k).queue =
      if k = l then (s.store.get l).queue.modify 0 f else (s.store.get k).queue := by
  rw [State.modifyHead, State.modifyStore_get]
  split
  · cases (s.store.get l).queue <;> rfl
  · rfl

theorem State.modifyHead_nextSeq (s : State) (l k : Link) (f : Entry → Entry) :
    ((s.modifyHead l f).store.get k).nextSeq = (s.store.get k).nextSeq := by
  rw [State.modifyHead, State.modifyStore_get]; split <;> simp_all

theorem State.modifyHead_headEntry (s : State) (l : Link) (f : Entry → Entry) :
    (s.modifyHead l f).headEntry l = (s.headEntry l).map f := by
  simp only [State.headEntry, State.modifyHead_queue, if_true]
  cases (s.store.get l).queue <;> rfl

theorem State.modifyHead_headEntry_other (s : State) {l k : Link} (f : Entry → Entry) (h : k ≠ l) :
    (s.modifyHead l f).headEntry k = s.headEntry k := by
  simp only [State.headEntry, State.modifyHead_queue, if_neg h]

/-! ## Acceptance -/

/-- The queues after an acceptance (R28). -/
theorem State.accept_queue (s : State) (l k : Link) (r : Record) (n : Nat) (st : EntryState) :
    ((s.accept l r n st).store.get k).queue =
      if k = l then (s.store.get l).queue ++ [⟨(s.store.get l).nextSeq, st, n, r, {}, s.acceptCount⟩]
      else (s.store.get k).queue := by
  unfold State.accept
  rw [State.reflow_queue]
  cases l <;> cases k <;> rfl

/-- The next sequence numbers after an acceptance (R30). -/
theorem State.accept_nextSeq (s : State) (l k : Link) (r : Record) (n : Nat) (st : EntryState) :
    ((s.accept l r n st).store.get k).nextSeq =
      if k = l then (s.store.get l).nextSeq + 1 else (s.store.get k).nextSeq := by
  unfold State.accept
  rw [State.reflow_nextSeq]
  cases l <;> cases k <;> rfl

@[simp] theorem State.accept_acceptCount (s : State) (l : Link) (r : Record) (n : Nat) (st : EntryState) :
    (s.accept l r n st).acceptCount = s.acceptCount + 1 := by
  unfold State.accept
  cases l <;> rfl

/-- An acceptance changes the queues, the acceptance count and the idle-release timer alone. -/
theorem State.accept_frame (s : State) (l : Link) (r : Record) (n : Nat) (st : EntryState) :
    s.accept l r n st = { s with
      store := (s.accept l r n st).store
      arb := if l = .job then { s.arb with idleTimer := none } else s.arb
      acceptCount := s.acceptCount + 1 } := by
  unfold State.accept
  cases l <;> rfl

/-! ## Completion of the granted entry -/

/-- The queues after the completion of the granted entry: the head is gone (R35). -/
theorem State.completeEntry_queue (s : State) (l k : Link) :
    ((s.completeEntry l).store.get k).queue = if k = l then (s.store.get l).queue.tail else (s.store.get k).queue := by
  rw [← State.releaseHead_queue]
  unfold State.completeEntry
  dsimp only
  split <;> rfl

theorem State.completeEntry_nextSeq (s : State) (l k : Link) :
    ((s.completeEntry l).store.get k).nextSeq = (s.store.get k).nextSeq := by
  rw [← State.releaseHead_nextSeq s l k]
  unfold State.completeEntry
  dsimp only
  split <;> rfl

/-- The completion of an entry changes the queues, the grant and the form hold alone (R35, R168, R169). -/
theorem State.completeEntry_frame (s : State) (l : Link) :
    s.completeEntry l = { s with
      store := (s.releaseHead l).store
      arb := if l = .job ∧ s.form.offset = 0 then { s.arb with granted := none, hold := false, idleTimer := none }
        else { s.arb with granted := none } } := by
  unfold State.completeEntry
  by_cases h : l = .job ∧ s.form.offset = 0
  · rw [if_pos h]; dsimp only; rw [if_pos (by simpa using h)]; rfl
  · rw [if_neg h]; dsimp only; rw [if_neg (by simpa using h)]; rfl

@[simp] theorem State.completeEntry_granted (s : State) (l : Link) : (s.completeEntry l).arb.granted = none := by
  rw [State.completeEntry_frame]; dsimp only; split <;> rfl

@[simp] theorem State.completeEntry_halt (s : State) (l : Link) : (s.completeEntry l).arb.halt = s.arb.halt := by
  rw [State.completeEntry_frame]; dsimp only; split <;> rfl

/-! ## The head of a queue -/

theorem State.headEntry_of_store {s t : State} (h : t.store = s.store) (l : Link) : t.headEntry l = s.headEntry l := by
  rw [State.headEntry, State.headEntry, h]

end Sys2Proof.Machine
end

