-- ==== Sys2Proof/Tests/Slice0.lean ====
section
/-! SUPPORT. Tests. First the smoke test of WellFormed; then small tests whose expected values are the manual's worked
cases; then, for each statement that has hypotheses, a state and operands that meet them (`_meets`). -/

-- One theorem after another: elaborated side by side, so many evaluations ask for more threads than the check allows.
set_option Elab.async false

namespace Sys2Proof.Tests

open Sys2Proof
open Sys2Proof.Machine

/-! ## Helpers -/

/-- The state that a command leaves. -/
def after (c : Instr) (s : State) : State :=
  match exec c s with
  | .next t => t
  | _ => s

/-- The part with the carriage homed at position 0: the engine is IDLE. -/
def homed : State := { State.reset with car := { State.reset.car with state := .stopped } }

/-- The state with a select period begun on a link. -/
def State.begun (s : State) (l : Link) : State :=
  s.modifyPort l (fun p => { p with selLow := true, rx := .header [] })

/-- The state in which a request on a link has come but for its last bytes; tag 7. -/
def State.asked (s : State) (k : ReqKind) (l : Link) (payload : List Byte) : State :=
  after (requestCommand k l (requestBytes k 7 payload)) (State.begun s l)

/-- The payload of a one-column line at 144 dpi: flags, tally hold. -/
def lineBytes (flags hold : Byte) : List Byte := [144, 0, 104, 1, 48, 0, 1, 0, 0, 0, flags, hold, 100, 0, 1, 0, 48, 0, 0]

/-- The stored fields of that line (R19): left origin 360, dot column 100 with rows 4 and 5. -/
def lineF (hold : Option (Fin 2)) : LineFields :=
  ⟨.dpi144, 360, .auto, .draft, false, false, hold, 48, [⟨100, 1⟩], [⟨0, [48]⟩]⟩

/-- An entry of one block, or of none for a motion. -/
def entry (q : SeqNo) (st : EntryState) (r : Record) (stamp : Nat) : Entry := ⟨q, st, r.chain.length, r, {}, stamp⟩

/-- The state with a queue set. -/
def State.queued (s : State) (l : Link) (q : List Entry) : State :=
  { s.modifyStore l (fun t => { t with queue := q, nextSeq := BitVec.ofNat 16 q.length }) with acceptCount := 8 }

/-- The state with an entry granted. -/
def State.owed (s : State) (l : Link) (q : SeqNo) : State := s.modifyArb (fun a => { a with granted := some ⟨l, q⟩ })

/-- The form with paper PRESENT at an offset. -/
def State.at (s : State) (o : Nat) : State := s.modifyForm (fun f => { f with paper := .present, offset := o })

/-- The line context of the line granted, at a stage. -/
def lineC (l : Link) (g : LineStage) : LineContext :=
  { link := l, stage := g, netOffset := 0, unstruck := [(100, 48)], repairs := [], upGroup := [], downGroup := [],
    lastMainDir := none, oddPlanned := false, cancelled := false }

/-- The state in which that line is in flight at a stage. -/
def State.printing (s : State) (l : Link) (g : LineStage) : State :=
  { State.owed (State.queued s l [entry 0 .granted (.line (lineF none)) 0]) l 0 with line := some (lineC l g) }

/-- The inputs of a plan in the worked case of 1.10: gap 3, supply 240, trim -2, wide, at position 300. -/
def inputs : PlanInputs := ⟨.wide, .cool, 240, 3, -2, false, 300⟩

/-- The plan of the main pass of that line (R45 to R52). -/
def plan : PassPlan :=
  makePlan inputs (lineF none) (.main .whole) none (protosOf (lineF none) (.main .whole) [(100, 48)])

/-! ## WellFormed: each check refuses an ill-formed command, which leaves the state -/

theorem test_coil_rise_0_refused : wellFormed (.coilRise 0) = false := by decide
theorem test_coil_rise_600_refused : wellFormed (.coilRise 600) = false := by decide
theorem test_coil_rise_1_taken : wellFormed (.coilRise 1) = true ∧ wellFormed (.coilRise 599) = true := by decide
theorem test_request_without_bytes_refused : wellFormed (.noOp .job []) = false ∧ wellFormed (.cancel .console []) = false := by
  decide
theorem test_request_with_a_byte_taken : wellFormed (.noOp .job [0]) = true := by decide
theorem test_ill_formed_leaves_the_state : after (.coilRise 600) homed = homed := by decide
theorem test_no_row_spells_bits : decodeTableWord 8 0 = none ∧ decodeTableWord 16 1 = none := by decide

/-! ## Worked cases of the manual -/

-- 1.10: gap 3, NORMAL, supply 240, both directions.
theorem test_pass_constants :
    flightTime 3 = 380 ∧ leadOf .normal 3 = 66 ∧ driveTimeOf 3 240 = 160 ∧ pinCycle 160 = 340 ∧ spacingOf 340 .normal = 4 := by
  decide
theorem test_targets_rightward :
    targetOf .right 860 66 (-2) = 13694 ∧ triggerOf .right 13694 = 855 ∧ fractionOf .right 13694 = 14 ∧
      targetOf .right 788 66 (-2) = 12542 ∧ triggerOf .right 12542 = 783 ∧ fractionOf .right 12542 = 14 := by
  decide
theorem test_targets_leftward :
    targetOf .left 860 66 (-2) = 13794 ∧ triggerOf .left 13794 = 863 ∧ fractionOf .left 13794 = 14 ∧
      targetOf .left 788 66 (-2) = 12642 ∧ triggerOf .left 12642 = 791 ∧ fractionOf .left 12642 = 14 := by
  decide
theorem test_delay_of_a_slow_carriage : delayTicks 14 926 = 810 := by decide
-- 1.11: the greatest lead.
theorem test_greatest_lead :
    leadOf .draft 6 = 115 ∧ triggerOf .right (targetOf .right 144 115 7) = 136 ∧
      triggerOf .left (targetOf .left 144 115 7) = 159 ∧ spacingOf (pinCycle (driveTimeOf 6 240)) .draft = 6 := by
  decide
-- 2.12: the start of the accounting table.
theorem test_accounting :
    availableTo blockReserve (fun l => match l with | .job => 160 | .console => 40) sharedBlocks .job = 176 ∧
      availableTo blockReserve (fun l => match l with | .job => 160 | .console => 40) sharedBlocks .console = 184 ∧
      availableTo blockReserve (fun l => match l with | .job => 313 | .console => 60) sharedBlocks .job = 11 := by
  decide
-- 2.12: event 1 drives both FLOW outputs low, event 4 both high.
theorem test_flow : flowAfter true 23 40 = false ∧ flowAfter true 31 20 = false ∧ flowAfter false 75 40 = true := by decide
-- 7.4: the examples of R116 and R117.
theorem test_heat_judgements :
    judgeLevel (heatReached 30000) (heatLeaves 30000) .limit = .warm ∧
      judgeLevel (heatReached 37500) (heatLeaves 37500) .cool = .hot ∧
      judgeLevel (tempReached 64) (tempLeaves 64) .hot = .cool ∧ judgeLevel (tempReached 72) (tempLeaves 72) .hot = .warm := by
  decide
-- 7.11: the decay of a busy pin.
theorem test_decay : decayed 2880 = 2520 ∧ decayed 9534 = 8342 ∧ decayed 23033 = 20153 ∧ decayed 0 = 0 := by decide
-- 8.3: the skip zone, length 3 168 and zone 144.
theorem test_skip_zone :
    (FormMap.powerOn.withSkip 3000 48 = 48) ∧ ({ FormMap.powerOn with skip := 144 } : FormMap).skipExtended 3000 48 = 168 ∧
      ({ FormMap.powerOn with skip := 144 } : FormMap).skipExtended 2970 48 = 48 := by
  decide
-- 9.7: the corrections of 20 steps, 12 of which the backoff follows.
theorem test_withdrawn_steps :
    ({ State.reset.form with offset := 1060, odometer := 200060 } : FormPosition).withdraw 3168 20 =
      { State.reset.form with offset := 1040, odometer := 200040 } := by
  decide
theorem test_retry_waits : retryTicks 1 = 200000 ∧ retryTicks 2 = 400000 ∧ retryTicks 4 = 1600000 := by decide
-- 9.8: the tear advance with TOF 36 and tear trim +10.
theorem test_tear_advance : ({ FormMap.powerOn with tof := 36, trim := 10 } : FormMap).tearAdvanceDistance = 262 := by decide
-- 4.10: drift in FAULT is counted.
theorem test_count_in_fault :
    (after (.countChange .chanA 900) { homed with car := { homed.car with state := .fault, counter := 5012 } }).car.counter =
      5013 := by
  decide
-- The table of R61.
theorem test_count_table :
    countDir false false .chanA = .right ∧ countDir true false .chanB = .right ∧ countDir true true .chanA = .right ∧
      countDir false true .chanB = .right ∧ countDir false false .chanB = .left ∧ countDir false true .chanA = .left ∧
      countDir true true .chanB = .left ∧ countDir true false .chanA = .left := by
  decide

/-! ## Commands, one step each -/

theorem test_power_on_reset :
    (after (.powerOnReset ⟨.narrow, false, true, false, false, true, false, true⟩) homed).width = .narrow ∧
      (after (.powerOnReset ⟨.narrow, false, true, false, false, true, false, true⟩) homed).form.edge = .off ∧
      (after (.powerOnReset ⟨.narrow, false, true, false, false, true, false, true⟩) homed).engine = .unready := by
  decide
theorem test_select_falls : (after (.selectFalls .job) homed).port.job.sdo = some 0xFF := by decide
theorem test_bytes_make_a_request :
    (after (.byteArrives .job 0) (after (.byteArrives .job 0) (after (.byteArrives .job 9) (after (.byteArrives .job 0)
      (State.begun homed .job))))).port.job.built = some ⟨0x80, 9, .ok, []⟩ := by
  decide
theorem test_select_rises_truncated :
    (after (.selectRises .job) (after (.byteArrives .job 1) (State.begun homed .job))).port.job.response =
      some ⟨0x81, 0, .malformed, [2, 1, 0]⟩ := by
  decide
theorem test_put_line :
    (State.asked homed .putLine .job (lineBytes 4 255)).port.job.built =
      some ⟨0x81, 7, .ok, [0, 0, 1, 104, 1, 0, 48, 0, 79, 1, 39]⟩ := by
  decide +kernel
theorem test_put_line_bad_density :
    (State.asked homed .putLine .job (145 :: (lineBytes 4 255).tail)).port.job.built = some ⟨0x81, 7, .badLine, [6]⟩ := by
  decide +kernel
theorem test_put_motion_from_job : (State.asked homed .putMotion .job [6]).port.job.built = some ⟨0x82, 7, .notAllowed, []⟩ := by
  decide +kernel
theorem test_put_motion_feed :
    (State.asked (State.at homed 0) .putMotion .console [1, 0, 0]).drive.due = some ⟨.entry .console 0, .feed 1⟩ := by
  decide +kernel
theorem test_set_form_length :
    (State.asked homed .setForm .console [3, 128, 13, 255, 255, 0, 0, 0, 0, 0]).map =
      { FormMap.powerOn with programmed := 3456, tof := 720 } := by
  decide +kernel
theorem test_set_form_lock_from_job :
    (State.asked homed .setForm .job [32, 0, 0, 0, 0, 0, 0, 0, 0, 0]).port.job.built = some ⟨0x83, 7, .notAllowed, []⟩ := by
  decide +kernel
theorem test_set_head :
    (State.asked homed .setHead .console [63, 9, 127, 1, 0, 99, 0]).arb.head = ⟨6, 7, true, false, 15, 1⟩ := by
  decide +kernel
theorem test_take_notice_of_none :
    (State.asked homed .takeNotice .job [0]).port.job.built = some ⟨0x87, 7, .ok, [0, 0, 0]⟩ := by
  decide +kernel
theorem test_cancel_job_leaves_console :
    (State.asked (State.queued homed .console [entry 0 .queued (.motion .vtab) 0]) .cancel .job []).port.job.notices =
      [.cancelled 0 none] := by
  decide +kernel
theorem test_tally_set :
    (State.asked homed .tallySet .console [5, 9, 2, 1]).tallyUnit 1 = { State.reset.tallyUnit 1 with mode := .count, setValue := 258 } := by
  decide +kernel
theorem test_clear_from_job : (State.asked homed .clear .job []).port.job.built = some ⟨0x8D, 7, .notAllowed, []⟩ := by
  decide +kernel
theorem test_engine_reset_homes :
    (State.asked homed .engineReset .console []).car.state = .homing .rest ∧
      (State.asked homed .engineReset .console []).port.job.notices = [.engineReset] := by
  decide +kernel
theorem test_link_reset :
    ((State.asked (State.queued homed .job [entry 0 .held (.line (lineF (some 0))) 0]) .linkReset .job []).store.job).nextSeq = 0 := by
  decide +kernel
theorem test_illegal_transition_in_homing : (after .illegalTransition State.reset).car.state = .unhomed := by decide
theorem test_stall_at_rest : after .stall homed = homed := by decide
theorem test_homing_rest_end_seeks :
    (after .homingRestEnd State.reset).car.state = .homing .seek ∧ (after .homingRestEnd State.reset).car.indexArmed = true := by
  decide
theorem test_index_edge_settles : (after (.indexEdge true) (after .homingRestEnd State.reset)).car.state = .homing .settle := by
  decide
theorem test_automatic_homing :
    (after .automaticHoming { homed with car := { homed.car with state := .fault } }).car.state = .homing .rest := by
  decide
theorem test_overcurrent :
    (after (.overcurrent 5) (homed.setChannel 5 (.drive 9 false))).channel 5 = .recovery 1400 ∧
      (after (.overcurrent 5) (homed.setChannel 5 (.drive 9 false))).pinRecord 5 = ⟨.suspect, 1, .none, none⟩ := by
  decide
theorem test_drive_end_weak :
    (after (.driveEnd 17 1199) (homed.setChannel 17 (.drive 0 false))).pinRecord 17 = ⟨.suspect, 1, .none, none⟩ ∧
      (after (.driveEnd 17 1200) (homed.setChannel 17 (.drive 0 false))).pinRecord 17 = ⟨.good, 0, .none, none⟩ := by
  decide
theorem test_drive_end_overcurrent :
    (after (.driveEnd 17 4001) (homed.setChannel 17 (.drive 0 false))).channel 17 = .recovery 1400 ∧
      (after (.driveEnd 17 4001) (homed.setChannel 17 (.drive 0 false))).pinRecord 17 = ⟨.suspect, 1, .none, none⟩ ∧
      (after (.driveEnd 17 4000) (homed.setChannel 17 (.drive 0 false))).channel 17 = .hold 400 := by
  decide
theorem test_hold_end : (after (.holdEnd 0) (homed.setChannel 0 (.hold 0))).channel 0 = .recovery 1400 := by decide
theorem test_hold_end_of_a_ready_pin : after (.holdEnd 0) homed = homed := by decide
theorem test_recovery_end : (after (.recoveryEnd 0) (homed.setChannel 0 (.recovery 0))).channel 0 = .ready := by decide
theorem test_window_end : (after .windowEnd (homed.addHeat 3 24000)).heat.thermal = .warm := by decide +kernel
theorem test_temperature_open_sensor : (after (.temperatureConversion 1023) homed).heat.thermal = .limit := by decide
theorem test_supply_in_turn :
    after (.supplyConversion 485) homed = homed ∧
      (after (.supplyConversion 485) (after (.temperatureConversion 300) homed)).heat.lowSupply = true := by
  decide
theorem test_dwell_runs_out : (after .dwellRunsOut { homed with dwell := .running 1 }).dwell = .over := by decide
theorem test_tally_qualifies :
    ((after (.tallyInputChange 0 true) homed).tallyUnit 0).qual = .rising 0 ∧
      ((after (.qualifiedEdge 0) (after (.tallyInputChange 0 true) homed)).tallyUnit 0).qual = .high := by
  decide
theorem test_idle_release :
    (after .idleReleaseTimerExpiry { homed with arb := { homed.arb with hold := true, idleTimer := some 0 } }).arb.hold = false := by
  decide
theorem test_automatic_tear :
    (after .automaticTear { State.at homed 0 with arb := { homed.arb with autoTimer := some 0 } }).drive.due =
      some ⟨.auto, .tearAdvance⟩ := by
  decide
theorem test_load_seeks :
    (after (.moveStart false) (State.asked homed .putMotion .console [6])).form.paper = .loading false ∧
      (after (.step true false) (after (.moveStart false) (State.asked homed .putMotion .console [6]))).form.paper =
        .loading true := by
  decide +kernel
theorem test_sensor_pulse_counts_over_paper :
    (after .sensorPulse { State.at homed 0 with drive := { homed.drive with
      state := .stepping, move := some ⟨.auto, .feed 9, .forward, 9, false, 0, 0, 0, 0, 0⟩ } }).drive.move.map (·.pulses) =
      some 1 := by
  decide
theorem test_first_line_is_planned : (State.asked (State.at homed 0) .putLine .job (lineBytes 4 255)).engine = .planning := by
  decide +kernel

/-! ## States and operands that meet the hypotheses of the statements -/

/-! ### The machine and the links -/

/-- A state in which every timer runs, at its last tick. -/
def lastTick : State :=
  { homed with
    dwell := .running 1
    drive := { homed.drive with state := .retryWait 1 }
    sequ := { homed.sequ with timerA := .running 1 0 }
    tally := homed.tally.set 0 { homed.tallyUnit 0 with qual := .rising 0 } }

theorem test_IdleStepPassesOneTick_meets :
    lastTick.pending = [] ∧ lastTick.dwell = .running 1 ∧ lastTick.drive.state = .retryWait 1 ∧
      lastTick.sequ.timer .colA = .running 1 0 ∧ (lastTick.tallyUnit 0).qual = .rising 0 := by
  decide

theorem test_CommandsKeepQueueAndStraps_meets : ∀ pins, Instr.stall ≠ .powerOnReset pins := by simp

theorem test_SettleLeavesTheRest_meets :
    ((State.reset.modifyPort .job (fun p => { p with lost := true })).port.get .job).lost = true := by decide
/-- An IDLE engine with an entry at the head of a queue, the form in a paper state at offset 7, and a supply reading. -/
def heading (l : Link) (r : Record) (p : PaperState) : State :=
  ((State.queued homed l [entry 0 .queued r 0]).modifyForm (fun f => { f with paper := p, offset := 7 })).modifyHeat
    (fun h => { h with supply := some 240 })
/-- The same with the form at the tear position. -/
def State.torn (s : State) (d : Int) : State := s.modifyForm (fun f => { f with tear := .atTear, tearDistance := d })
theorem test_SettleLeavesTheRest_idle_meets :
    homed.settleOnce = none ∧
      (∀ l, (heading l (.line (lineF none)) .present).isIdle = true ∧ (heading l (.line (lineF none)) .present).select = some l ∧
        (heading l (.line (lineF none)) .present).judgePaper (.line (lineF none)) = .grant ∧
        (heading l (.line (lineF none)) .present).line = none ∧ (heading l (.line (lineF none)) .present).drive.run = none ∧
        (heading l (.line (lineF none)) .present).test = none) := by
  refine ⟨by decide, ?_⟩
  intro l; cases l <;> decide
theorem test_SettleLeavesTheRest_line_meets :
    (heading .job (.line (lineF none)) .present).form.tear = .atPrint ∧
      ((heading .job (.line (lineF none)) .present).lists[0] = .free) ∧
      (protosOf (lineF none) (.main .whole) (dotsInRows (~~~(heading .job (.line (lineF none)) .present).failedPins)
        (strikableDots .wide (lineF none)))).length = 2 ∧
      (heading .job (.line (lineF none)) .present).settle.engine = .planning ∧
      (State.torn (heading .job (.line (lineF none)) .present) 5).form.tear = .atTear ∧
      (State.torn (heading .job (.line (lineF none)) .present) 5).isIdle = true := by
  decide +kernel
theorem test_SettleLeavesTheRest_test_meets :
    (heading .console (.motion (.coilTest none)) .none).judgePaper (.motion (.coilTest none)) = .grant ∧
      (heading .console (.motion (.coilTest none)) .none).channel 0 = .ready ∧
      (heading .console (.motion (.coilTest none)) .none).heat.supply = some 240 ∧
      ((heading .console (.motion (.coilTest (some 3))) .none).setChannel 3 (.hold 1)).channel 3 ≠ .ready ∧
      ((heading .console (.motion (.coilTest (some 3))) .none).setChannel 3 (.hold 1)).isIdle = true := by
  decide
theorem test_SettleLeavesTheRest_motion_meets :
    (State.torn (heading .console (.motion (.feed 9)) (.tail 600)) 5).judgePaper (.motion (.feed 9)) = .grant ∧
      (heading .job (.motion (.reverse 9)) .present).form.path = .tractor ∧
      (heading .job (.motion (.reverse 9)) .present).isIdle = true ∧ (heading .job (.motion .tear) .present).form.offset = 7 ∧
      (heading .console (.motion .load) .none).judgePaper (.motion .load) = .grant ∧
      (heading .console (.motion .load) .none).select = some .console ∧
      (∀ j, j ≠ Link.console → ((heading .console (.motion .load) .none).store.get j).queue = []) := by
  refine ⟨by decide, by decide, by decide, by decide, by decide, by decide, ?_⟩
  intro j h; cases j
  · rfl
  · exact (h rfl).elim
theorem test_SettleLeavesTheRest_halt_meets :
    (heading .job (.line (lineF none)) .none).judgePaper (.line (lineF none)) = .noPaper ∧
      (heading .job (.line (lineF none)) .none).headEntry .job = some (entry 0 .queued (.line (lineF none)) 0) ∧
      (heading .job (.line (lineF none)) .none).headEntry .console = none ∧
      (heading .job (.motion (.feed 9)) (.tail 81)).judgePaper (.motion (.feed 9)) = .paperOut ∧
      (heading .job (.motion (.feed 9)) (.tail 82)).judgePaper (.motion (.feed 9)) = .grant := by
  decide
/-- A line that waits for a plan of a pass, with a supply reading. -/
def planning (p : PassId) (f : LineContext → LineContext) : State :=
  ((State.printing homed .job (.planDue p)).modifyLine f).modifyHeat (fun h => { h with supply := some 240 })
/-- From R42 and R121: a repair pass that is due is planned, one with no dots passed over, and one with a gate closed waits. -/
theorem test_SettleLeavesTheRest_plan_meets :
    (planning .repair (fun c => { c with repairs := [(100, 16)] })).line.map (·.stage) = some (.planDue .repair) ∧
      (planning .repair id).heat.thermal ≠ .limit ∧ (planning .repair id).heat.lowSupply = false ∧
      (planning .repair id).arb.granted ≠ none ∧
      (planning .repair (fun c => { c with repairs := [(100, 16)] })).settle.line.map (·.stage) = some (.planned .repair) ∧
      ((planning .repair id).planPass .repair 0).2 = none ∧ (planning .repair id).settle.engine = .move ∧
      ((planning .repair id).modifyHeat (fun h => { h with lowSupply := true })).settle.line.map (·.stage) =
        some (.planDue .repair) := by
  decide +kernel
theorem test_SettleLeavesTheRest_load_meets :
    ((heading .console (.motion .load) .none).modifyHalt (fun h => { h with noPaper := true })).arb.halt.noPaper = true ∧
      ((heading .console (.motion .load) .none).modifyHalt (fun h => { h with noPaper := true })).arb.halt.jam = false ∧
      ((heading .console (.motion .load) .none).modifyHalt (fun h => { h with noPaper := true })).settle.drive.due =
        some ⟨.entry .console 0, .load⟩ ∧
      (State.torn (heading .console (.motion .load) (.tail 5)) 3).form.paper = .tail 5 ∧
      (heading .console (.motion .load) .parked).form.paper = .parked := by
  decide

theorem test_SelectFallsOpensAPeriod_meets : (homed.port.get .job).selLow = false := by decide
/-- A port in a select period at a byte position, with a NOROOM response of two payload bytes pending. -/
def shifting (n : Nat) : LinkPort :=
  { (homed.port.get .job) with selLow := true, position := n, response := some ⟨0x81, 7, .noRoom, [9, 8]⟩ }
theorem test_SelectFallsOpensAPeriod_bytes_meet :
    (∀ n, (shifting n).selLow = true ∧ (shifting n).position = n ∧ (shifting n).response = some ⟨0x81, 7, .noRoom, [9, 8]⟩) ∧
      (List.range 9).map (fun n => (shifting n).sdo) =
        [some 0x81, some 7, some 1, some 2, some 0, some 9, some 8, some 0xFF, some 0xFF] := by
  refine ⟨fun n => ⟨rfl, rfl, rfl⟩, ?_⟩
  decide

/-- The state with a receiver in the middle of a period. -/
def hearing (r : RxState) : State := (State.begun homed .job).modifyPort .job (fun p => { p with rx := r })

theorem test_SelectRisesFillsTheSlot_meets :
    (∀ r, ((hearing r).port.get .job).selLow = true ∧ ((hearing r).port.get .job).rx = r ∧
      ((hearing r).port.get .job).built = none) ∧
      (((hearing (.discard none)).answered .job ⟨0x80, 7, .ok, []⟩).port.get .job).selLow = true ∧
      (((hearing (.discard none)).answered .job ⟨0x80, 7, .ok, []⟩).port.get .job).rx = .discard none ∧
      (((hearing (.discard none)).answered .job ⟨0x80, 7, .ok, []⟩).port.get .job).built = some ⟨0x80, 7, .ok, []⟩ := by
  refine ⟨fun r => ⟨rfl, rfl, rfl⟩, ?_⟩
  decide

theorem test_ByteMovesTheReceiver_kind_meets :
    16 ≤ (16 : Byte).toNat ∧ (15 : Byte).toNat < 16 ∧ ((hearing (.header [])).port.get .job).rx = .header [] := by decide
theorem test_ByteMovesTheReceiver_length_meets :
    16384 < (1 : Byte).toNat + 256 * (64 : Byte).toNat ∧ ReqKind.noOp.fixedLength = some 0 ∧
      (∀ n, n ≤ 16 → (43 : Byte).toNat + 256 * (0 : Byte).toNat ≠ 10 + 2 * n) ∧
      (∀ n, n ≤ 16 → (44 : Byte).toNat + 256 * (0 : Byte).toNat ≠ 10 + 2 * n) ∧ lengthGood .putLine 16384 = true ∧
      lengthGood .setForm 42 = true ∧ lengthGood .setForm 10 = true ∧ lengthGood .putMotion 1 = true := by
  refine ⟨by decide, by decide, ?_, ?_, by decide⟩ <;> intro n _ <;> simp <;> omega
theorem test_ByteMovesTheReceiver_payload_meets :
    (List.replicate 9 (0 : Byte)).length = 9 ∧ 42 ≠ 10 + 2 * (15 : Byte).toNat ∧ (List.replicate 9 (0 : Byte)).length + 1 < 12 ∧
      (List.replicate 10 (0 : Byte)).length ≠ 9 ∧ (List.replicate 10 (0 : Byte)).length + 1 < 12 := by
  decide
theorem test_ByteMovesTheReceiver_header_meets :
    (∀ k, ((hearing (.header [k])).port.get .job).rx = .header [k]) ∧
      (∀ k tag, ((hearing (.header [k, tag])).port.get .job).rx = .header [k, tag]) ∧
      (∀ b, ((hearing (.discard (some b))).port.get .job).rx = .discard (some b)) ∧ (hearing (.header [0])).port.job.selLow = true := by
  exact ⟨fun _ => rfl, fun _ _ => rfl, fun _ => rfl, rfl⟩

theorem test_RequestIsItsBytes_meets :
    ((hearing (.header [0, 7, 0])).port.get .job).selLow = true ∧
      (rxByte ((hearing (.header [0, 7, 0])).port.get .job).rx 0).taken = some ⟨.noOp, 7, []⟩ ∧
      (rxByte ((hearing (.header [0, 7])).port.get .job).rx 0).taken = none ∧
      (hearing (.header [0, 7])).frameOf .job [0, 0] = some ⟨.noOp, 7, []⟩ ∧
      exec (.byteArrives .job 0) (hearing (.header [0, 7])) = .next (after (.byteArrives .job 0) (hearing (.header [0, 7]))) := by
  exact ⟨rfl, rfl, rfl, rfl, rfl⟩

theorem test_ReceiverTakesWholeFrame_meets :
    lengthGood .noOp ([] : List Byte).length = true ∧ lengthGood .putLine (List.replicate 300 (0 : Byte)).length = true ∧
      lengthGood .setForm [16, 0, 0, 0, 0, 0, 0, 0, 0, 1, 48, 0].length = true ∧
      [16, 0, 0, 0, 0, 0, 0, 0, 0, 1, 48, 0].length = 10 + 2 * byteAt [16, 0, 0, 0, 0, 0, 0, 0, 0, 1, 48, 0] 9 := by
  decide +kernel

/-- A period that has begun on a link, with the request still to come. -/
def begun (l : Link) : State := State.begun homed l

/-- A request with tag 7. -/
def bytesOf (k : ReqKind) (payload : List Byte) : List Byte := requestBytes k 7 payload

theorem test_ReadsAndNoticesAreAnswered_reads_meet :
    (begun .job).frameOf .job (bytesOf .noOp []) = some ⟨.noOp, 7, []⟩ ∧
      (begun .job).frameOf .job (bytesOf .readState []) = some ⟨.readState, 7, []⟩ ∧
      (begun .console).frameOf .console (bytesOf .readPosition []) = some ⟨.readPosition, 7, []⟩ := by
  decide

theorem test_ReadsAndNoticesAreAnswered_notices_meet :
    (begun .job).frameOf .job (bytesOf .takeNotice [0]) = some ⟨.takeNotice, 7, [0]⟩ ∧
      (begun .job).frameOf .job (bytesOf .takeNotice [9]) = some ⟨.takeNotice, 7, [9]⟩ := by
  decide

theorem test_PostedNoticeJoinsOrIsLost_meets :
    ((homed.modifyPort .job (fun p => { p with notices := List.replicate 15 .engineReset })).port.get .job).notices.length < 16 ∧
      16 ≤ ((homed.modifyPort .job (fun p => { p with notices := List.replicate 16 .engineReset })).port.get .job).notices.length := by
  decide
/-- From R21, R73 and R192: the layouts of LINE DONE and CARRIAGE FAULT, and the ends of the signed ranges. -/
theorem test_notices_in_bytes :
    (Notice.lineDone .console 258 ⟨1, 513, true, false, true, false, false, false⟩).bytes =
        [1, 12, 1, 2, 1, 1, 0, 0, 0, 1, 2, 0, 0, 5] ∧
      (Notice.carriageFault .overrun (-2) .cruise).bytes = [16, 4, 2, 254, 255, 4] ∧
      (Notice.cancelled 3 none).bytes = [3, 4, 3, 0, 0, 0] ∧
      i8 (-128) = [128] ∧ i16 32767 = [255, 127] ∧ u16 65535 = [255, 255] ∧ u32 88128 = [64, 88, 1, 0] := by
  decide

/-! ### The Line Store and the requests for records -/

theorem test_AccountingAndFlow_meets :
    (homed.store.get .job).flow = true ∧
      ((homed.modifyStore .console (fun t => { t with flow := false })).store.get .console).flow = false := by
  decide

theorem test_PutLineAnswered_accepted_meets :
    (begun .job).frameOf .job (bytesOf .putLine (lineBytes 4 255)) = some ⟨.putLine, 7, lineBytes 4 255⟩ ∧
      lineCheck (lineBytes 4 255) = none ∧ 1 = blocksNeeded (segmentsOf (lineBytes 4 255) (wordAt (lineBytes 4 255) 6)) ∧
      1 ≤ availableBlocks (begun .job).store .job ∧ 1 ≤ availableDescs (begun .job).store .job ∧
      (lineFieldsOf .job (lineBytes 4 255) (freeBlockNumbers (begun .job).store)).tallyHold = none := by
  decide +kernel
/-- A tally unit with a pending latch that it may release from. -/
def latched : State := (begun .job).modifyTally 0 (fun t => { t with unmasked := true, mode := .edge, latch := true })
theorem test_PutLineAnswered_held_meets :
    latched.frameOf .job (bytesOf .putLine (lineBytes 4 0)) = some ⟨.putLine, 7, lineBytes 4 0⟩ ∧
      lineCheck (lineBytes 4 0) = none ∧
      (lineFieldsOf .job (lineBytes 4 0) (freeBlockNumbers latched.store)).tallyHold = some 0 ∧
      (latched.tallyUnit 0).latchReady = true ∧ ((begun .job).tallyUnit 0).latchReady = false := by
  decide +kernel

/-- A Job queue that takes all the blocks that Job can have. -/
def fullStore : State :=
  State.queued (begun .job) .job [⟨0, .queued, 153, .motion .vtab, {}, 0⟩, ⟨1, .queued, 153, .motion .vtab, {}, 1⟩,
    ⟨2, .queued, 30, .motion .vtab, {}, 2⟩]
/-- A Job queue that takes all the descriptors that Job can have. -/
def fullQueue : State :=
  State.queued (begun .job) .job ((List.range 40).map (fun i => entry (BitVec.ofNat 16 i) .queued (.motion .vtab) i))
theorem test_PutLineAnswered_refused_meets :
    (begun .job).frameOf .job (bytesOf .putLine []) = some ⟨.putLine, 7, []⟩ ∧ lineCheck [] = some 0 ∧
      lineCheck (145 :: (lineBytes 4 255).tail) = some 6 ∧
      fullStore.frameOf .job (bytesOf .putLine (lineBytes 4 255)) = some ⟨.putLine, 7, lineBytes 4 255⟩ ∧
      availableBlocks fullStore.store .job < 1 ∧ availableDescs fullQueue.store .job < 1 := by
  decide +kernel
/-- A PUT LINE payload of segments with no column bytes. -/
def segBytes (n : Byte) (segs : List (Byte × Byte × Byte × Byte)) : List Byte :=
  [144, 0, 0, 0, 0, 0, n, 0, 0, 0, 0, 255] ++ (segs.map (fun g => [g.1, g.2.1, g.2.2.1, g.2.2.2])).flatten
theorem test_PutLineAnswered_checks_meet :
    lineCheck (segBytes 1 []) = some 0 ∧ lineCheck (segBytes 0 []) = some 1 ∧ lineCheck (segBytes 17 []) = some 1 ∧
      lineCheck (segBytes 1 [(0, 0, 0, 0)]) = some 2 ∧ lineCheck (segBytes 1 [(32, 19, 1, 0)]) = some 3 ∧
      lineCheck (segBytes 2 [(5, 0, 2, 0), (6, 0, 1, 0)]) = some 4 ∧ lineCheck (segBytes 1 [(31, 19, 1, 0)]) = some 5 ∧
      lineCheck (segBytes 2 [(5, 0, 1, 0), (6, 0, 1, 0)]) = some 5 ∧ lineCheck (lineBytes 4 2) = some 7 := by
  decide +kernel

theorem test_PutMotionAnswered_meets :
    (begun .job).frameOf .job (bytesOf .putMotion [6]) = some ⟨.putMotion, 7, [6]⟩ ∧ 6 ≤ (6 : Byte).toNat ∧ (9 : Byte).toNat ≤ 9 ∧
      motionOf [] = none ∧ motionOf [9, 18] = none ∧ motionOf [5] = some .tear ∧ MotionKind.tear.code < 6 ∧
      fullQueue.frameOf .job (bytesOf .putMotion [5]) = some ⟨.putMotion, 7, [5]⟩ ∧ availableDescs fullQueue.store .job < 1 ∧
      (begun .job).frameOf .job (bytesOf .putMotion [5]) = some ⟨.putMotion, 7, [5]⟩ ∧
      1 ≤ availableDescs (begun .job).store .job := by
  decide +kernel
theorem test_PutMotionAnswered_values_meet :
    2 ≤ (2 : Byte).toNat ∧ 18 ≤ (18 : Byte).toNat ∧ (18 : Byte).toNat ≠ 255 ∧ 18 ≤ (254 : Byte).toNat ∧ (254 : Byte).toNat ≠ 255 := by
  decide

/-- From R22, R28 and R192: the stored parameter in the answer. -/
theorem test_PutMotionAnswered_params_meet :
    (motionOf [1, 255, 255]).map MotionKind.param = some [255, 3] ∧ (motionOf [9, 255]).map MotionKind.param = some [255] ∧
      (motionOf [9, 17]).map MotionKind.param = some [17] ∧ 1023 < 65536 := by
  decide

/-- Two segments, one of them longer than a block. -/
def lineText : LineText :=
  ⟨.dpi180, some 65535, 1023, .left, .heavy, true, false, some 1, [(0, List.replicate 33 5), (33, [262143])]⟩
theorem test_LinePayloadIsReadBack_meets :
    lineText.Legal ∧ (lineText.segments.map (fun g => (g.2.length + 31) / 32)).sum ≤ (List.range 384).length where
  left :=
    { ceiling := by decide
      origin := by intro n h; have : n = 65535 := by simpa [lineText] using h.symm
                   omega
      feed := by decide
      few := by decide
      columns := by decide
      ascend := by decide
      blocks := by decide }
  right := by decide +kernel

/-! ### Requests to the engine -/

/-- A ready URGENT line at the Console head. -/
def urgentHead : State := State.queued homed .console [entry 0 .queued (.line { lineF none with urgent := true }) 0]
/-- Ready heads on both links. -/
def bothHeads : State := State.queued (State.queued homed .console [entry 0 .queued (.motion .vtab) 0]) .job
  [entry 0 .queued (.motion .vtab) 1]
/-- The state with the form hold owned by Job. -/
def State.held (s : State) : State := s.modifyArb (fun a => { a with hold := true })
theorem test_GrantOrderAndPaperCheck_order_meets :
    urgentHead.urgentReady = true ∧
      (bothHeads.urgentReady = false ∧ (State.held bothHeads).arb.hold = true ∧ (State.held bothHeads).headReady .job = true) ∧
      ((State.held homed).urgentReady = false ∧ (State.held homed).headReady .job = false) ∧
      (bothHeads.arb.hold = false ∧ bothHeads.headReady .console = true ∧ bothHeads.headReady .job = true) ∧
      homed.headReady .console = false ∧ homed.headReady .job = false := by
  decide
/-- The form in TAIL at a distance. -/
def tailAt (d : Int) : State := homed.modifyForm (fun f => { f with paper := .tail d })
theorem test_GrantOrderAndPaperCheck_paper_meets :
    homed.form.paper = .none ∧ (tailAt 120).form.paper = .tail 120 ∧ (Record.line (lineF none)).tailChecked = true ∧
      (120 : Int) - (tailAt 120).forwardTravel (.line (lineF none)) ≤ 72 ∧
      72 < (121 : Int) - (tailAt 121).forwardTravel (.line (lineF none)) ∧ (State.at homed 0).form.paper = .present ∧
      homed.form.tear = .atPrint := by
  decide
theorem test_GrantOrderAndPaperCheck_tail_meets :
    (tailAt 72).judgePaper (.motion (.reverse 1)) = .paperOut ∧ (tailAt 72).judgePaper (.motion .load) = .grant ∧
      (tailAt 72).judgePaper (.motion (.path .sheet)) = .grant := by
  decide
theorem test_GrantOrderAndPaperCheck_tear_meets :
    (State.torn (State.at homed 7) (-9)).form.tear = .atTear ∧ (State.torn (State.at homed 7) (-9)).form.tearDistance = -9 ∧
      0 < (State.torn (State.at homed 7) (-9)).map.len ∧ ((16 : Nat) : Int) = (7 - (-9)) % 3168 ∧ ((3166 : Nat) : Int) = (7 - 9) % 3168 ∧
      (State.torn (State.at homed 7) (-9)).forwardTravel (.motion .formfeed) = 3152 + 9 ∧
      (State.torn (State.at homed 7) 9).forwardTravel (.motion .formfeed) = 2 := by
  decide

/-- A SET FORM payload with a mask. -/
def setFormBytes (mask : Byte) : List Byte := [mask, 144, 0, 0, 0, 0, 0, 0, 0, 0]
theorem test_SetFormAnswered_meets :
    (begun .job).frameOf .job (bytesOf .setForm (setFormBytes 32)) = some ⟨.setForm, 7, setFormBytes 32⟩ ∧
      bitAt (setFormBytes 32) 0 5 = true ∧ bitAt (setFormBytes 1) 0 5 = false ∧
      ((begun .job).modifyMap (fun m => { m with lock := true })).frameOf .job (bytesOf .setForm (setFormBytes 1)) =
        some ⟨.setForm, 7, setFormBytes 1⟩ ∧
      ((begun .job).modifyMap (fun m => { m with lock := true })).map.lock = true ∧ (begun .job).map.lock = false ∧
      (begun .console).frameOf .console (bytesOf .setForm (setFormBytes 33)) = some ⟨.setForm, 7, setFormBytes 33⟩ := by
  decide
/-- From R192: the places of the fields in a SET FORM payload with two stops, and of those in the map that it answers. -/
theorem test_SetFormAnswered_layout_meets :
    (2 : Byte).toNat = [((144 : Byte), (0 : Byte)), (1, 1)].length ∧
      setFormOf ([31, 1, 2, 3, 0, 255, 4, 0, 9, 2] ++ ([((144 : Byte), (0 : Byte)), (1, 1)].map (fun x => [x.1, x.2])).flatten) =
        ⟨some 513, some 3, some (-1), some 4, some [144, 257], false⟩ ∧
      setFormOf (setFormBytes 32) = ⟨none, none, none, none, none, true⟩ ∧
      (⟨3168, some 3456, 36, -5, 100, [720, 1440], true⟩ : FormMap).bytes =
        [96, 12, 1, 128, 13, 36, 0, 251, 100, 0, 2, 208, 2, 160, 5, 1] := by
  decide

/-- The state that a SET FORM leaves. -/
def formSet (r : SetFormFields) : State := (homed.applySetForm r).1
theorem test_SetFormWritesTheMap_meets :
    (∀ r, homed.applySetForm r = (formSet r, (homed.applySetForm r).2)) ∧
      (formSet ⟨some 0, some 9999, some 99, some 9999, some [143, 144, 0, 143], true⟩).map =
        ⟨144, none, 143, 72, 72, [0, 143], true⟩ ∧
      (homed.applySetForm ⟨some 0, some 9999, some 99, some 9999, some [143, 144, 0, 143], true⟩).2 = 2 ∧
      ((homed.modifyMap (fun m => { m with stops := [100, 720, 3000] })).applySetForm
        ⟨some 720, none, none, none, none, false⟩).2 = 2 ∧
      (⟨none, none, none, none, none, false⟩ : SetFormFields).length = none := by
  refine ⟨fun r => rfl, ?_⟩
  decide

theorem test_SetHeadStoresPresentFields_meets :
    (begun .job).frameOf .job (bytesOf .setHead [63, 0, 128, 1, 0, 0, 31]) = some ⟨.setHead, 7, [63, 0, 128, 1, 0, 0, 31]⟩ ∧
      (setHeadOf [63, 0, 128, 1, 0, 0, 31] homed.arb.head).autoTear = 0 ∧
      (begun .job).frameOf .job (bytesOf .setHead [0, 0, 0, 0, 0, 0, 0]) = some ⟨.setHead, 7, [0, 0, 0, 0, 0, 0, 0]⟩ := by
  decide

theorem test_CancelPurgesTheQueue_meets :
    (begun .job).frameOf .job (bytesOf .cancel []) = some ⟨.cancel, 7, []⟩ ∧ (∀ c, (begun .job).line = some c → c.link ≠ .job) ∧
      (∀ q, (begun .job).arb.granted ≠ some ⟨.job, q⟩) := by
  exact ⟨by decide, fun c h => (Option.some_ne_none c h.symm).elim, fun q h => Option.some_ne_none _ h.symm⟩
/-- The line in flight, in its main pass. -/
def striking : State := State.printing (begun .console) .console (.striking (.main .whole))
theorem test_CancelPurgesTheQueue_line_meets :
    striking.frameOf .console (bytesOf .cancel []) = some ⟨.cancel, 7, []⟩ ∧
      striking.line = some (lineC .console (.striking (.main .whole))) ∧
      (∀ q, striking.arb.granted = some ⟨.console, q⟩ → some 0 = some q) := by
  refine ⟨by decide, by decide, ?_⟩
  intro q h
  have h : (some ⟨.console, 0⟩ : Option Granted) = some ⟨.console, q⟩ := h
  injection h with h
  injection h with _ h
  rw [h]
/-- The Console's line in flight at a stage, with a CANCEL to come. -/
def cancelling (g : LineStage) : State := State.printing (begun .console) .console g
theorem test_CancelPurgesTheQueue_stages_meet :
    (∀ g, (cancelling g).line = some (lineC .console g)) ∧
      (cancelling (.planned .repair)).frameOf .console (bytesOf .cancel []) = some ⟨.cancel, 7, []⟩ ∧
      (after (.cancel .console (bytesOf .cancel [])) (cancelling (.planned .repair))).drive.due = some ⟨.line, .trailing 48⟩ ∧
      (after (.cancel .console (bytesOf .cancel [])) (cancelling .returning)).line =
        some { lineC .console .returning with cancelled := true } := by
  refine ⟨fun g => rfl, ?_⟩
  decide +kernel
/-- A line without a feed is cancelled while the engine is HALTED(CARRIAGE): its entry stays GRANTED (R173). -/
def heldBack : State :=
  let s := State.printing (begun .console) .console (.planned (.main .whole))
  { s with
    store := (State.queued s .console [entry 0 .granted (.line { lineF none with trailingFeed := 0 }) 0]).store
    arb := { s.arb with halt := { carriage := true } }
    car := { s.car with state := .unhomed } }
theorem test_cancel_while_halted_holds :
    (after (.cancel .console (bytesOf .cancel [])) heldBack).line.map (·.stage) = some .held ∧
      (after (.cancel .console (bytesOf .cancel [])) heldBack).arb.granted = some ⟨.console, 0⟩ := by
  decide +kernel

/-- The line in flight with a net substitution offset. -/
def offsetBy (n : Int) : State := striking.modifyLine (fun c => { c with netOffset := n })
theorem test_DroppedPhasesLeaveTheFeed_meets :
    (∀ n, (offsetBy n).line = some { lineC .console (.striking (.main .whole)) with netOffset := n }) ∧
      (∀ n, ((offsetBy n).store.get .console).queue = [entry 0 .granted (.line (lineF none)) 0]) ∧
      ((lineC .console .feeding).unstruck.map (·.1)).Nodup ∧ (∀ x ∈ (lineC .console .feeding).unstruck, x.2 ≠ 0) ∧
      (47 : Int) < (lineF none).trailingFeed ∧ ((lineF none).trailingFeed : Int) < 49 ∧ ((lineF none).trailingFeed : Int) = 48 := by
  exact ⟨fun n => rfl, fun n => rfl, by decide, by decide, by decide, by decide, by decide⟩
theorem test_DroppedPhasesLeaveTheFeed_halt_meets :
    (offsetBy 48).arb.halt = ⟨false, false, false, false⟩ ∧
      ((offsetBy 48).modifyHalt (fun h => { h with carriage := true })).arb.halt ≠ ⟨false, false, false, false⟩ := by
  decide
/-- The line in flight with its context changed. -/
def inLine (f : LineContext → LineContext) : State := striking.modifyLine f
theorem test_DroppedPhasesLeaveTheFeed_next_meets :
    (∀ f, (inLine f).line = some (f (lineC .console (.striking (.main .whole))))) ∧
      (lineC .console .feeding).cancelled = false ∧ (lineC .console .feeding).oddPlanned = false ∧
      (lineC .console .feeding).repairs = [] ∧ (lineC .console .feeding).upGroup = [] ∧ (lineC .console .feeding).downGroup = [] ∧
      ((inLine (fun c => { c with oddPlanned := true })).afterPass (.main .even)).line.map (·.stage) =
        some (.planned (.main .odd)) ∧
      ((inLine (fun c => { c with repairs := [(100, 16)] })).afterPass (.main .whole)).line.map (·.stage) =
        some (.planDue .repair) ∧
      ((inLine (fun c => { c with downGroup := [(100, 16)] })).afterPass (.up .whole)).drive.due = some ⟨.line, .subReverse 2⟩ := by
  refine ⟨fun f => rfl, ?_⟩
  decide
/-- Pins 4 and 5 of the line have FAILED. -/
def failing (sub : Bool) : State :=
  ((striking.setPinRecord 4 ⟨.failed, 3, .none, none⟩).setPinRecord 5 ⟨.failed, 3, .none, none⟩).modifyArb (fun a =>
    { a with head := { a.head with substitution := sub } })
theorem test_DroppedPhasesLeaveTheFeed_substitutes_meet :
    (failing true).arb.head.substitution = true ∧ (failing true).form.path = .tractor ∧
      (failing false).arb.head.substitution = false ∧ (failing true).failedPins = 48 ∧ upRows 48 = 16 ∧ downRows 48 = 32 ∧
      (failing true).assignSubstitutes.line.map (fun c => (c.upGroup, c.downGroup, c.stage)) =
        some ([(100, 16)], [(100, 32)], .subMove .up) := by
  decide
/-- From R53 and R55: every candidate's pin is FAILED, so the assignment is made at the end of the main pass, at LIMIT too. -/
theorem test_DroppedPhasesLeaveTheFeed_no_repair_meet :
    dotsInRows (~~~(failing true).failedPins) (dotsInter [(100, 48)] (lineC .console .feeding).unstruck) = [] ∧
      dotsInRows (~~~striking.failedPins) (dotsInter [(100, 16)] (lineC .console .feeding).unstruck) ≠ [] ∧
      ((((failing true).modifyLine (fun c => { c with repairs := [(100, 48)] })).modifyHeat (fun h =>
        { h with thermal := .limit })).afterPass (.main .whole)).line.map (·.stage) = some (.subMove .up) := by
  decide
theorem test_DroppedPhasesLeaveTheFeed_moves_meet :
    ∀ g, (cancelling g).line = some (lineC .console g) ∧ (lineC .console g).stage = g := fun _ => ⟨rfl, rfl⟩

/-- The Console asks, with a halt set and a carriage state. -/
def halted (h : HaltSet) (c : CarState) : State :=
  { begun .console with
    arb := { (begun .console).arb with halt := h }
    car := { (begun .console).car with state := c } }
/-- A Console FEED has jammed. -/
def jammed : State :=
  { halted { jam := true } .stopped with
    store := (State.queued homed .console [entry 0 .granted (.motion (.feed 9)) 0]).store
    arb := { homed.arb with halt := { jam := true }, granted := some ⟨.console, 0⟩ }
    drive := { homed.drive with run := some ⟨.console, 0, .feed 9, 9, 4, 0, 5, true⟩ } }
theorem test_ClearLeavesTheHalts_meets :
    (begun .job).frameOf .job (bytesOf .clear []) = some ⟨.clear, 7, []⟩ ∧
      (halted { paperOut := true, noPaper := true } .stopped).frameOf .console (bytesOf .clear []) = some ⟨.clear, 7, []⟩ ∧
      (halted { paperOut := true } .stopped).arb.halt.jam = false ∧
      (halted { paperOut := true } .stopped).arb.halt.carriage = false ∧
      (halted { carriage := true } .unhomed).frameOf .console (bytesOf .clear []) = some ⟨.clear, 7, []⟩ ∧
      (halted { carriage := true } .unhomed).arb.halt = { carriage := true } ∧
      (halted { carriage := true } .unhomed).car.state = .unhomed ∧
      jammed.frameOf .console (bytesOf .clear []) = some ⟨.clear, 7, []⟩ ∧ jammed.arb.halt = { jam := true } ∧
      jammed.drive.run = some ⟨.console, 0, .feed 9, 9, 4, 0, 5, true⟩ := by
  decide
/-- The move of a Console line has jammed, alone or with a carriage fault. -/
def lineJam (carriage : Bool) : State :=
  { cancelling .jammed with
    arb := { (cancelling .jammed).arb with halt := { jam := true, carriage := carriage } }
    car := { (cancelling .jammed).car with state := if carriage then .unhomed else .stopped } }
theorem test_ClearLeavesTheHalts_line_meets :
    (lineJam true).frameOf .console (bytesOf .clear []) = some ⟨.clear, 7, []⟩ ∧ (lineJam true).arb.halt.jam = true ∧
      (lineJam true).arb.halt.carriage = true ∧ (lineJam true).car.state = .unhomed ∧ (lineJam false).arb.halt.carriage = false ∧
      (lineJam false).drive.run = none ∧ (lineJam false).line = some (lineC .console .jammed) ∧
      (lineJam false).headEntry .console = some (entry 0 .granted (.line (lineF none)) 0) ∧
      (lineC .console .jammed).stage ≠ .held ∧
      (after (.clear .console (bytesOf .clear [])) (lineJam false)).port.console.notices = [.lineDone .console 0 {}] ∧
      (after (.clear .console (bytesOf .clear [])) (lineJam true)).car.state = .homing .rest := by
  decide +kernel
theorem test_ClearLeavesTheHalts_auto_meets :
    (halted { jam := true } .stopped).arb.halt.jam = true ∧ (halted { jam := true } .stopped).drive.run = none ∧
      (halted { jam := true } .stopped).line = none := by
  decide
/-- A line that a carriage halt holds. -/
def lineHeld : State :=
  { cancelling .held with
    arb := { (cancelling .held).arb with halt := { carriage := true } }
    car := { (cancelling .held).car with state := .unhomed } }
theorem test_ClearLeavesTheHalts_held_meets :
    lineHeld.frameOf .console (bytesOf .clear []) = some ⟨.clear, 7, []⟩ ∧ lineHeld.line = some (lineC .console .held) ∧
      lineHeld.arb.halt = ⟨false, false, false, true⟩ ∧ lineHeld.car.state = .unhomed ∧
      (after (.clear .console (bytesOf .clear [])) lineHeld).arb.granted = none := by
  decide +kernel

theorem test_EngineResetStopsTheWork_meets :
    (begun .job).frameOf .job (bytesOf .engineReset []) = some ⟨.engineReset, 7, []⟩ ∧
      (begun .console).frameOf .console (bytesOf .engineReset []) = some ⟨.engineReset, 7, []⟩ ∧
      (begun .console).drive.move = none ∧ (begun .console).sequ.walking = false ∧ (∀ a, (begun .console).form.paper ≠ .loading a) ∧
      ((begun .console).modifySequ (fun q => { q with walking := true })).sequ.walking = true ∧
      ((begun .console).modifyForm (fun f => { f with paper := .loading true })).form.paper = .loading true := by
  decide

/-- From 9.8: a tear advance 150 steps on, in a forward attempt with 37 pulses. -/
def advancing : State :=
  { (begun .console).modifyForm (fun f => { f with
      paper := .present, tear := .atTear, offset := 150, tearDistance := 150, odometer := 150, forwardMark := 150 }) with
    drive := { homed.drive with
      state := .stepping, move := some ⟨.auto, .tearAdvance, .forward, 262, false, 150, 0, 150, 37, 0⟩ } }
theorem test_EngineResetStopsTheWork_move_meets :
    advancing.frameOf .console (bytesOf .engineReset []) = some ⟨.engineReset, 7, []⟩ ∧
      advancing.drive.move = some ⟨.auto, .tearAdvance, .forward, 262, false, 150, 0, 150, 37, 0⟩ ∧
      advancing.drive.state = .stepping ∧
      (after (.engineReset .console (bytesOf .engineReset [])) advancing).form = { advancing.form with
        offset := 148, tearDistance := 148, odometer := 148, forwardMark := 148, trusted := true } := by
  decide +kernel

theorem test_LinkResetClearsTheLink_meets :
    (begun .job).frameOf .job (bytesOf .linkReset []) = some ⟨.linkReset, 7, []⟩ ∧
      (begun .console).frameOf .console (bytesOf .linkReset []) = some ⟨.linkReset, 7, []⟩ := by
  decide

theorem test_TallyRequestsWriteTheUnit_meets :
    (begun .job).frameOf .job (bytesOf .tallySet [2, 3, 4, 5]) = some ⟨.tallySet, 7, [2, 3, 4, 5]⟩ ∧
      ((begun .job).tallyUnit 1).mode = .off ∧ (latched.tallyUnit 0).mode ≠ .off ∧
      latched.frameOf .job (bytesOf .tallySet [0, 0, 4, 5]) = some ⟨.tallySet, 7, [0, 0, 4, 5]⟩ ∧
      (begun .job).frameOf .job (bytesOf .tallyArm [0]) = some ⟨.tallyArm, 7, [0]⟩ ∧
      (begun .job).frameOf .job (bytesOf .tallyMask [1, 0]) = some ⟨.tallyMask, 7, [1, 0]⟩ ∧
      (begun .job).frameOf .job (bytesOf .tallyMask [1, 255]) = some ⟨.tallyMask, 7, [1, 255]⟩ ∧
      (begun .job).frameOf .job (bytesOf .tallyClear [1]) = some ⟨.tallyClear, 7, [1]⟩ := by
  decide
/-- A line HELD for input 0 on each link, the Console's accepted first. -/
def twoHeld : State :=
  State.queued (State.queued latched .job [entry 0 .held (.line { lineF (some 0) with chain := [] }) 4]) .console
    [entry 0 .held (.line (lineF (some 0))) 3]
theorem test_TallyRequestsWriteTheUnit_latch_meets :
    (twoHeld.tallyUnit 0).unmasked = true ∧ (twoHeld.tallyUnit 0).mode ≠ .off ∧ (twoHeld.tallyUnit 0).latch = true ∧
      (twoHeld.oldestHeld 0).isSome ∧ latched.oldestHeld 0 = none := by
  decide

theorem test_ReleaseTakesTheOldestHeld_meets :
    twoHeld.StoreSound ∧ entry 0 .held (.line (lineF (some 0))) 3 ∈ (twoHeld.store.get .console).queue ∧
      (entry 0 .held (.line (lineF (some 0))) 3).heldFor 0 = true ∧
      (∀ k, ∀ d ∈ (twoHeld.store.get k).queue, d.heldFor 0 = true → 3 ≤ d.stamp) ∧
      (∀ l, ∀ e ∈ (twoHeld.store.get l).queue, e.heldFor 1 = false) where
  left :=
    { distinct := by decide
      range := by decide
      charge := by intro l; cases l <;> decide
      blocks := by decide
      descs := by decide
      order := by intro l; cases l <;> decide
      stamps := by intro l; cases l <;> decide
      apart := by decide }
  right := ⟨by decide, by decide, by intro k; cases k <;> decide, by intro k; cases k <;> decide⟩

/-! ### The carriage -/

/-- The part with the carriage in a state at a count. -/
def carAt (c : CarState) (x : Int) : State := { homed with car := { homed.car with state := c, counter := x } }

theorem test_CountChangeCounts_meets :
    (-32768 ≤ ((carAt .fault 32766).counted .chanA 1).car.counter ∧ ((carAt .fault 32766).counted .chanA 1).car.counter ≤ 32767) ∧
      (carAt .fault 32766).car.state = .fault ∧ (carAt .unhomed (-32767)).car.state = .unhomed ∧
      ((carAt .unhomed (-32767)).counted .chanB 200000).car.counter = -32768 ∧
      ((carAt (.homing (.clear (some 5))) 147).counted .chanA 9).car.counter < 5 + 144 ∧
      (∀ low, (carAt .stopped 0).car.state ≠ .homing (.clear (some low))) := by
  refine ⟨by decide, by decide, by decide, by decide, by decide, ?_⟩
  intro low h
  exact CarState.noConfusion h

theorem test_CarriageFaultStopsThePass_meets :
    (carAt .stopped 0).car.state.trusted = true ∧ (carAt .cruise 5012).car.state.trusted = true ∧
      (carAt .cruise 5012).car.state ≠ .stopped ∧ ((carAt .stopped 0).counted .chanB 9).car.counter = -1 ∧
      travelMost .wide < ((carAt .cruise (travelMost .wide)).counted .chanA 9).car.counter ∧
      ((carAt .cruise (travelMost .wide)).counted .chanA 9).car.counter ≤ 32767 ∧
      (State.printing (carAt .cruise 5012) .job (.striking (.main .whole))).line.isSome := by
  decide

theorem test_HomingFailureHalts_meets :
    (carAt (.homing .rest) 0).car.state = .homing .rest ∧ (carAt (.homing .seek) (-10599)).car.state = .homing .seek ∧
      ((carAt (.homing .seek) (-10599)).counted .chanB 9).car.counter ≤ -10600 ∧
      ((carAt (.homing .settle) (-144)).counted .chanB 9).car.counter < -144 ∧ HomingStep.seek ≠ .rest := by
  decide

theorem test_HomingRunsItsSteps_meets :
    (carAt .fault 5014).car.state = .fault ∧ (carAt .fault 5014).drive.state = .stopped ∧
      (carAt (.homing .rest) 0).car.indexHigh = false ∧
      ({ carAt (.homing .rest) 0 with car := { (carAt (.homing .rest) 0).car with indexHigh := true } } : State).car.indexHigh = true ∧
      (after .homingRestEnd State.reset).car.indexArmed = true ∧ (after .homingRestEnd State.reset).car.indexHigh = false ∧
      (homed.car.indexHigh = true ∨ homed.car.indexArmed = false) ∧ homed.car.state ≠ .homing (.clear none) ∧
      (carAt (.homing (.clear none)) 0).car.state = .homing (.clear none) ∧
      (5 : Int) + 144 ≤ ((carAt (.homing (.clear (some 5))) 148).counted .chanA 9).car.counter ∧
      (carAt (.homing .settle) (-1)).countsUp .chanA = true ∧ (carAt (.homing .settle) (-1)).car.counter = -1 := by
  decide

/-- The part with the carriage at a count of a rightward pass at NORMAL, or of the positioning move before it. -/
def driven (c : CarState) (x : Int) (g : Leg) : State :=
  { carAt c x with car := { (carAt c x).car with motion := some ⟨g, .right, .normal, 900, 1600, 1116, 1384⟩ } }
theorem test_PassFollowsZonesAndWindow_pass_meets :
    ((driven .rampUp 1103 .pass).counted .chanA 925).car.counter = 1116 - 12 * 1 ∧
      ((driven .cruise 1396 .pass).counted .chanA 925).car.counter = 1384 + 13 * 1 ∧
      ((driven .rampDown 1599 .pass).counted .chanA 925).car.counter = 1600 ∧
      ((driven .cruise 1395 .pass).counted .chanA 925).car.counter = 1396 ∧ (1600 : Int) ≤ travelMost .wide ∧
      (driven .cruise 1395 .pass).car.motion = some ⟨.pass, .right, .normal, 900, 1600, 1116, 1384⟩ := by
  decide
theorem test_PassFollowsZonesAndWindow_positioning_meets :
    (driven .rampDown 899 (.positioning 300)).car.state.trusted = true ∧
      ((driven .rampDown 899 (.positioning 300)).counted .chanA 925).car.counter = 900 ∧
      ((driven .cruise 683 (.positioning 300)).counted .chanA 925).car.counter = 300 + 384 ∧
      ((driven .rampUp 515 (.positioning 300)).counted .chanA 925).car.counter = 300 + 216 ∧ SpeedClass.normal.ramp = 216 ∧
      600 - min 216 (600 - 600 / 2) = 384 ∧ min 216 (600 / 2) = 216 := by
  decide
theorem test_PassFollowsZonesAndWindow_drift_meets :
    ((driven .rampUp 299 (.positioning 300)).counted .chanB 925).car.counter = 298 ∧
      (after (.countChange .chanB 925) (driven .rampUp 299 (.positioning 300))).car.state = .rampUp ∧
      (after (.countChange .chanA 925) (driven .rampUp 83 (.positioning 300))).car.state = .rampUp ∧
      (after .openPeriodSuspension (driven .cruise 1200 .pass)).car.suspended = true := by
  decide

theorem test_PassFollowsZonesAndWindow_stays_meet :
    ((driven .rampUp 1102 .pass).counted .chanA 925).car.counter = 1103 ∧
      (after (.countChange .chanA 925) (driven .rampUp 1102 .pass)).car.state = .rampUp ∧
      (after (.countChange .chanA 925) (driven .rampDown 1598 .pass)).car.state = .rampDown ∧
      ((driven .rampUp 1105 .pass).counted .chanB 925).car.counter = 1104 ∧
      (after (.countChange .chanB 925) (driven .rampUp 1105 .pass)).car.state = .rampUp ∧
      (after (.countChange .chanB 925) (driven .rampDown 1601 .pass)).car.state = .rampDown ∧
      (driven .rampUp 1105 .pass).sequ.dir = .right := by
  decide

/-! ### Planning and striking -/

/-- The line in flight with a strike list. -/
def listed (g : LineStage) (x : StrikeList) : State := (State.printing homed .job g).setList 0 x

theorem test_PlanCompletesAndDwells_meets :
    (listed (.planned (.main .whole)) (.building plan)).lists[0] = .building plan ∧
      (∀ x, (listed (.planned (.main .whole)) (.building plan)).lists[1] ≠ .building x) ∧
      (listed (.planned (.main .whole)) (.building plan)).dwell ≠ .waiting ∧
      (∀ x, (listed (.planned (.main .whole)) (.building plan)).lists[1] ≠ .striking x) ∧
      (((listed (.planned (.main .whole)) (.building plan)).setList 1 (.striking plan)).lists[1] = .striking plan) ∧
      ({ homed with dwell := .running 0 } : State).dwell = .running 0 := by
  refine ⟨rfl, fun x h => StrikeList.noConfusion h, by decide, fun x h => StrikeList.noConfusion h, rfl, rfl⟩
theorem test_PlanCompletesAndDwells_position_meets :
    (carAt .stopped 300).planPosition = 300 ∧ (carAt .fault 300).planPosition = 0 ∧ (carAt .unhomed 300).planPosition = 0 ∧
      (carAt (.homing .seek) 300).car.state ≠ .stopped := by
  decide
theorem test_PlanCompletesAndDwells_plan_meets :
    (planning (.main .whole) id).line = some (lineC .job (.planDue (.main .whole))) ∧
      (planning (.main .whole) id).lineFields = some (lineF none) ∧ (planning (.main .whole) id).heat.supply = some 240 ∧
      (planning (.main .whole) id).lists[0] = .free ∧
      ((planning (.main .whole) id).planPass (.main .whole) 0).2 = some (.main .whole) ∧
      ((planning (.main .whole) (fun c => { c with unstruck := [] })).planPass (.main .whole) 0).2 = none ∧
      ((planning (.up .whole) (fun c => { c with upGroup := [(100, 48)] })).planPass (.up .whole) 0).2 = some (.up .whole) ∧
      ((planning .repair (fun c => { c with repairs := [(100, 16)], lastMainDir := some .left })).planPass .repair 0).2 =
        some .repair := by
  decide +kernel

/-- The plan is READY for its carriage start. -/
def ready : State := listed (.planned (.main .whole)) (.ready plan)
/-- From R44, R46, R51 and R87: which dots masks, items and halves stand for. -/
theorem test_dots_of_entries_and_items :
    dotsAt (entryDots (.up .whole) (·.rowMask) plan.entries) 100 = 96 ∧
      dotsAt (entryDots (.main .whole) (·.rowMask) plan.entries) 100 = 48 ∧
      repairDots [⟨7, 5, 4⟩, ⟨3, 0, 0⟩, ⟨7, 4, 4⟩] = [(3, 1), (7, 48)] ∧
      protoDots .repair (protosOf (lineF none) .repair [(100, 48)]) = [(100, 48)] ∧
      dotsOfHalf .odd [(2, 1), (3, 2)] = [(3, 2)] ∧ dotsUnion [(2, 1), (3, 2)] [(3, 4), (5, 1)] = [(2, 1), (3, 6), (5, 1)] ∧
      dotsInRows 2 [(2, 1), (3, 3)] = [(3, 2)] ∧ dotsCount [(2, 1), (3, 3)] = 3 ∧
      ({ homed with dwell := .waiting, lists := homed.lists.set 1 (.ready plan) } : State).beginDwell.dwell = .running 500000 := by
  decide +kernel

theorem test_CarriageStartTakesThePlan_meets :
    ready.line = some (lineC .job (.planned (.main .whole))) ∧ ready.lists[0] = .ready plan ∧
      (∀ x, ready.lists[1] ≠ .ready x ∧ ready.lists[1] ≠ .striking x) ∧ ready.dwell = .none ∧ ready.drive.state = .stopped ∧
      ready.car.state = .stopped ∧ ready.heat.thermal ≠ .limit ∧ ready.heat.lowSupply = false ∧ ready.car.counter ≠ plan.startPoint ∧
      ({ ready with car := { ready.car with counter := plan.startPoint } } : State).car.counter = plan.startPoint ∧
      plan.pass ≠ .repair ∧ (ready.modifyHeat (fun h => { h with thermal := .limit })).heat.thermal = .limit := by
  refine ⟨rfl, rfl, fun x => ⟨fun h => StrikeList.noConfusion h, fun h => StrikeList.noConfusion h⟩, ?_⟩
  decide +kernel
theorem test_CarriageStartTakesThePlan_one_count_meets :
    (plan.startPoint - ({ ready with car := { ready.car with counter := plan.startPoint - 1 } } : State).car.counter).natAbs = 1 ∧
      (after .carriageStart { ready with car := { ready.car with counter := plan.startPoint - 1 } }).car.state = .rampDown ∧
      (after .carriageStart { ready with car := { ready.car with counter := plan.startPoint } }).sequ.walking = true := by
  decide +kernel
/-- The plan of an even half, and of a repair pass, READY for its carriage start. -/
def readyAs (p : PassId) : State := listed (.planned p) (.ready { plan with pass := p })
theorem test_CarriageStartTakesThePlan_halves_meet :
    (readyAs (.main .even)).line = some (lineC .job (.planned (.main .even))) ∧
      (readyAs .repair).lists[0] = .ready { plan with pass := .repair } ∧
      ((readyAs .repair).store.get .job).queue = [entry 0 .granted (.line (lineF none)) 0] ∧
      (after .carriageStart ((readyAs (.main .even)).modifyHeat (fun h => { h with supply := some 240 }))).line.map (·.oddPlanned) =
        some false := by
  decide +kernel

theorem test_FlightTimeAndLead_meets :
    1 ≤ 6 ∧ plan = makePlan inputs (lineF none) (.main .whole) none (protosOf (lineF none) (.main .whole) [(100, 48)]) ∧
      plan.entries.length = 2 := by
  decide +kernel

theorem test_PassClassIsLegal_meets :
    (∀ p : Pin, (columnsOfPin (protosOf (lineF none) (.main .whole) [(0, 1), (2, 1), (100, 48)]) p).Pairwise (· < ·)) ∧
      columnsOfPin (protosOf (lineF none) (.main .whole) [(0, 1), (2, 1), (100, 48)]) 0 = [0, 2] ∧ 1 ≤ inputs.gap ∧ inputs.gap ≤ 6 := by
  decide +kernel

/-- From R17: the least and the greatest trigger count, and from R49 a pass at both ends of the window, at CREEP. -/
theorem test_PassClassIsLegal_window_meets :
    triggerOf .right (targetOf .right 144 (leadOf .draft 6) 0) = 136 ∧
      triggerOf .left (targetOf .left 9719 (leadOf .draft 6) 7) = 9734 ∧
      (∀ y ∈ [(⟨0, .colB, 2, 144⟩ : Proto), ⟨4751, .colA, 1, 9719⟩], 216 ≤ y.base + (if y.col = .colA then 0 else 72) ∧
        y.base + (if y.col = .colA then 0 else 72) ≤ 9719) ∧
      rampClass inputs .right [⟨0, .colB, 2, 144⟩, ⟨4751, .colA, 1, 9719⟩] .draft = .creep := by
  decide +kernel

theorem test_StrikeListIsInTravelOrder_meets :
    plan.dir = .right ∧
      (makePlan inputs (lineF none) .repair (some .left) (protosOf (lineF none) .repair [(100, 48)])).dir = .left := by
  decide +kernel
/-- From R44 and R51: rows 4 and 5 of column 100 in a main pass, and rows 5 and 6 struck by the pins below them. -/
theorem test_StrikeListIsInTravelOrder_protos_meet :
    ([(100, 48#18)].map (·.1)).Pairwise (· < ·) ∧
      protosOf (lineF none) (.main .whole) [(100, 48)] = [⟨100, .colA, 16, 860⟩, ⟨100, .colB, 32, 788⟩] ∧
      protosOf (lineF none) (.up .whole) [(100, 96)] = [⟨100, .colA, 16, 860⟩, ⟨100, .colB, 32, 788⟩] ∧
      plan.entries.head?.map (·.trigger) = some plan.firstTrigger ∧ plan.entries.getLast?.map (·.trigger) = some plan.lastTrigger ∧
      plan.startPoint + plan.cls.ramp = plan.firstTrigger ∧
      (pointsOf .left .creep 3 (-2) (protosOf (lineF none) (.main .whole) [(100, 48)])).2 - 72 = 860 := by
  decide +kernel
theorem test_StrikeListIsInTravelOrder_auto_meets :
    (lineF none).unidirAlign = false ∧ inputs.uni = false ∧ (lineF none).dirRequest = .auto ∧
      protosOf (lineF none) (.main .whole) [(100, 48)] ≠ [] ∧
      spacingClass inputs (lineF none) (protosOf (lineF none) (.main .whole) [(100, 48)]) = plan.cls ∧
      (makePlan { inputs with position := 9000 } (lineF none) (.main .whole) none
        (protosOf (lineF none) (.main .whole) [(100, 48)])).dir = .left := by
  decide +kernel
theorem test_FirePointArithmetic_meets :
    1 ≤ 6 ∧ clippedAt .wide 215 = true ∧ clippedAt .wide 216 = false ∧ clippedAt .wide 9719 = false ∧ clippedAt .wide 9720 = true ∧
      clippedAt .narrow 5976 = true ∧ driveTimeOf 6 190 = 277 ∧ driveTimeOf 6 0 = 277 ∧ driveTimeOf 1 400 = 96 ∧
      clippedCount .wide { lineF none with origin := 9600 } = 2 := by
  decide

/-- The carriage in CRUISE over the list, with the column A timer at its end. -/
def firing : State :=
  { listed (.striking (.main .whole)) (.striking plan) with
    car := (driven .cruise 1200 .pass).car
    sequ := ⟨true, 0, .right, 14, 160, 2, .running 0 1, .idle, [], false⟩ }
theorem test_DelayTimerFiresTheEntry_meets :
    firing.sequ.timer .colA = .running 0 1 ∧ firing.lists[0] = .striking plan ∧ (plan.entries[1]?).isSome ∧
      firing.sequ.repairs.length ≤ 5120 ∧ firing.car.enable = true ∧ (after (.delayTimerExpiry .colA) firing).channel 4 = .drive 1600 false := by
  decide +kernel
/-- A granted line at a stage over a list, with the carriage as it is in a pass, is sound in its grants. -/
theorem listed_grantSound (g : LineStage) (x : StrikeList) (c : Carriage) :
    ({ listed g x with car := c } : State).GrantSound where
  only := by
    intro l i e h hg
    cases l
    · match i, h with
      | 0, h => exact ⟨rfl, by have h : some (entry 0 .granted (.line (lineF none)) 0) = some e := h
                               injection h with h; subst h; rfl⟩
      | n + 1, h => exact (Option.some_ne_none e h.symm).elim
    · exact (Option.some_ne_none e h.symm).elim
  head := by
    intro g h
    have h : some ⟨.job, 0⟩ = some g := h
    injection h with h; subst h
    exact ⟨entry 0 .granted (.line (lineF none)) 0, rfl, rfl, rfl⟩
  line := by
    intro c h
    have h : some (lineC .job g) = some c := h
    injection h with h; subst h
    exact ⟨⟨0, rfl⟩, rfl, rfl⟩
  run := by intro r h; exact (Option.some_ne_none r h.symm).elim
  test := by intro c h; exact (Option.some_ne_none c h.symm).elim
  rights := by
    intro e h p hp
    have h : e ∈ [entry 0 .granted (.line (lineF none)) 0] := h
    rw [List.mem_singleton] at h
    subst h
    exact Record.noConfusion hp
/-- A pass in CRUISE over its list. -/
def passing : State := { listed (.striking (.main .whole)) (.striking plan) with car := (driven .cruise 1200 .pass).car }
theorem test_CarriageFaultStopsThePass_line_meets :
    passing.GrantSound ∧ passing.car.state.trusted = true ∧ passing.line = some (lineC .job (.striking (.main .whole))) ∧
      passing.car.motion.isSome = true ∧ passing.strikingPlan = some plan ∧
      passing.headEntry .job = some (entry 0 .granted (.line (lineF none)) 0) ∧
      ((after .stall passing).headEntry .job).map (·.result.imperfect) = some true := by
  refine ⟨listed_grantSound _ _ _, ?_⟩
  decide +kernel
/-- The pass at its last count, with both delay timers running for its two entries. -/
def ending (p : PassId) : State :=
  { listed (.striking p) (.striking { plan with pass := p }) with
    car := (driven .rampDown 1599 .pass).car
    sequ := ⟨true, 0, .right, 14, 160, 2, .running 9 1, .running 9 0, [], false⟩ }
theorem test_PassFollowsZonesAndWindow_end_meets :
    (ending (.main .whole)).lists[(ending (.main .whole)).sequ.list.val] = .striking plan ∧
      (∀ e, plan.entries[(ending (.main .whole)).sequ.head]? = some e → e.trigger ≠ 1600) ∧
      (ending (.main .whole)).sequ.repairs.length ≤ 5120 ∧
      (∀ x, (ending (.main .whole)).lists[1] ≠ .striking x) ∧
      (∀ p, (ending p).line = some (lineC .job (.striking p))) ∧
      ((ending (.main .whole)).store.get .job).queue = [entry 0 .granted (.line (lineF none)) 0] ∧
      (ending (.main .whole)).walkEnd.sequ.repairs = [⟨100, 4, 4⟩, ⟨100, 5, 5⟩] ∧
      (after (.countChange .chanA 900) (ending (.main .whole))).line.map (·.repairs) = some [(100, 48)] ∧
      (after (.countChange .chanA 900) (ending (.main .whole))).sequ.repairs = [] := by
  refine ⟨by decide, ?_, by decide, fun x h => StrikeList.noConfusion h, fun p => rfl, by decide, ?_⟩
  · intro e h
    have : plan.entries[2]? = none := by decide +kernel
    exact (Option.some_ne_none e (h.symm.trans this)).elim
  · decide +kernel
theorem test_PassFollowsZonesAndWindow_misses_meet :
    (ending (.main .whole)).sequ.overflow = false ∧
      ((ending (.main .whole)).modifySequ (fun q => { q with overflow := true })).sequ.overflow = true ∧
      (after (.countChange .chanA 900) (ending .repair)).line.map (·.unstruck) = some [] ∧
      (after (.countChange .chanA 900) (ending (.up .whole))).line.map (·.unstruck) = some [(100, 16)] := by
  decide +kernel

/-- The Sequencer with its first entry not yet reached, one count before its trigger count 782, and the column B timer. -/
def reaching (b : DelayTimer) : State :=
  { listed (.striking (.main .whole)) (.striking plan) with
    car := { (driven .cruise 781 .pass).car with periodTimer := 900 }
    sequ := ⟨true, 0, .right, 14, 160, 0, .idle, b, [], false⟩ }
/-- Both entries have the same trigger count. -/
def reachingTwo : State := (reaching .idle).setList 0 (.striking { plan with
  entries := plan.entries.map (fun e => { e with trigger := 782 }) })
theorem test_CountReachesTheHeadEntry_meets :
    ((reaching .idle).counted .chanA 25).car.counter = 782 ∧ ((reaching .idle).counted .chanA 25).car.period = 925 ∧
      ((reaching .idle).counted .chanB 25).car.counter = 780 ∧ insideWindow .normal 925 = true ∧
      plan.entries.map (fun e => (e.trigger, e.col)) = [(782, .colB), (854, .colA)] ∧ 14 * 925 / 16 = 809 ∧
      (after (.countChange .chanA 25) (reaching .idle)).sequ.timerB = .running 809 0 ∧
      (after (.countChange .chanA 25) (reaching (.running 40 0))).sequ.repairs = [⟨100, 5, 5⟩] := by
  decide +kernel
theorem test_CountReachesTheHeadEntry_passed_meets :
    insideWindow .normal ((reaching .idle).counted .chanA 600).car.period = false ∧
      (after (.countChange .chanA 600) (reaching .idle)).sequ.repairs = [⟨100, 5, 5⟩] ∧
      (after (.countChange .chanA 25) reachingTwo).sequ.head = 2 := by
  decide +kernel

/-- Both entries fire at their arming: the fraction of the pass is 0, and their masks are those of two pin columns. -/
def reachingNow : State := reachingTwo.modifySequ (fun q => { q with fraction := 0 })
theorem test_CountReachesTheHeadEntry_two_meet :
    plan.entries.map (fun e => (e.col, e.rowMask)) = [(.colB, 32), (.colA, 16)] ∧ 32#18 &&& 16#18 = 0 ∧
      PinColumn.colB ≠ .colA ∧ 0 * 925 / 16 = 0 ∧
      (after (.countChange .chanA 25) reachingTwo).sequ.timerA = .running 809 1 ∧
      (after (.countChange .chanA 25) reachingTwo).sequ.timerB = .running 809 0 ∧
      (after (.countChange .chanA 600) reachingTwo).sequ.repairs = [⟨100, 5, 5⟩, ⟨100, 4, 4⟩] := by
  decide +kernel
theorem test_CountReachesTheHeadEntry_fired_meets :
    reachingNow.lists[0] = reachingTwo.lists[0] ∧
      (after (.countChange .chanA 25) reachingNow).channel 4 = .drive 1600 false ∧
      (after (.countChange .chanA 25) reachingNow).channel 5 = .drive 1600 false ∧
      (after (.countChange .chanA 25) reachingNow).heatOf 5 = 160 ∧
      (after (.countChange .chanA 25) reachingNow).walkedPlan.map (fun q => q.entries.map (·.struckMask)) = some [32, 16] ∧
      (after (.countChange .chanA 25) (reachingNow.setChannel 5 (.recovery 900))).sequ.repairs = [⟨100, 5, 5⟩] := by
  decide +kernel

theorem test_StrikesStartFromReady_meets :
    exec (.delayTimerExpiry .colA) firing = .next (after (.delayTimerExpiry .colA) firing) ∧
      (after (.delayTimerExpiry .colA) firing).channel 4 = .drive 1600 false := by
  refine ⟨rfl, ?_⟩
  decide +kernel

/-- A pin in a phase, with a fault count. -/
def pulsing (c : Channel) (n : Nat) : State :=
  (homed.setChannel 5 c).setPinRecord 5 ⟨if n = 0 then .good else .suspect, n, .none, none⟩
theorem test_PinPulseIsJudged_meets :
    (pulsing (.drive 0 false) 1).channel 5 = .drive 0 false ∧ ((pulsing (.drive 0 false) 1).pinRecord 5).faults < 2 ∧
      ((pulsing (.drive 0 false) 2).pinRecord 5).faults = 2 ∧ 1199 < 1200 ∧ (pulsing (.hold 0) 0).channel 5 = .hold 0 ∧
      (pulsing (.recovery 0) 0).channel 5 = .recovery 0 ∧ (pulsing (.recovery 0) 0).test = none := by
  decide

/-- A coil test of pins, the first of them in a step. -/
def testing (rest : List Pin) (g : TestStep) (c : Channel) : State :=
  { State.owed (State.queued homed .console [entry 0 .granted (.motion (.coilTest none)) 0]) .console 0 with
    test := some ⟨0, rest, some 5, g, 240⟩, channels := homed.channels.set 5 c }
theorem test_CoilTestPulseDecides_meets :
    (testing [6] (.pulse 29) (.drive 9 true)).test = some ⟨0, [6], some 5, .pulse 29, 240⟩ ∧
      (testing [] (.pulse 599) (.drive 1 true)).test = some ⟨0, [], some 5, .pulse 599, 240⟩ ∧
      ((testing [] .waiting .ready).modifyHeat (fun h => { h with supply := some 240 })).channel 5 = .ready ∧
      ((testing [] .waiting .ready).modifyHeat (fun h => { h with supply := some 240 })).heat.supply = some 240 ∧
      (testing [] .waiting .ready).heat.thermal ≠ .limit ∧ (testing [] .waiting .ready).heat.lowSupply = false ∧
      (testing [] .waiting .ready).car.state = .stopped ∧ (testing [] .waiting (.recovery 1)).channel 5 ≠ .ready ∧
      (1 ≤ 29 ∧ 30 ≤ 599) := by
  decide
theorem test_CoilTestPulseDecides_invalid_meets :
    (∀ t low, ((testing [] .waiting .ready).modifyHeat (fun h => { h with supply := some 240, thermal := t, lowSupply := low })).test =
        some ⟨0, [], some 5, .waiting, 240⟩) ∧
      ((testing [6] .waiting .ready).modifyHeat (fun h => { h with thermal := .limit })).heat.thermal = .limit ∧
      ((testing [6] .waiting .ready).modifyHeat (fun h => { h with lowSupply := true })).heat.lowSupply = true ∧
      ({ testing [6] .waiting .ready with car := { homed.car with state := .fault } } : State).car.state ≠ .stopped ∧
      ((testing [6] .waiting .ready).setChannel 6 (.hold 1)).channel 6 ≠ .ready := by
  refine ⟨fun t low => rfl, ?_⟩
  decide
theorem test_CoilTestPulseDecides_goes_on_meets :
    ((testing [6] .waiting (.recovery 0)).modifyHeat (fun h => { h with supply := some 240 })).channel 5 = .recovery 0 ∧
      (after (.recoveryEnd 5) ((testing [6] .waiting (.recovery 0)).modifyHeat (fun h => { h with supply := some 240 }))).channel
        5 = .drive 600 true ∧
      (testing [6] (.pulse 9) (.drive 591 true)).testProceed = testing [6] (.pulse 9) (.drive 591 true) ∧
      ([] : List Pin).length ≤ 16 ∧
      (((testing [6] .waiting .ready).modifyHeat (fun h => { h with supply := some 240, thermal := .limit })).testProceed.test) =
        none ∧
      (((testing [6] .waiting .ready).modifyHeat (fun h =>
        { h with supply := some 240, thermal := .limit })).testProceed.port.console).notices.length = 2 := by
  decide
theorem test_CoilTestPulseDecides_cut_meets :
    (testing [] (.pulse 9) (.drive 591 true)).test = some ⟨0, [], some 5, .pulse 9, 240⟩ ∧
      (testing [6] (.pulse 9) (.drive 591 true)).test = some ⟨0, [6], some 5, .pulse 9, 240⟩ ∧
      (testing [6] (.pulse 9) (.drive 591 true)).car.state = .stopped ∧ (testing [6] (.pulse 9) (.drive 591 true)).car.motion = none ∧
      (testing [6] (.pulse 9) (.drive 591 true)).sequ.walking = false ∧
      (after .illegalTransition (testing [] (.pulse 9) (.drive 591 true))).test = none := by
  decide

/-! ### Heat -/

/-- A line that waits for the gates, in a thermal state. -/
def waits (t : Level) : State := (State.printing homed .job (.planDue (.main .whole))).modifyHeat (fun h => { h with thermal := t })
theorem test_WindowEndJudgesAndDecays_meets :
    (∀ c p, homed.line = some c → c.stage ≠ .planDue p) ∧
      (waits .cool).line = some (lineC .job (.planDue (.main .whole))) ∧ (waits .cool).judgeHeat.decay.gatesOpen = true ∧
      ((waits .cool).addHeat 0 48000).judgeHeat.decay.gatesOpen = false := by
  refine ⟨fun c p h => (Option.some_ne_none c h.symm).elim, ?_⟩
  decide +kernel

theorem test_ConversionsAreJudged_meets :
    homed.heat.scan = .temperature ∧ ((waits .cool).takeTemperature 41).gatesOpen = true ∧
      ((waits .cool).takeTemperature 100).gatesOpen = false ∧
      (homed.modifyHeat (fun h => { h with scan := .supply })).heat.scan = .supply ∧ homed.heat.lowSupply = false ∧
      (homed.modifyHeat (fun h => { h with lowSupply := true })).heat.lowSupply = true ∧
      ((waits .cool).takeSupply 190).gatesOpen = true ∧ ((waits .cool).takeSupply 189).gatesOpen = false := by
  decide

/-! ### The form and the paper -/

theorem test_StepsWrapTheOffset_meets :
    0 < homed.map.len ∧ (State.at homed 3167).form.offset < homed.map.len ∧ (State.at homed 0).form.offset < homed.map.len ∧
      (tailAt 73).form.paper = .tail 73 ∧ (∀ d, (State.at homed 0).form.paper ≠ .tail d) ∧ (State.at homed 3167).form.offset + 1 = 3168 := by
  exact ⟨by decide, by decide, by decide, by decide, fun d h => PaperState.noConfusion h, by decide⟩

/-- A pending correction for an edge at odometer 0. -/
def correcting : State := (State.at homed 0).modifyForm (fun f => { f with pendingCorrection := some 0, odometer := 864 })
theorem test_PhaseCorrectionMeetsItsTarget_meets :
    0 < correcting.map.len ∧ correcting.form.offset < correcting.map.len ∧ correcting.form.pendingCorrection = some 0 ∧
      homed.form.pendingCorrection = none := by
  decide

/-- The learning at an offset with a previous edge, a candidate and a learned length; the next step has odometer 20000. -/
def learning (edge : EdgeState) (prev : Nat) (cand learned : Option Nat) : State :=
  ((State.at homed 0).modifyForm (fun f => { f with
    odometer := 19999, forwardMark := 19999, previousEdge := some (BitVec.ofNat 32 prev), candidate := cand
    edge := edge })).modifyMap (fun m => { m with learned := learned })
theorem test_PerforationsLearnTheLength_meets :
    (learning .seeking 16835 none none).form.paper = .present ∧ (learning .seeking 16835 none none).edgeFitted = true ∧
      (learning .seeking 16835 none none).form.path = .tractor ∧ (learning .seeking 16835 none none).map.len = 3168 ∧
      ((20000 : Odo) - 19999).toInt = 1 ∧ ((20000 : Odo) - 16829).toInt = 3168 + 3 ∧ ((20000 : Odo) - 19857).toInt = 143 ∧
      ((20000 : Odo) - 11359).toInt = 8641 ∧ ((20000 : Odo) - 16828).toInt = 3168 + 4 ∧
      2 * 3168 < ((20000 : Odo) - 13663).toInt := by
  decide
theorem test_PerforationsLearnTheLength_outcomes :
    ((learning .seeking 16829 none none).formStep .forward true true).form.edge = .locked ∧
      ((learning .locked 16828 none none).formStep .forward true true).form.candidate = some 3172 ∧
      ((learning .locked 16828 (some 3175) none).formStep .forward true true).map.learned = some 3175 ∧
      ((learning .locked 13663 none (some 3168)).formStep .forward true false).form.edge = .lost ∧
      ((learning .locked 13664 none (some 3168)).formStep .forward true false).form.edge = .locked := by
  decide
/-- The form without a previous edge, in a paper state with a no-paper run. -/
def running (p : PaperState) (n : Nat) : State := (State.at homed 7).modifyForm (fun f => { f with paper := p, noPaperRun := n })
theorem test_PerforationsLearnTheLength_sensor_meets :
    (∀ p n, (running p n).form.previousEdge = none ∧ (running p n).form.paper = p ∧ (running p n).form.noPaperRun = n) ∧
      ((running .present 71).formStep .forward false false).form.paper = .tail 792 ∧
      ((running .present 70).formStep .forward false false).form.noPaperRun = 71 ∧
      ((running .present 0).formStep .reverse false false).form.noPaperRun = 0 ∧
      ((running (.tail 9) 0).formStep .forward true false).form.paper = .present ∧
      ((running (.loading false) 0).formStep .forward true false).form.previousEdge = some 1 ∧
      ((running (.loading true) 0).formStep .forward true true).form.previousEdge = some 1 ∧
      (running (.loading true) 0).form.edge = .seeking ∧
      0 < (((running (.loading true) 0).form.forward 3168).odometer - (running (.loading true) 0).form.forwardMark).toInt := by
  refine ⟨fun p n => ⟨rfl, rfl, rfl⟩, ?_⟩
  decide

theorem test_PerforationsLearnTheLength_aging_meets :
    ((19999 : Odo) + 1 - 13664).toInt = 2 * 3168 ∧
      ((learning .locked 13664 none none).formStep .forward false false).form.previousEdge = some 13664 ∧
      ((learning .locked 13663 none none).formStep .reverse true true).form.edge = .locked ∧
      ((learning .locked 13663 none none).formStep .forward false false).form.edge = .lost ∧
      (((learning .locked 16828 (some 3175) none).modifyForm (fun f => { f with noPaperRun := 71 })).formStep .forward false
        false).form.paper = .tail 792 ∧
      (((learning .locked 16828 (some 3175) none).modifyForm (fun f => { f with noPaperRun := 71 })).formStep .forward false
        false).form.candidate = some 3175 ∧
      (((learning .seeking 13663 none none).modifyForm (fun f => { f with paper := .tail 100 })).formStep .forward false
        true).form.edge = .lost ∧
      (((learning .off 16829 none none).modifyForm (fun f => { f with paper := .loading false })).formStep .forward true
        true).form.previousEdge = some 16829 := by
  decide

/-- A form of 3 168 steps with a skip zone of 144. -/
def skipping (o : Nat) : State := (State.at homed o).modifyMap (fun m => { m with skip := 144 })
theorem test_SkipZoneExtendsFeeds_meets :
    0 < (skipping 0).map.len ∧ (skipping 0).map.skip ≤ (skipping 0).map.len / 2 ∧ (skipping 0).map.skip ≠ 0 ∧
      (skipping 0).map.len = 3168 ∧ (skipping 3000).form.offset = 3000 ∧ (skipping 2970).form.offset = 2970 ∧
      3168 - 144 ≤ (2976 + 48) % 3168 ∧ (2975 + 48) % 3168 < 3168 - 144 ∧
      (∀ j, MoveKind.vtab ≠ .feed j ∧ MoveKind.vtab ≠ .trailing j) := by
  refine ⟨by decide, by decide, by decide, by decide, by decide, by decide, by decide, by decide, fun j => ⟨?_, ?_⟩⟩ <;>
    exact fun h => MoveKind.noConfusion h

/-- A move due, with the form in a paper state. -/
def owing (k : MoveKind) (p : PaperState) : State :=
  { homed.modifyForm (fun f => { f with paper := p }) with drive := { homed.drive with due := some ⟨.auto, k⟩ } }
theorem test_SkipZoneExtendsFeeds_start_meets :
    (owing (.trailing 1) .present).drive.state = .stopped ∧ (owing (.trailing 1) .present).car.state = .stopped ∧
      (owing (.trailing 1) .present).drive.due = some ⟨.auto, .trailing 1⟩ ∧ 0 < (owing (.trailing 1) .present).map.len := by
  decide
theorem test_MoveStartFixesTheDistance_meets :
    (∀ k p, (owing k p).drive.state = .stopped ∧ (owing k p).car.state = .stopped ∧ (owing k p).drive.due = some ⟨.auto, k⟩) ∧
      (owing (.feed 1) .present).fixedMove (.feed 1) = some (.forward, 1) ∧
      (owing .tearAdvance .present).fixedMove .back = some (.forward, 0) ∧
      (288 + (owing .tearAdvance .present).map.trim - (owing .tearAdvance .present).map.tof).toNat = 288 ∧
      (owing .load .none).edgeFitted = true ∧ (owing .load .none).form.path = .tractor ∧
      (owing .eject (.tail 1)).form.paper = .tail 1 ∧ (owing .eject .present).form.paper = .present := by
  refine ⟨fun k p => ⟨rfl, rfl, rfl⟩, ?_⟩
  decide

/-- A tear advance due for a TEAR entry, at an offset, with the greatest TOF: its distance is 0. -/
def noAdvance (o : Nat) : State :=
  { (State.owed (State.queued (State.at homed o) .console [entry 0 .granted (.motion .tear) 0]) .console 0).modifyMap (fun m =>
      { m with tof := 720 }) with
    drive := ⟨.stopped, none, some ⟨.entry .console 0, .tearAdvance⟩, some ⟨.console, 0, .tear, 0, 0, 0, 0, false⟩⟩ }
theorem test_MoveStartFixesTheDistance_no_steps_meet :
    (∀ o, (noAdvance o).drive.due = some ⟨.entry .console 0, .tearAdvance⟩ ∧ (noAdvance o).form.pendingCorrection = none ∧
      (noAdvance o).drive.run = some ⟨.console, 0, .tear, 0, 0, 0, 0, false⟩) ∧
      288 + (noAdvance 0).map.trim ≤ (noAdvance 0).map.tof ∧
      (after (.moveStart true) (noAdvance 0)).form.tear = .atTear ∧
      ((after (.moveStart true) (noAdvance 0)).port.job).notices =
        [.formBoundary 0 0 3168 .forward false, .tearPosition 0 0 0 (.entry .console 0)] ∧
      ((after (.moveStart true) (noAdvance 9)).port.console).notices.length = 2 ∧
      (after (.moveStart true) (owing .back .present)).drive = ⟨.stopped, none, none, none⟩ := by
  refine ⟨fun o => ⟨rfl, rfl, rfl⟩, ?_⟩
  decide
theorem test_MoveStartFixesTheDistance_arrival_meets :
    ({ owing .load .none with edgeFitted := false } : State).edgeFitted = false ∧
      (after (.moveStart true) ({ owing .load .none with edgeFitted := false } : State)).form.paper = .loading true ∧
      (after (.moveStart true) ({ owing .load .none with edgeFitted := false } : State)).form.edge = .off ∧
      (after (.moveStart true) (owing .load .none)).form.previousEdge = some 0 ∧ (∀ d, PaperState.present ≠ .tail d) := by
  refine ⟨by decide, by decide, by decide, by decide, fun d h => PaperState.noConfusion h⟩

/-- A move of a kind in flight over paper: a direction, a distance, the net distance, stalls, steps and pulses. -/
def moving (d : DriveState) (k : MoveKind) (r : MoveDir) (n : Nat) (net : Int) (stalls steps pulses : Nat) : State :=
  { State.at homed 1000 with drive := { homed.drive with
    state := d, move := some ⟨.auto, k, r, n, false, net, stalls, steps, pulses, 0⟩ } }
theorem test_PaperStepsStallAndRetry_meets :
    (∀ d k r n net stalls steps pulses, (moving d k r n net stalls steps pulses).drive.move =
        some ⟨.auto, k, r, n, false, net, stalls, steps, pulses, 0⟩ ∧
      (moving d k r n net stalls steps pulses).drive.state = d ∧
      (moving d k r n net stalls steps pulses).form.paper = .present ∧
      (moving d k r n net stalls steps pulses).form.previousEdge = none) ∧
      (MoveKind.feed 96).movesTear = false ∧ ((94 : Int) + 1 < (96 : Nat) ∧ (18 + 1) / 4 < 0 + 5) ∧ 0 + 5 ≤ (19 + 1) / 4 ∧
      (DriveState.backoff 2 = .backoff 2 ∧ 1 < 2) := by
  refine ⟨fun d k r n net stalls steps pulses => ⟨rfl, rfl, rfl, rfl⟩, ?_⟩
  decide
/-- The last step of a FEED of a Console entry. -/
def lastStep : State :=
  { State.owed (State.queued (State.at homed 1000) .console [entry 0 .granted (.motion (.feed 96)) 0]) .console 0 with
    drive := ⟨.stepping, some ⟨.entry .console 0, .feed 96, .forward, 96, false, 95, 0, 95, 23, 0⟩, none,
      some ⟨.console, 0, .feed 96, 0, 0, 0, 0, false⟩⟩ }
theorem test_PaperStepsStallAndRetry_last_step_meets :
    lastStep.drive.state = .stepping ∧ (95 : Int) + 1 = (96 : Nat) ∧ (95 + 1) / 4 < 23 + 5 ∧ lastStep.form.pendingCorrection = none ∧
      (lastStep.form.forward lastStep.map.len).offset ≠ 0 ∧ (lastStep.form.forward lastStep.map.len).form = 0 ∧
      lastStep.form.paper = .present ∧ lastStep.form.previousEdge = none := by
  decide
/-- A move of a kind in STEPPING that searches, or has its last step to make, with the form in a paper state. -/
def stepping (k : MoveKind) (d : MoveDir) (p : PaperState) (n : Nat) (search : Bool) : State :=
  { (State.at homed 1000).modifyForm (fun f => { f with paper := p }) with drive := { homed.drive with
    state := .stepping, move := some ⟨.auto, k, d, n, search, 0, 0, 0, 0, 0⟩ } }
theorem test_PaperStepsStallAndRetry_searches_meet :
    (∀ k d p n b, (stepping k d p n b).drive.state = .stepping ∧
      (stepping k d p n b).drive.move = some ⟨.auto, k, d, n, b, 0, 0, 0, 0, 0⟩) ∧
      (after (.step true false) (stepping .load .forward (.loading false) 4320 true)).drive.move.map (·.distance) = some 865 ∧
      (after (.step false false) (stepping .park .reverse .present 9504 true)).drive.move.map (·.distance) = some 289 ∧
      (after (.step false false) (stepping .load .forward (.loading false) 1 true)).arb.halt.noPaper = true ∧
      (after (.step true false) (stepping .tearAdvance .forward (.tail 73) 9 false)).form.paper = .present ∧
      (after (.step false false) (stepping (.feed 9) .forward (.tail 73) 9 false)).arb.halt.paperOut = true := by
  refine ⟨fun k d p n b => ⟨rfl, rfl⟩, ?_⟩
  decide
/-- From R149, R154 and R155: the backoff of a return in TAIL takes the tear distance with it. -/
theorem test_PaperStepsStallAndRetry_backoff_meets :
    (after (.step false false) (State.torn { stepping .back .forward (.tail 500) 9 false with
        drive := { homed.drive with state := .backoff 1, move := some ⟨.auto, .back, .forward, 9, false, 4, 1, 20, 0, 0⟩ } }
      (-5))).form.tearDistance = -6 ∧
      (after (.step false false) (State.torn { stepping .back .forward (.tail 500) 9 false with
        drive := { homed.drive with state := .backoff 1, move := some ⟨.auto, .back, .forward, 9, false, 4, 1, 20, 0, 0⟩ } }
      (-5))).drive.state = .retryWait 200000 := by
  decide
theorem test_PaperStepsStallAndRetry_pulse_meets :
    (after .sensorPulse (stepping .load .forward (.loading true) 9 true)).drive.move.map (·.pulses) = some 1 ∧
      (after .sensorPulse (stepping .load .forward (.loading false) 9 true)).drive.move.map (·.pulses) = some 0 ∧
      (after .sensorPulse (stepping .park .reverse .present 9 true)).drive.move.map (·.pulses) = some 0 := by
  decide
theorem test_step_drives_the_steppers_of_the_path :
    (after (.step true false) (stepping (.feed 9) .forward .present 9 false)).steppers = ⟨1, 1⟩ ∧
      (after (.step true false) ((stepping (.feed 9) .forward .present 9 false).modifyForm (fun f =>
        { f with path := .sheet }))).steppers = ⟨1, 0⟩ ∧
      (after (.step true false) (stepping (.reverse 9) .reverse .present 9 false)).steppers = ⟨-1, -1⟩ := by
  decide
/-- From R130, R136 and R159: a change to SHEET with a learned length, and back. -/
theorem test_PaperStepsStallAndRetry_path_meets :
    (((State.at homed 1000).modifyMap (fun m => { m with learned := some 3456, programmed := 720, stops := [100, 800] })).changePath
        .sheet).map = ⟨720, none, 0, 0, 0, [100], false⟩ ∧
      (((State.at homed 1000).modifyMap (fun m => { m with learned := some 3456, programmed := 720 })).changePath
        .sheet).form.offset = 280 ∧
      ((State.at homed 1000).changePath .sheet).form.edge = .off ∧
      (((State.at homed 1000).changePath .sheet).changePath .tractor).form.edge = .seeking := by
  decide
/-- A move in flight for a Console entry or for the line. -/
def course (src : MoveSource) (k : MoveKind) (r : Option MotionRun) : State :=
  { cancelling .feeding with drive := ⟨.stepping, some ⟨src, k, .forward, 9, false, 9, 0, 0, 0, 0⟩, none, r⟩ }
theorem test_PaperStepsStallAndRetry_end_meets :
    (∀ src k r, (course src k r).drive.move = some ⟨src, k, .forward, 9, false, 9, 0, 0, 0, 0⟩ ∧ (course src k r).drive.run = r ∧
      (course src k r).line = some (lineC .console .feeding)) ∧
      (course .line (.trailing 9) none).form.offset = 0 ∧ ((course .line (.trailing 9) none).endMove .done).line = none ∧
      ((course .line (.trailing 9) none).endMove .jam).line.map (·.stage) = some .jammed ∧
      ((course (.entry .console 0) .tearFeed (some ⟨.console, 0, .tear, 0, 0, 0, 0, false⟩)).endMove .done).drive.due =
        some ⟨.entry .console 0, .tearAdvance⟩ := by
  refine ⟨fun src k r => ⟨rfl, rfl, rfl⟩, ?_⟩
  decide

/-! ### Timers and tally inputs -/

/-- Both timers of the Arbiter at their end. -/
def timed (p : PaperState) : State :=
  { homed.modifyForm (fun f => { f with paper := p }) with arb := { homed.arb with idleTimer := some 0, autoTimer := some 0 } }
/-- A tally unit about to qualify. -/
def tallying (m : TallyMode) (open_ : Bool) (n : BitVec 16) : State :=
  homed.modifyTally 0 (fun t => { t with mode := m, unmasked := open_, present := n, qual := .rising 20000 })
theorem test_TimersAndTallyInputs_meets :
    (timed .present).arb.idleTimer = some 0 ∧ (timed .present).arb.autoTimer = some 0 ∧ (timed .present).form.path = .tractor ∧
      (timed .present).form.paper = .present ∧ (timed .none).form.paper ≠ .present ∧ (homed.tallyUnit 0).qual = .low ∧
      (∀ m b n, ((tallying m b n).tallyUnit 0).qual = .rising 20000 ∧ ((tallying m b n).tallyUnit 0).mode = m ∧
        ((tallying m b n).tallyUnit 0).unmasked = b ∧ ((tallying m b n).tallyUnit 0).present = n) ∧ 2 ≤ (2 : BitVec 16).toNat := by
  refine ⟨by decide, by decide, by decide, by decide, by decide, by decide, fun m b n => ⟨rfl, rfl, rfl, rfl⟩, by decide⟩
theorem test_TimersAndTallyInputs_start_meets :
    (State.held homed).arb.hold = true ∧ (State.held homed).store.job.queue = [] ∧ (State.held homed).arb.granted = none ∧
      (State.held homed).arb.idleTimer = none ∧ (State.held homed).judgeTimers.arb.idleTimer = some 20000000 ∧
      ((State.at homed 0).modifyArb (fun a => { a with head := { a.head with autoTear := 2 } })).judgeTimers.arb.autoTimer =
        some 20000000 ∧
      (timed .none).judgeTimers.arb.autoTimer = none := by
  decide

/-! ### Sound states, with a command waiting -/

/-- A state with a line printing, a notice held and a command waiting. -/
def busy : State :=
  { (State.at (State.printing homed .job (.planned (.main .whole))) 1000).postBoth .engineReset with pending := [.windowEnd] }

theorem test_FormSoundIsKept_meets : busy.FormSound ∧ step busy = .next (after .windowEnd { busy with pending := [] }) where
  left :=
    { map := { programmed := by decide
               learned := by intro n h; exact (Option.some_ne_none n h.symm).elim
               tof := by decide
               trim := by decide
               skip := by decide
               few := by decide
               ascending := by decide
               below := by decide }
      offset := by decide
      candidate := by intro n h; exact (Option.some_ne_none n h.symm).elim }
  right := rfl

theorem test_ReadsAndNoticesAreAnswered_report_meets :
    busy.FormSound ∧ busy.positionReport.length = 36 + 2 * busy.map.stops.length + 4 ∧ busy.stateReport.length = 260 ∧
      wordAt busy.positionReport 2 = 1000 ∧ busy.arb.granted = some ⟨.job, 0⟩ ∧
      busy.headEntry .job = some (entry 0 .granted (.line (lineF none)) 0) ∧
      (busy.stateReport.drop 6).take 5 = [1, 0, 0, 0, 0] ∧ (busy.stateReport.drop 57).take 3 = [1, 0, 1] ∧
      homed.arb.granted = none ∧ homed.waitState ≠ some .dwell ∧
      ({ busy with dwell := .running 9 } : State).waitState = some .dwell ∧
      (({ busy with dwell := .running 9 } : State).stateReport.drop 219).take 2 = [1, 1] :=
  ⟨test_FormSoundIsKept_meets.left, by decide +kernel⟩

/-- From R163, R177 and R192: the engine states of halts, moves and lines, and a tally unit in bytes. -/
theorem test_ReadsAndNoticesAreAnswered_states_meet :
    homed.engine = .idle ∧ State.reset.engine = .unready ∧ busy.engine = .planning ∧
      (homed.modifyHalt (fun h => { h with jam := true })).engine = .halted ∧
      ({ homed with drive := { homed.drive with due := some ⟨.auto, .tearAdvance⟩ } } : State).engine = .move ∧
      ({ State.owed homed .console 0 with test := some ⟨0, [], some 3, .waiting, 0⟩ } : State).engine = .coilTest ∧
      (State.printing homed .job (.striking (.main .whole))).engine = .pass ∧
      ({ State.printing homed .job (.planDue .repair) with heat := { homed.heat with thermal := .limit } } : State).waitState =
        some .waitThermal ∧
      (⟨.count, 258, 3, 2, true, false, .rising 20000⟩ : TallyUnit).bytes = [2, 2, 1, 3, 0, 2, 0, 1, 0, 1, 32, 78] := by
  decide

/-- From R40 and R163: between the halves of a split line the engine is PASS, with the sub-state of the second half. -/
theorem test_second_half_waits_in_pass :
    ({ State.printing homed .job (.planned (.main .odd)) with dwell := .running 9 } : State).engine = .pass ∧
      ({ State.printing homed .job (.planned (.main .odd)) with dwell := .running 9 } : State).waitState = some .dwell ∧
      ((State.printing homed .job (.planDue (.up .odd))).modifyHeat (fun h => { h with lowSupply := true })).engine = .pass ∧
      ((State.printing homed .job (.planDue (.up .odd))).modifyHeat (fun h => { h with lowSupply := true })).waitState =
        some .waitSupply ∧
      (State.printing homed .job (.planned (.main .even))).engine = .planning := by
  decide

theorem test_OneMotionIsKept_meets :
    (driven .cruise 1200 .pass).OneMotion ∧
      step { driven .cruise 1200 .pass with pending := [.stall] } = .next (after .stall (driven .cruise 1200 .pass)) where
  left := { exclusive := by decide, moving := by decide, armed := by decide }
  right := rfl

theorem test_StoreSoundIsKept_meets : busy.StoreSound ∧ step busy = .next (after .windowEnd { busy with pending := [] }) where
  left :=
    { distinct := by decide
      range := by decide
      charge := by intro l; cases l <;> decide
      blocks := by decide
      descs := by decide
      order := by intro l; cases l <;> decide
      stamps := by intro l; cases l <;> decide
      apart := by decide }
  right := rfl

theorem test_BoundsAreKept_meets : busy.Bounded ∧ step busy = .next (after .windowEnd { busy with pending := [] }) where
  left :=
    { heat := by decide
      notices := by intro l; cases l <;> decide
      health := by intro p; unfold PinRecord.Consistent; revert p; decide
      rise := by
        intro p t h
        have none_yet : ∀ p : Pin, (busy.pinRecord p).rise = none := by decide
        rw [none_yet] at h; exact (Option.some_ne_none t h.symm).elim
      counter := by decide
      period := by decide
      timer := by decide
      head := by unfold HeadSettings.Legal; decide
      repairs := by decide
      todo := by intro c h; exact (Option.some_ne_none c h.symm).elim
      idle := by decide }
  right := rfl

theorem test_GrantSoundIsKept_meets : busy.GrantSound ∧ step busy = .next (after .windowEnd { busy with pending := [] }) where
  left :=
    { only := by
        intro l i e h hg
        cases l
        · match i, h with
          | 0, h => exact ⟨rfl, by have h : some (entry 0 .granted (.line (lineF none)) 0) = some e := h
                                   injection h with h; subst h; rfl⟩
          | n + 1, h => exact (Option.some_ne_none e h.symm).elim
        · exact (Option.some_ne_none e h.symm).elim
      head := by
        intro g h
        have h : some ⟨.job, 0⟩ = some g := h
        injection h with h; subst h
        exact ⟨entry 0 .granted (.line (lineF none)) 0, rfl, rfl, rfl⟩
      line := by
        intro c h
        have h : some (lineC .job (.planned (.main .whole))) = some c := h
        injection h with h; subst h
        exact ⟨⟨0, rfl⟩, rfl, rfl⟩
      run := by intro r h; exact (Option.some_ne_none r h.symm).elim
      test := by intro c h; exact (Option.some_ne_none c h.symm).elim
      rights := by
        intro e h p hp
        have h : e ∈ [entry 0 .granted (.line (lineF none)) 0] := h
        rw [List.mem_singleton] at h
        subst h
        exact Record.noConfusion hp }
  right := rfl

end Sys2Proof.Tests
end

namespace Sys2Proof.Machine

/-! ## Strike geometry: lead, trigger counts and drive time (R7 to R10, R14, R15) -/

/-- A trigger count of a rightward pass lies the lead's whole counts, rounded up, before the dot (R9, R10). -/
theorem triggerOf_targetOf_right (base : Int) (lead : Nat) (trim : Int) :
    triggerOf .right (targetOf .right base lead trim) = base - (lead + 15) / 16 := by
  simp only [triggerOf, targetOf]; omega

/-- A trigger count of a leftward pass lies the lead's whole counts, rounded up, and the trim beyond the dot (R9, R10). -/
theorem triggerOf_targetOf_left (base : Int) (lead : Nat) (trim : Int) :
    triggerOf .left (targetOf .left base lead trim) = base + trim + (lead + 15) / 16 := by
  simp only [triggerOf, targetOf]; omega

/-- The fraction of a strike is a function of the lead alone (R10). -/
theorem fractionOf_targetOf (d : Dir) (base : Int) (lead : Nat) (trim : Int) :
    fractionOf d (targetOf d base lead trim) = (16 - lead % 16) % 16 := by
  cases d <;> simp only [fractionOf, triggerOf, targetOf] <;> omega

theorem triggerOf_targetOf_add (d : Dir) (base n : Int) (lead : Nat) (trim : Int) :
    triggerOf d (targetOf d (base + n) lead trim) = triggerOf d (targetOf d base lead trim) + n := by
  cases d with
  | right => rw [triggerOf_targetOf_right, triggerOf_targetOf_right]; omega
  | left => rw [triggerOf_targetOf_left, triggerOf_targetOf_left]; omega

/-- The drive time with both clamps written out (R14). -/
theorem driveTimeOf_eq (g v : Nat) :
    driveTimeOf g v = max 60 (min 400 ((120 + 20 * (g - 1)) * 240 / max 190 (min 300 v))) := rfl

theorem driveTimeOf_range {g : Nat} (v : Nat) (h1 : 1 ≤ g) (h6 : g ≤ 6) :
    96 ≤ driveTimeOf g v ∧ driveTimeOf g v ≤ 277 := by
  have supply : 190 ≤ max 190 (min 300 v) ∧ max 190 (min 300 v) ≤ 300 := by omega
  rw [driveTimeOf_eq]
  generalize max 190 (min 300 v) = w at supply ⊢
  have lower : 96 ≤ (120 + 20 * (g - 1)) * 240 / w := by
    rw [Nat.le_div_iff_mul_le (by omega)]; omega
  have upper : (120 + 20 * (g - 1)) * 240 / w < 278 := by
    rw [Nat.div_lt_iff_lt_mul (by omega)]; omega
  omega

/-- The lead at a legal gap is at most that of DRAFT at gap level 6 (R8). -/
theorem leadOf_le (k : SpeedClass) {g : Nat} (h6 : g ≤ 6) : leadOf k g ≤ 115 := by
  cases k <;> simp only [leadOf, SpeedClass.speed, flightTime] <;> omega

/-! ## The entries of a plan (R9, R51, R52) -/

theorem insertProto_perm (d : Dir) (x : Proto) (ys : List Proto) : (insertProto d x ys).Perm (x :: ys) := by
  induction ys with
  | nil => exact .refl _
  | cons y ys ih =>
    simp only [insertProto]
    split
    · exact .refl _
    · exact (ih.cons y).trans (.swap x y ys)

theorem foldr_insertProto_perm (d : Dir) (ps : List Proto) : (ps.foldr (insertProto d) []).Perm ps := by
  induction ps with
  | nil => exact .refl _
  | cons p ps ih => exact (insertProto_perm d p _).trans (ih.cons p)

theorem sortProtos_perm (d : Dir) (ps : List Proto) : (sortProtos d ps).Perm ps := by
  cases d with
  | right => exact foldr_insertProto_perm .right ps
  | left => exact (foldr_insertProto_perm .left ps.reverse).trans ps.reverse_perm

section
variable (i : PlanInputs) (f : LineFields) (p : PassId) (fixed : Option Dir) (ps : List Proto)

theorem makePlan_cls : (makePlan i f p fixed ps).cls =
    rampClass i (makePlan i f p fixed ps).dir ps (spacingClass i f ps) := rfl

theorem makePlan_lead : (makePlan i f p fixed ps).lead = leadOf (makePlan i f p fixed ps).cls i.gap := rfl

theorem makePlan_entries : (makePlan i f p fixed ps).entries =
    (sortProtos (makePlan i f p fixed ps).dir ps).map
      (·.entry (makePlan i f p fixed ps).dir (makePlan i f p fixed ps).lead i.trim) := rfl

/-- Each entry of a plan comes from one proto (R51). -/
theorem mem_makePlan_entries {e : StrikeEntry} : e ∈ (makePlan i f p fixed ps).entries ↔
    ∃ x ∈ ps, x.entry (makePlan i f p fixed ps).dir (makePlan i f p fixed ps).lead i.trim = e := by
  rw [makePlan_entries, List.mem_map]
  simp only [(sortProtos_perm _ ps).mem_iff]

end

/-- Settles O37: the tables are the formula at each class and gap level, and each entry's target is that of its proto. -/
theorem flightTimeAndLead : Obligations.FlightTimeAndLead := by
  unfold Obligations.FlightTimeAndLead
  refine ⟨fun g _ _ => rfl, by decide, fun c g => rfl, by decide, by decide, by decide, by decide, ?_⟩
  rintro i f p fixed ps q rfl
  refine ⟨makePlan_lead .., fun e he => ?_⟩
  obtain ⟨x, hx, rfl⟩ := (mem_makePlan_entries ..).mp he
  exact ⟨x, hx, rfl⟩

/-! ## Dots in the printable window (R4, R5) -/

theorem clippedAt_iff (w : Width) (x : Nat) : clippedAt w x = true ↔ x < 216 ∨ windowMost w < x := by
  rw [clippedAt, Bool.or_eq_true, decide_eq_true_eq, decide_eq_true_eq, windowLeast]

theorem dotsCount_append (d e : DotSet) : dotsCount (d ++ e) = dotsCount d + dotsCount e := by
  simp [dotsCount]

/-- A condition on the columns parts the dots of a set in two. -/
theorem dotsCount_filter_add (c : Nat × Rows → Bool) (d : DotSet) :
    dotsCount (d.filter c) + dotsCount (d.filter (fun x => !c x)) = dotsCount d := by
  rw [← dotsCount_append]
  exact ((List.filter_append_perm c d).map _).sum_eq

theorem mem_strikableDots (w : Width) (f : LineFields) (y : Nat × Rows) :
    y ∈ strikableDots w f ↔ y ∈ lineDots f ∧ 216 ≤ paperPosition f y.1 ∧ paperPosition f y.1 ≤ windowMost w := by
  have : (!clippedAt w (paperPosition f y.1)) = true ↔
      216 ≤ paperPosition f y.1 ∧ paperPosition f y.1 ≤ windowMost w := by
    rw [Bool.not_eq_true', ← Bool.not_eq_true, clippedAt_iff]; omega
  rw [strikableDots, List.mem_filter, this]

/-- Settles O38, clause by clause from the arithmetic of targets, the drive time, and the two filters that part the dots. -/
theorem firePointArithmetic : Obligations.FirePointArithmetic := by
  unfold Obligations.FirePointArithmetic
  refine ⟨fun base trim lead => ⟨rfl, rfl, fun T => ?_, fun d => fractionOf_targetOf d base lead trim,
      fun d n => triggerOf_targetOf_add d base n lead trim⟩,
    fun g v => ⟨driveTimeOf_eq g v, rfl, driveTimeOf_range v⟩, ?_, ?_, by decide, rfl, rfl⟩
  · simp only [triggerOf, fractionOf]; omega
  · rintro i f p fixed ps q rfl
    exact ⟨rfl, rfl, rfl⟩
  · intro w f most x hmost
    have window : most = windowMost w := by rw [hmost]; cases w <;> rfl
    subst window
    refine ⟨clippedAt_iff w x, mem_strikableDots w f, ?_, rfl⟩
    exact dotsCount_filter_add (fun y => clippedAt w (paperPosition f y.1)) (lineDots f)

end Sys2Proof.Machine

namespace Sys2Proof.Machine

/-! ## Requests that find their frame, and SET HEAD (R175, R176, R184) -/

/-- A request whose bytes complete a frame of its kind is taken in the state that has heard them (R181). -/
theorem State.request_of_frameOf {s : State} {k : ReqKind} {l : Link} {bytes : List Byte} {f : Frame}
    (take : State → Link → Frame → State) (hf : s.frameOf l bytes = some f) (hk : f.kind = k) :
    s.request k l bytes take = take (s.heard l bytes) l f := by
  obtain ⟨g, hg, -, e⟩ | ⟨none, -⟩ := s.request_cases k l bytes take
  · rw [hf] at hg
    rw [e, ← Option.some.inj hg]
    rfl
  · exact (none f hf hk).elim

/-- The head settings after a whole SET HEAD payload, field by field (R184). -/
theorem setHeadOf_payload (m g d u b a i : Byte) (h : HeadSettings) :
    setHeadOf [m, g, d, u, b, a, i] h =
      { gap := if m.getLsbD 0 then max 1 (min 6 g.toNat) else h.gap
        trim := if m.getLsbD 1 then max (-8) (min 7 d.toInt) else h.trim
        uni := if m.getLsbD 2 then u.toNat != 0 else h.uni
        substitution := if m.getLsbD 3 then b.toNat != 0 else h.substitution
        autoTear := if m.getLsbD 4 then min 15 a.toNat else h.autoTear
        idleRelease := if m.getLsbD 5 then max 1 (min 30 i.toNat) else h.idleRelease } := by
  have nonzero : ∀ n : Nat, decide (n ≠ 0) = (n != 0) := fun n => by cases n <;> rfl
  rw [← nonzero, ← nonzero]
  rfl

/-- The byte of a signed value is its two's complement (R192). -/
theorem i8_eq (x : Int) : i8 x = [BitVec.ofInt 8 x] := by
  rw [i8, u8, BitVec.ofNat_toNat, BitVec.setWidth_eq]

/-- The six settings as bytes (R176). -/
theorem HeadSettings.bytes_eq (h : HeadSettings) :
    h.bytes = [BitVec.ofNat 8 h.gap, BitVec.ofInt 8 h.trim, if h.uni then 1 else 0,
      if h.substitution then 1 else 0, BitVec.ofNat 8 h.autoTear, BitVec.ofNat 8 h.idleRelease] := by
  have flag : ∀ c : Bool, flagByte c = [if c then 1 else 0] := by decide
  rw [HeadSettings.bytes, flag, flag, i8_eq]
  rfl

@[simp] theorem State.judgeIdleTimer_head (s : State) : s.judgeIdleTimer.arb.head = s.arb.head := by
  unfold State.judgeIdleTimer
  split <;> rfl

/-- With an auto-tear dwell of 0 the auto-tear timer does not run (R175). -/
theorem State.judgeTimers_autoTimer {s : State} (h : s.arb.head.autoTear = 0) :
    s.judgeTimers.arb.autoTimer = none := by
  have shut : s.judgeIdleTimer.tearCondition = false := by simp [State.tearCondition, h]
  simp [State.judgeTimers, State.judgeTearTimer, shut]

/-- Settles O22: the frame that the bytes complete is taken by `takeSetHead`, whose settings and answer are read off. -/
theorem setHeadStoresPresentFields : Obligations.SetHeadStoresPresentFields := by
  unfold Obligations.SetHeadStoresPresentFields
  intro l bytes s f m g d u b a i h hf hk hp hh
  have settings : setHeadOf f.payload s.arb.head = h := by rw [hp, setHeadOf_payload, hh]
  have run : exec (.setHead l bytes) s =
      .next (({ s.heard l bytes with arb := { s.arb with head := h } }.answered l
        ⟨0x84, f.tag, .ok, h.bytes⟩).judgeTimers) := by
    show Host.Outcome.next (s.request .setHead l bytes State.takeSetHead) = _
    rw [State.request_of_frameOf _ hf hk, State.takeSetHead, ← settings]
    simp only [State.respond, Frame.answer, hk]
    rfl
  refine ⟨by rw [run, HeadSettings.bytes_eq], fun dwell t ht => ?_⟩
  rw [run] at ht
  cases ht
  exact State.judgeTimers_autoTimer dwell

end Sys2Proof.Machine

namespace Sys2Proof.Machine

/-! ## Same-pin spacing (R16) -/

/-- Over ascending columns, neighbours far enough apart are as much as any two far enough apart. -/
theorem columnsApart_iff {k n : Nat} {cs : List Nat} (h : cs.Pairwise (· < ·)) :
    columnsApart k n cs = true ↔ ∀ a ∈ cs, ∀ b ∈ cs, a < b → n ≤ (b - a) * k := by
  induction cs with
  | nil => simp [columnsApart]
  | cons a cs ih =>
    cases cs with
    | nil => simp [columnsApart]
    | cons b rest =>
      obtain ⟨first, later⟩ := List.pairwise_cons.mp h
      rw [columnsApart, Bool.and_eq_true, decide_eq_true_eq, ih later]
      constructor
      · rintro ⟨near, tail⟩ x hx y hy hxy
        have after : ∀ z ∈ b :: rest, b ≤ z := by
          intro z hz
          rcases List.mem_cons.mp hz with rfl | hz'
          · exact le_rfl
          · exact ((List.pairwise_cons.mp later).1 z hz').le
        rcases List.mem_cons.mp hx with rfl | hx' <;> rcases List.mem_cons.mp hy with rfl | hy'
        · omega
        · exact near.trans (Nat.mul_le_mul_right k (Nat.sub_le_sub_right (after y hy') x))
        · have := first x hx'; omega
        · exact tail x hx' y hy' hxy
      · intro all
        exact ⟨all a (by simp) b (by simp) (first b (by simp)),
          fun x hx y hy => all x (List.mem_cons_of_mem a hx) y (List.mem_cons_of_mem a hy)⟩

theorem spacingOk_iff {k n : Nat} {ps : List Proto} (h : ∀ p : Pin, (columnsOfPin ps p).Pairwise (· < ·)) :
    spacingOk k n ps = true ↔
      ∀ p : Pin, ∀ a ∈ columnsOfPin ps p, ∀ b ∈ columnsOfPin ps p, a < b → n ≤ (b - a) * k := by
  simp only [spacingOk, List.all_eq_true, List.mem_finRange, forall_true_left, columnsApart_iff (h _)]

/-- At CREEP a pin cycle takes at most 2 counts, at every legal gap (R14 to R16). -/
theorem spacingOf_creep_le {g : Nat} (v : Nat) (h1 : 1 ≤ g) (h6 : g ≤ 6) :
    spacingOf (pinCycle (driveTimeOf g v)) .creep ≤ 2 := by
  have drive := (driveTimeOf_range v h1 h6).2
  simp only [spacingOf, pinCycle, SpeedClass.speed]
  omega

theorem Density.two_le_counts (d : Density) : 2 ≤ d.counts := by cases d <;> decide

/-- CREEP passes the spacing check at every density (R16). -/
theorem spacingOk_creep (d : Density) {g : Nat} (v : Nat) {ps : List Proto} (h1 : 1 ≤ g) (h6 : g ≤ 6)
    (h : ∀ p : Pin, (columnsOfPin ps p).Pairwise (· < ·)) :
    spacingOk d.counts (spacingOf (pinCycle (driveTimeOf g v)) .creep) ps = true := by
  refine (spacingOk_iff h).mpr fun p a _ b _ hab => (spacingOf_creep_le v h1 h6).trans ?_
  calc 2 ≤ d.counts := d.two_le_counts
    _ ≤ (b - a) * d.counts := Nat.le_mul_of_pos_left _ (by omega)

/-! ## The class that a condition leaves (R45, R49) -/

theorem mem_classesFrom {c d : SpeedClass} : d ∈ classesFrom c ↔ c.rank ≤ d.rank := by
  cases c <;> cases d <;> decide

theorem classesFrom_pairwise (c : SpeedClass) : (classesFrom c).Pairwise (·.rank < ·.rank) := by
  cases c <;> decide

theorem SpeedClass.rank_le_creep (c : SpeedClass) : c.rank ≤ SpeedClass.creep.rank := by cases c <;> decide

/-- Of classes from fastest to slowest, those faster than the first that passes do not pass. -/
theorem find?_faster {ok : SpeedClass → Bool} {cs : List SpeedClass} {e : SpeedClass}
    (sorted : cs.Pairwise (·.rank < ·.rank)) (found : cs.find? ok = some e) :
    ∀ d ∈ cs, d.rank < e.rank → ok d = false := by
  obtain ⟨-, before, after, rfl, fails⟩ := List.find?_eq_some_iff_append.mp found
  intro d hd faster
  rcases List.mem_append.mp hd with hd | hd
  · simpa using fails d hd
  · have slower := (List.pairwise_cons.mp (List.pairwise_append.mp sorted).2.1).1
    rcases List.mem_cons.mp hd with rfl | hd
    · omega
    · have := slower d hd; omega

/-- Everything about the class that a condition leaves: it is no faster than the first, every faster one fails the
condition, and it passes or is CREEP. -/
theorem lowerUntil_spec (ok : SpeedClass → Bool) (c : SpeedClass) :
    c.rank ≤ (lowerUntil ok c).rank ∧
      (∀ d, c.rank ≤ d.rank → d.rank < (lowerUntil ok c).rank → ok d = false) ∧
      (ok (lowerUntil ok c) = true ∨ lowerUntil ok c = .creep) := by
  cases found : (classesFrom c).find? ok with
  | some e =>
    have he : lowerUntil ok c = e := by rw [lowerUntil, found]; rfl
    rw [he]
    exact ⟨mem_classesFrom.mp (List.mem_of_find?_eq_some found),
      fun d hd => find?_faster (classesFrom_pairwise c) found d (mem_classesFrom.mpr hd),
      .inl (List.find?_some found)⟩
  | none =>
    have he : lowerUntil ok c = .creep := by rw [lowerUntil, found]; rfl
    rw [he]
    exact ⟨c.rank_le_creep,
      fun d hd _ => by simpa using List.find?_eq_none.mp found d (mem_classesFrom.mpr hd), .inr rfl⟩

/-- A condition that CREEP passes holds of the class it leaves. -/
theorem lowerUntil_ok {ok : SpeedClass → Bool} (c : SpeedClass) (h : ok .creep = true) :
    ok (lowerUntil ok c) = true := by
  obtain passes | creep := (lowerUntil_spec ok c).2.2
  · exact passes
  · rw [creep]; exact h

/-! ## The points of a pass (R49) -/

theorem leastOf_eq_iff {l : List Int} (h : l ≠ []) {x : Int} : leastOf l = x ↔ x ∈ l ∧ ∀ y ∈ l, x ≤ y := by
  cases l with
  | nil => exact (h rfl).elim
  | cons a l => rw [← List.min?_eq_some_iff, List.min?_cons', Option.some_inj]; rfl

theorem greatestOf_eq_iff {l : List Int} (h : l ≠ []) {x : Int} : greatestOf l = x ↔ x ∈ l ∧ ∀ y ∈ l, y ≤ x := by
  cases l with
  | nil => exact (h rfl).elim
  | cons a l => rw [← List.max?_eq_some_iff, List.max?_cons', Option.some_inj]; rfl

theorem triggersOf_ne_nil {d : Dir} {k : SpeedClass} {gap : Nat} {trim : Int} {ps : List Proto} (h : ps ≠ []) :
    triggersOf d k gap trim ps ≠ [] := by
  simpa [triggersOf] using h

/-- The points of a pass lie a ramp distance beyond its least and its greatest trigger count (R49). -/
theorem pointsOf_spec (d : Dir) (k : SpeedClass) (gap : Nat) (trim : Int) {ps : List Proto} (h : ps ≠ []) :
    ((pointsOf d k gap trim ps).1 + k.ramp ∈ triggersOf d k gap trim ps ∧
      ∀ t ∈ triggersOf d k gap trim ps, (pointsOf d k gap trim ps).1 + k.ramp ≤ t) ∧
    ((pointsOf d k gap trim ps).2 - k.ramp ∈ triggersOf d k gap trim ps ∧
      ∀ t ∈ triggersOf d k gap trim ps, t ≤ (pointsOf d k gap trim ps).2 - k.ramp) := by
  have hne : triggersOf d k gap trim ps ≠ [] := triggersOf_ne_nil h
  rw [← leastOf_eq_iff hne, ← greatestOf_eq_iff hne, pointsOf]
  omega

/-- The trigger count of a dot at `x` for a pin of either pin column, at a legal gap and trim: at most 80 counts before it and
at most 15 beyond it (R1, R6, R8 to R10). -/
theorem triggerOf_range (d : Dir) (k : SpeedClass) {gap : Nat} {trim base x : Int} (hgap : gap ≤ 6)
    (htrim : -8 ≤ trim ∧ trim ≤ 7) (hbase : base = x ∨ base = x - 72) :
    x - 80 ≤ triggerOf d (targetOf d base (leadOf k gap) trim) ∧
      triggerOf d (targetOf d base (leadOf k gap) trim) ≤ x + 15 := by
  have lead := leadOf_le k hgap
  generalize leadOf k gap = n at lead ⊢
  cases d with
  | right => rw [triggerOf_targetOf_right]; omega
  | left => rw [triggerOf_targetOf_left]; omega

/-- A base is a dot's position less the offset of its pin column (R1). -/
theorem Proto.base_cases (y : Proto) :
    y.base = y.base + (if y.col = .colA then 0 else 72) ∨ y.base = y.base + (if y.col = .colA then 0 else 72) - 72 := by
  split <;> omega

/-- Both points of a pass lie in travel (R49). -/
def fitsTravel (i : PlanInputs) (d : Dir) (ps : List Proto) (k : SpeedClass) : Bool :=
  inTravel i.width (pointsOf d k i.gap i.trim ps).1 && inTravel i.width (pointsOf d k i.gap i.trim ps).2

theorem rampClass_eq (i : PlanInputs) (d : Dir) (ps : List Proto) (c : SpeedClass) :
    rampClass i d ps c = lowerUntil (fitsTravel i d ps) c := rfl

theorem fitsTravel_iff (i : PlanInputs) (d : Dir) (ps : List Proto) (k : SpeedClass) :
    fitsTravel i d ps k = true ↔
      0 ≤ (pointsOf d k i.gap i.trim ps).1 ∧ (pointsOf d k i.gap i.trim ps).1 ≤ travelMost i.width ∧
        0 ≤ (pointsOf d k i.gap i.trim ps).2 ∧ (pointsOf d k i.gap i.trim ps).2 ≤ travelMost i.width := by
  simp [fitsTravel, inTravel, and_assoc]

/-- The ramps of CREEP fit around every pass of dots in the printable window, at a legal gap and trim (R17). -/
theorem fitsTravel_creep {i : PlanInputs} (d : Dir) {ps : List Proto} (hne : ps ≠ []) (hgap : i.gap ≤ 6)
    (htrim : -8 ≤ i.trim ∧ i.trim ≤ 7)
    (window : ∀ y ∈ ps, 216 ≤ y.base + (if y.col = .colA then 0 else 72) ∧
      y.base + (if y.col = .colA then 0 else 72) ≤ windowMost i.width) :
    fitsTravel i d ps .creep = true := by
  have range : ∀ t ∈ triggersOf d .creep i.gap i.trim ps, 136 ≤ t ∧ t ≤ windowMost i.width + 15 := by
    intro t ht
    obtain ⟨y, hy, rfl⟩ := List.mem_map.mp ht
    have inside := window y hy
    have := triggerOf_range d .creep hgap htrim y.base_cases
    omega
  obtain ⟨⟨least, -⟩, greatest, -⟩ := pointsOf_spec d .creep i.gap i.trim hne
  have low := range _ least
  have high := range _ greatest
  have ramp : (SpeedClass.creep.ramp : Int) = 72 := rfl
  have room : (windowMost i.width : Int) + 87 ≤ travelMost i.width ∧ (0 : Int) ≤ windowMost i.width := by
    cases i.width <;> decide
  rw [fitsTravel_iff]
  omega

/-! ## The class of a pass -/

theorem startingClass_rank (t : Level) (c : SpeedClass) :
    (startingClass t c).rank = max c.rank (match t with | .cool => 0 | .warm => 1 | .hot => 2 | .limit => 2) := by
  cases t <;> cases c <;> rfl

/-- Settles O39: each class is what a condition leaves of those from its start (`lowerUntil_spec`), and CREEP meets both
conditions at a legal gap and trim. -/
theorem passClassIsLegal : Obligations.PassClassIsLegal := by
  unfold Obligations.PassClassIsLegal
  refine ⟨fun k n ps => spacingOk_iff, startingClass_rank, ?spacing, ?ramps, ?range, ?points, by decide, by decide, ?plan⟩
  case spacing =>
    intro i f ps c ok hc hok
    have class_eq : c = lowerUntil ok (startingClass i.thermal f.ceiling) := by
      rw [hc, show ok = _ from funext hok]; rfl
    obtain ⟨slower, fails, -⟩ := lowerUntil_spec ok (startingClass i.thermal f.ceiling)
    rw [class_eq]
    refine ⟨slower, fails, fun h1 h6 sorted => lowerUntil_ok _ ?_⟩
    rw [hok]
    exact spacingOk_creep f.density i.supply h1 h6 sorted
  case ramps =>
    intro i d ps c e ok he hok
    have fits : ∀ k, ok k ↔ fitsTravel i d ps k = true := fun k => (hok k).trans (fitsTravel_iff i d ps k).symm
    obtain ⟨slower, fails, passes⟩ := lowerUntil_spec (fitsTravel i d ps) c
    rw [he, rampClass_eq]
    refine ⟨slower, fun k hk faster => ?_, passes.imp_left (fits _).mpr, fun most hmost hne h1 h6 t1 t2 window => ?_⟩
    · rw [fits, fails k hk faster]; exact Bool.false_ne_true
    · have limit : most = windowMost i.width := by rw [hmost]; cases i.width <;> rfl
      exact (fits _).mpr (lowerUntil_ok c (fitsTravel_creep d hne h6 ⟨t1, t2⟩ (limit ▸ window)))
  case range =>
    intro d k gap trim base x most h1 h6 t1 t2 low high hbase
    have := triggerOf_range d k h6 ⟨t1, t2⟩ hbase
    omega
  case points =>
    rintro d k gap trim ps ts x hne rfl rfl
    obtain ⟨⟨a, b⟩, c, e⟩ := pointsOf_spec d k gap trim hne
    exact ⟨a, b, c, e⟩
  case plan =>
    rintro i f p fixed ps q rfl
    exact makePlan_cls i f p fixed ps

end Sys2Proof.Machine

namespace Sys2Proof.Machine

/-! ## The entries that the dots of a pass make (R44, R46, R51) -/

theorem getLsbD_columnPins (k : PinColumn) (i : Pin) :
    (columnPins k).getLsbD i.val = decide (i.val % 2 = if k = .colA then 0 else 1) := by
  revert i; cases k <;> decide

/-- The pin that strikes a row: its own, or in a substitution pass its neighbour (R44). -/
theorem PassId.getLsbD_pinsOfRows (p : PassId) (m : Rows) (i : Pin) :
    (p.pinsOfRows m).getLsbD i.val = match p with
      | .up _ => m.getLsbD (i.val + 1)
      | .down _ => decide (1 ≤ i.val) && m.getLsbD (i.val - 1)
      | _ => m.getLsbD i.val := by
  have pin := i.isLt
  cases p with
  | main _ => rfl
  | repair => rfl
  | up _ => simp only [PassId.pinsOfRows, BitVec.getLsbD_ushiftRight, Nat.add_comm]
  | down _ =>
    rw [PassId.pinsOfRows, BitVec.getLsbD_shiftLeft, decide_eq_true pin, Bool.true_and, ← decide_not]
    simp only [Nat.not_lt]

/-- A mask of pins is one pin column's part of the pins that strike the rows, pin by pin. -/
theorem pins_eq_iff {p : PassId} {m pins : Rows} {k : PinColumn} {strikes : Pin → Bool}
    (h : ∀ i : Pin, strikes i = (p.pinsOfRows m).getLsbD i.val) :
    pins = p.pinsOfRows m &&& columnPins k ↔
      ∀ i : Pin, pins.getLsbD i.val = (strikes i && decide (i.val % 2 = if k = .colA then 0 else 1)) := by
  simp only [h, ← getLsbD_columnPins, ← BitVec.getLsbD_and]
  exact ⟨fun e i => by rw [e], fun e => BitVec.eq_of_getLsbD_eq fun i hi => e ⟨i, hi⟩⟩

theorem mem_protoAt {f : LineFields} {c : Nat} {pins : Rows} {k : PinColumn} {x : Proto} :
    x ∈ protoAt f c pins k ↔ x.pins ≠ 0 ∧ x.column = c ∧ x.col = k ∧ x.pins = pins &&& columnPins k ∧
      x.base = (paperPosition f c : Int) - columnOffset k := by
  obtain ⟨column, col, mask, base⟩ := x
  unfold protoAt
  split
  · next none => simp only [List.not_mem_nil, false_iff]; rintro ⟨some, -, -, rfl, -⟩; exact some none
  · next some =>
    simp only [List.mem_singleton, Proto.mk.injEq]
    constructor
    · rintro ⟨rfl, rfl, rfl, rfl⟩; exact ⟨some, rfl, rfl, rfl, rfl⟩
    · rintro ⟨-, rfl, rfl, rfl, rfl⟩; exact ⟨rfl, rfl, rfl, rfl⟩

/-- The entries of one dot column of a pass, column A first. -/
theorem mem_protosOf {f : LineFields} {p : PassId} {d : DotSet} {x : Proto} :
    x ∈ protosOf f p d ↔ x.pins ≠ 0 ∧ ∃ m, (x.column, m) ∈ d ∧ x.pins = p.pinsOfRows m &&& columnPins x.col ∧
      x.base = (paperPosition f x.column : Int) - columnOffset x.col := by
  simp only [protosOf, List.mem_flatten, List.mem_map, exists_exists_and_eq_and, List.mem_append, mem_protoAt]
  constructor
  · rintro ⟨⟨c, m⟩, hd, ⟨some, rfl, hk, pins, base⟩ | ⟨some, rfl, hk, pins, base⟩⟩
    all_goals rw [← hk] at pins base; exact ⟨some, m, hd, pins, base⟩
  · rintro ⟨some, m, hd, pins, base⟩
    refine ⟨_, hd, ?_⟩
    cases hk : x.col
    · rw [hk] at pins base; exact .inl ⟨some, rfl, rfl, pins, base⟩
    · rw [hk] at pins base; exact .inr ⟨some, rfl, rfl, pins, base⟩

/-- Of entries in ascending order of dot column, the column A entry of a column stands first. -/
def Proto.precedes (a b : Proto) : Prop :=
  a.column < b.column ∨ (a.column = b.column ∧ a.col = .colA ∧ b.col = .colB)

theorem protoAt_pairwise (f : LineFields) (c : Nat) (pins : Rows) (k : PinColumn) :
    (protoAt f c pins k).Pairwise Proto.precedes := by
  unfold protoAt
  split
  · exact .nil
  · exact List.pairwise_singleton _ _

theorem protosOf_pairwise (f : LineFields) (p : PassId) {d : DotSet} (h : ascending d) :
    (protosOf f p d).Pairwise Proto.precedes := by
  rw [protosOf, List.pairwise_flatten, List.forall_mem_map, List.pairwise_map]
  constructor
  · intro y _
    refine List.pairwise_append.mpr ⟨protoAt_pairwise .., protoAt_pairwise .., fun a ha b hb => ?_⟩
    obtain ⟨-, ca, ka, -⟩ := mem_protoAt.mp ha
    obtain ⟨-, cb, kb, -⟩ := mem_protoAt.mp hb
    exact .inr ⟨ca.trans cb.symm, ka, kb⟩
  · refine (List.pairwise_map.mp h).imp fun {y z} hyz a ha b hb => ?_
    have column : ∀ {c : Nat} {pins : Rows} {x : Proto},
        x ∈ protoAt f c pins .colA ++ protoAt f c pins .colB → x.column = c := by
      intro c pins x hx
      rcases List.mem_append.mp hx with hx | hx <;> exact (mem_protoAt.mp hx).2.1
    exact .inl (by rw [column ha, column hb]; exact hyz)

/-! ## The order of a strike list (R52) -/

/-- The place of an entry in the order of travel: twice the position in the direction of travel, and one more for column B, so
that at equal positions the column A entry stands first (R52). -/
def Proto.place (d : Dir) (x : Proto) : Int := 2 * (d.delta * x.base) + if x.col = .colA then 0 else 1

theorem Dir.delta_mul_inj (d : Dir) {x y : Int} : d.delta * x = d.delta * y ↔ x = y := by
  cases d <;> simp [Dir.delta]

theorem protoBefore_iff {d : Dir} {a b : Proto} : protoBefore d a b = true ↔
    d.delta * a.base < d.delta * b.base ∨ (a.base = b.base ∧ a.col = .colA) := by
  cases d <;> simp [protoBefore, Dir.delta]

theorem place_le_iff {d : Dir} {a b : Proto} : a.place d ≤ b.place d ↔
    d.delta * a.base < d.delta * b.base ∨ (a.base = b.base ∧ (a.col = .colA ∨ b.col = .colB)) := by
  have same := d.delta_mul_inj (x := a.base) (y := b.base)
  rw [Proto.place, Proto.place, ← same]
  generalize d.delta * a.base = u, d.delta * b.base = v
  cases a.col <;> cases b.col <;> simp only [reduceCtorEq, if_true, if_false, or_true, or_false, and_true, and_false] <;>
    omega

theorem place_le_of_protoBefore {d : Dir} {a b : Proto} (h : protoBefore d a b = true) : a.place d ≤ b.place d :=
  place_le_iff.mpr ((protoBefore_iff.mp h).imp_right fun ⟨same, first⟩ => ⟨same, .inl first⟩)

theorem place_le_of_not_protoBefore {d : Dir} {a b : Proto} (h : ¬ protoBefore d a b = true) :
    b.place d ≤ a.place d := by
  rw [protoBefore_iff, not_or, not_and] at h
  obtain ⟨notBefore, notFirst⟩ := h
  have colB : a.col ≠ .colA → a.col = .colB := by cases a.col <;> simp
  refine place_le_iff.mpr ((lt_or_eq_of_le (not_lt.mp notBefore)).imp_right fun e => ?_)
  have same := d.delta_mul_inj.mp e
  exact ⟨same, .inr (colB (notFirst same.symm))⟩

/-- `b` does not lie before `a` in the direction of travel. -/
def Proto.reachedBy (d : Dir) (a b : Proto) : Prop := d.delta * a.base ≤ d.delta * b.base

theorem reachedBy_of_place_le {d : Dir} {a b : Proto} (h : a.place d ≤ b.place d) : a.reachedBy d b :=
  (place_le_iff.mp h).elim le_of_lt fun e => le_of_eq (d.delta_mul_inj.mpr e.1)

/-- Entries whose places do not fall. -/
def inTravelOrder (d : Dir) (ps : List Proto) : Prop := ps.Pairwise (fun a b => a.place d ≤ b.place d)

theorem insertProto_sorted {d : Dir} (x : Proto) {ys : List Proto} (h : inTravelOrder d ys) :
    inTravelOrder d (insertProto d x ys) := by
  induction ys with
  | nil => exact List.pairwise_singleton _ x
  | cons y ys ih =>
    obtain ⟨first, later⟩ := List.pairwise_cons.mp h
    simp only [insertProto]
    split
    · next hxy =>
      have hxy := place_le_of_protoBefore hxy
      refine List.pairwise_cons.mpr ⟨fun z hz => ?_, h⟩
      rcases List.mem_cons.mp hz with rfl | hz
      · exact hxy
      · exact hxy.trans (first z hz)
    · next hxy =>
      refine List.pairwise_cons.mpr ⟨fun z hz => ?_, ih later⟩
      rcases List.mem_cons.mp ((insertProto_perm d x ys).mem_iff.mp hz) with rfl | hz
      · exact place_le_of_not_protoBefore hxy
      · exact first z hz

theorem foldr_insertProto_sorted (d : Dir) (ps : List Proto) :
    inTravelOrder d (ps.foldr (insertProto d) []) := by
  induction ps with
  | nil => exact .nil
  | cons p ps ih => exact insertProto_sorted p ih

theorem sortProtos_sorted (d : Dir) (ps : List Proto) : inTravelOrder d (sortProtos d ps) := by
  cases d with
  | right => exact foldr_insertProto_sorted .right ps
  | left => exact foldr_insertProto_sorted .left ps.reverse

/-- The first of the sorted entries lies before all of them in the direction of travel. -/
theorem sortProtos_head {d : Dir} {ps : List Proto} {x : Proto} (h : (sortProtos d ps).head? = some x) :
    x ∈ ps ∧ ∀ y ∈ ps, x.reachedBy d y := by
  obtain ⟨rest, e⟩ := List.head?_eq_some_iff.mp h
  have sorted := sortProtos_sorted d ps
  simp only [← (sortProtos_perm d ps).mem_iff, e] at sorted ⊢
  refine ⟨List.mem_cons_self, fun y hy => ?_⟩
  rcases List.mem_cons.mp hy with rfl | hy
  · exact le_refl (d.delta * y.base)
  · exact reachedBy_of_place_le ((List.pairwise_cons.mp sorted).1 y hy)

/-- The last of the sorted entries lies beyond all of them in the direction of travel. -/
theorem sortProtos_last {d : Dir} {ps : List Proto} {x : Proto} (h : (sortProtos d ps).getLast? = some x) :
    x ∈ ps ∧ ∀ y ∈ ps, y.reachedBy d x := by
  obtain ⟨before, e⟩ := List.getLast?_eq_some_iff.mp h
  have sorted := sortProtos_sorted d ps
  simp only [← (sortProtos_perm d ps).mem_iff, e] at sorted ⊢
  refine ⟨List.mem_append_right _ (List.mem_singleton_self x), fun y hy => ?_⟩
  rcases List.mem_append.mp hy with hy | hy
  · exact reachedBy_of_place_le ((List.pairwise_append.mp sorted).2.2 y hy x (List.mem_singleton_self x))
  · rw [List.mem_singleton.mp hy]; exact le_refl (d.delta * x.base)

/-! ## The first and the last trigger count (R49, R52) -/

theorem triggerOf_mono (d : Dir) {a b : Int} (lead : Nat) (trim : Int) (h : a ≤ b) :
    triggerOf d (targetOf d a lead trim) ≤ triggerOf d (targetOf d b lead trim) := by
  have := triggerOf_targetOf_add d a (b - a) lead trim
  rw [add_sub_cancel] at this
  omega

theorem leastOf_triggersOf {d : Dir} {k : SpeedClass} {gap : Nat} {trim : Int} {ps : List Proto} {x : Proto}
    (hx : x ∈ ps) (least : ∀ y ∈ ps, x.base ≤ y.base) :
    leastOf (triggersOf d k gap trim ps) = triggerOf d (targetOf d x.base (leadOf k gap) trim) := by
  rw [leastOf_eq_iff (triggersOf_ne_nil (List.ne_nil_of_mem hx)), triggersOf]
  exact ⟨List.mem_map_of_mem hx, List.forall_mem_map.mpr fun y hy => triggerOf_mono d _ _ (least y hy)⟩

theorem greatestOf_triggersOf {d : Dir} {k : SpeedClass} {gap : Nat} {trim : Int} {ps : List Proto} {x : Proto}
    (hx : x ∈ ps) (greatest : ∀ y ∈ ps, y.base ≤ x.base) :
    greatestOf (triggersOf d k gap trim ps) = triggerOf d (targetOf d x.base (leadOf k gap) trim) := by
  rw [greatestOf_eq_iff (triggersOf_ne_nil (List.ne_nil_of_mem hx)), triggersOf]
  exact ⟨List.mem_map_of_mem hx, List.forall_mem_map.mpr fun y hy => triggerOf_mono d _ _ (greatest y hy)⟩

/-! ## The plan of a pass -/

/-- The first of two values in the direction of travel, given the lower and the upper. -/
def Dir.firstOf {α : Type} (d : Dir) (lower upper : α) : α :=
  match d with
  | .right => lower
  | .left => upper

section
variable {i : PlanInputs} {f : LineFields} {p : PassId} {fixed : Option Dir} {ps : List Proto} {q : PassPlan}

/-- The trigger counts and the points of a plan, from the extremes of its trigger counts (R49, R52). -/
theorem makePlan_ends (h : q = makePlan i f p fixed ps) {ts : List Int} (hts : ts = triggersOf q.dir q.cls i.gap i.trim ps) :
    q.firstTrigger = q.dir.firstOf (leastOf ts) (greatestOf ts) ∧
      q.lastTrigger = q.dir.firstOf (greatestOf ts) (leastOf ts) ∧
      q.startPoint = q.dir.firstOf (leastOf ts - q.cls.ramp) (greatestOf ts + q.cls.ramp) ∧
      q.endPoint = q.dir.firstOf (greatestOf ts + q.cls.ramp) (leastOf ts - q.cls.ramp) := by
  subst h hts
  exact ⟨rfl, rfl, rfl, rfl⟩

/-- The first trigger count of a plan is that of its first entry (R52). -/
theorem makePlan_firstTrigger (h : q = makePlan i f p fixed ps) {a : StrikeEntry} (ha : q.entries.head? = some a) :
    q.firstTrigger = a.trigger := by
  obtain ⟨ends, -⟩ := makePlan_ends h rfl
  rw [h, makePlan_entries, ← h, List.head?_map, Option.map_eq_some_iff] at ha
  obtain ⟨x, hx, rfl⟩ := ha
  obtain ⟨mem, first⟩ := sortProtos_head hx
  simp only [Proto.reachedBy] at first
  have lead : q.lead = leadOf q.cls i.gap := by rw [h, makePlan_lead]
  rw [ends, lead]
  cases hd : q.dir with
  | right => exact leastOf_triggersOf mem (by simpa [hd, Dir.delta] using first)
  | left => exact greatestOf_triggersOf mem (by simpa [hd, Dir.delta] using first)

/-- The last trigger count of a plan is that of its last entry (R52). -/
theorem makePlan_lastTrigger (h : q = makePlan i f p fixed ps) {b : StrikeEntry} (hb : q.entries.getLast? = some b) :
    q.lastTrigger = b.trigger := by
  obtain ⟨-, ends, -⟩ := makePlan_ends h rfl
  rw [h, makePlan_entries, ← h, List.getLast?_map, Option.map_eq_some_iff] at hb
  obtain ⟨x, hx, rfl⟩ := hb
  obtain ⟨mem, last⟩ := sortProtos_last hx
  simp only [Proto.reachedBy] at last
  have lead : q.lead = leadOf q.cls i.gap := by rw [h, makePlan_lead]
  rw [ends, lead]
  cases hd : q.dir with
  | right => exact greatestOf_triggersOf mem (by simpa [hd, Dir.delta] using last)
  | left => exact leastOf_triggersOf mem (by simpa [hd, Dir.delta] using last)

/-- The points of a plan lie a ramp distance before its first and beyond its last trigger count (R49). -/
theorem makePlan_points (h : q = makePlan i f p fixed ps) :
    q.startPoint = q.firstTrigger - q.dir.firstOf (q.cls.ramp : Int) (-q.cls.ramp) ∧
      q.endPoint = q.lastTrigger + q.dir.firstOf (q.cls.ramp : Int) (-q.cls.ramp) := by
  obtain ⟨first, last, start, stop⟩ := makePlan_ends h rfl
  rw [first, last, start, stop]
  cases q.dir with
  | right => exact ⟨rfl, rfl⟩
  | left => exact ⟨(sub_neg_eq_add _ _).symm, sub_eq_add_neg _ _⟩

/-- The targets of a plan's entries are in the order of travel, column A first at equal targets (R52). -/
theorem makePlan_pairwise (h : q = makePlan i f p fixed ps) : q.entries.Pairwise (fun a b =>
    q.dir.delta * a.target < q.dir.delta * b.target ∨ (a.target = b.target ∧ (a.col = .colA ∨ b.col = .colB))) := by
  rw [h, makePlan_entries, ← h, List.pairwise_map]
  refine (sortProtos_sorted _ ps).imp fun {a b} order => ?_
  refine (place_le_iff.mp order).imp (fun lt => ?_) (fun ⟨same, cols⟩ => ⟨?_, cols⟩)
  · generalize q.dir = d at lt ⊢
    cases d <;> simp only [Dir.delta, Proto.entry, targetOf] at lt ⊢ <;> omega
  · simp only [Proto.entry, same]

/-- The strike list of a plan holds the entries of its dots, each with its target (R51, R52). -/
theorem makePlan_perm (h : q = makePlan i f p fixed ps) :
    (q.entries.map (fun e => (e.column, e.col, e.rowMask, e.target))).Perm
      (ps.map (fun x => (x.column, x.col, x.pins, targetOf q.dir x.base q.lead i.trim))) := by
  rw [h, makePlan_entries, List.map_map]
  exact (sortProtos_perm _ ps).map _

/-! ## The direction (R47, R48) -/

/-- The direction of a plan: that of a repair pass, the one that R47 forces, or that of AUTO. -/
theorem makePlan_dir (h : q = makePlan i f p fixed ps) :
    q.dir = (fixed.or (forcedDir f i.uni)).getD (autoDir (spacingClass i f ps) i.gap i.trim i.position ps) := by
  subst h
  cases fixed with
  | some d => rfl
  | none =>
    rw [Option.none_or]
    unfold makePlan
    dsimp only
    split
    · next e => cases e
    · next e => rw [e]; rfl
    · next e => rw [e]; rfl

theorem forcedDir_of_uni {uni : Bool} (h : f.unidirAlign = true ∨ uni = true) : forcedDir f uni = some .right := by
  rw [forcedDir, if_pos (by simpa using h)]

theorem forcedDir_of_free {uni : Bool} (ha : f.unidirAlign = false) (hu : uni = false) :
    forcedDir f uni = match f.dirRequest with
      | .right => some .right
      | .left => some .left
      | .auto => none :=
  if_neg (by simp [ha, hu])

/-- Under AUTO the direction is rightward when its start point is at most as far as the leftward one (R48). -/
theorem autoDir_eq_right_iff (c : SpeedClass) (gap : Nat) (trim pos : Int) (ps : List Proto) :
    autoDir c gap trim pos ps = .right ↔
      (pos - (pointsOf .right c gap trim ps).1).natAbs ≤ (pos - (pointsOf .left c gap trim ps).2).natAbs := by
  unfold autoDir
  dsimp only
  split <;> simp [*]

end

/-- Settles O40: membership and order of the entries from the dots (`mem_protosOf`, `protosOf_pairwise`), the strike list as
their sorted permutation, and its ends and direction from the plan. -/
theorem strikeListIsInTravelOrder : Obligations.StrikeListIsInTravelOrder := by
  unfold Obligations.StrikeListIsInTravelOrder
  constructor
  · intro f p d strikes sorted hstrikes
    refine ⟨protosOf_pairwise f p sorted, fun x => ?_⟩
    have pins : ∀ m, x.pins = p.pinsOfRows m &&& columnPins x.col ↔ _ := fun m =>
      pins_eq_iff fun i => (hstrikes m i).trans (p.getLsbD_pinsOfRows m i).symm
    have offset : columnOffset x.col = if x.col = .colA then 0 else 72 := by cases x.col <;> rfl
    simp only [mem_protosOf, pins, offset]
    rfl
  intro i f p fixed ps q hq
  have order := makePlan_pairwise hq
  have dir := makePlan_dir hq
  refine ⟨makePlan_perm hq, ?inputs, ?ends, ?entries, ?rightward, ?leftward, ?fixed, ?uni, ?free⟩
  case inputs =>
    subst hq
    refine ⟨rfl, rfl, rfl, rfl, decide_eq_true_iff, rfl, ?_⟩
    cases p <;> rfl
  case ends =>
    intro a b r ha hb hr
    have ramp : r = q.dir.firstOf (q.cls.ramp : Int) (-q.cls.ramp) := by rw [hr]; cases q.dir <;> rfl
    have first := makePlan_firstTrigger hq ha
    have last := makePlan_lastTrigger hq hb
    rw [ramp, ← first, ← last]
    exact ⟨rfl, rfl, makePlan_points hq⟩
  case entries =>
    intro e he
    rw [hq, mem_makePlan_entries] at he
    obtain ⟨x, -, rfl⟩ := he
    subst hq
    exact ⟨rfl, rfl, rfl⟩
  case rightward =>
    intro hd
    simpa [hd, Dir.delta] using order
  case leftward =>
    intro hd
    simpa [hd, Dir.delta] using order
  case fixed =>
    rintro d rfl
    exact dir
  case uni =>
    rintro rfl h
    rw [dir, forcedDir_of_uni h]
    rfl
  case free =>
    rintro rfl ha hu
    rw [forcedDir_of_free ha hu] at dir
    refine ⟨fun h => by rw [dir, h]; rfl, fun h => by rw [dir, h]; rfl, ?_⟩
    intro cls r l auto hne hcls least atLeast greatest atGreatest
    have start : leastOf (triggersOf .right cls i.gap i.trim ps) = r + cls.ramp := by
      obtain ⟨x, hx, e⟩ := atLeast
      exact (leastOf_eq_iff (triggersOf_ne_nil hne)).mpr
        ⟨List.mem_map.mpr ⟨x, hx, e.symm⟩, List.forall_mem_map.mpr least⟩
    have stop : greatestOf (triggersOf .left cls i.gap i.trim ps) = l - cls.ramp := by
      obtain ⟨x, hx, e⟩ := atGreatest
      exact (greatestOf_eq_iff (triggersOf_ne_nil hne)).mpr
        ⟨List.mem_map.mpr ⟨x, hx, e⟩, List.forall_mem_map.mpr greatest⟩
    have points : (pointsOf .right cls i.gap i.trim ps).1 = r ∧ (pointsOf .left cls i.gap i.trim ps).2 = l := by
      simp only [pointsOf, start, stop]; omega
    obtain ⟨hr, hl⟩ := points
    rw [← hr, ← hl, ← autoDir_eq_right_iff, dir, auto, hcls]
    rfl

end Sys2Proof.Machine

namespace Sys2Proof.Machine

/-! ## The queue of commands and the straps (R3, R185)

`State.kept` is what no command but POWER_ON_RESET changes. Each operation of the model has one lemma here: it leaves
`State.kept` as it is. The lemmas stand in the order of the model's files, and each composite cites those of its parts. -/

/-- The queue of waiting commands, and the straps as latched. -/
def State.kept (s : State) : List Instr × Width × Bool := (s.pending, s.width, s.edgeFitted)

/-- Any update of the other fields. -/
@[simp] theorem State.kept_update (s : State) (port : PerLink LinkPort) (store : PerLink LinkStore) (acceptCount : Nat)
    (arb : Arbiter) (line : Option LineContext) (lists : Vector StrikeList 2) (dwell : Dwell) (car : Carriage)
    (sequ : Sequencer) (channels : Vector Channel 18) (health : Vector PinRecord 18) (test : Option TestContext)
    (heat : Thermal) (form : FormPosition) (map : FormMap) (drive : Drive) (steppers : Steppers)
    (tally : Vector TallyUnit 2) (freeIndex : Nat) :
    State.kept { s with port, store, acceptCount, arb, line, lists, dwell, car, sequ, channels, health, test, heat, form,
                        map, drive, steppers, tally, freeIndex } = s.kept := rfl

@[simp] theorem State.kept_ite (c : Prop) [Decidable c] (s t : State) :
    (if c then s else t).kept = if c then s.kept else t.kept := apply_ite State.kept c s t

/-- A fold of operations that each keep them. -/
theorem State.foldl_kept {α : Type} {op : State → α → State} (h : ∀ s x, (op s x).kept = s.kept) (xs : List α)
    (s : State) : (xs.foldl op s).kept = s.kept := by
  induction xs generalizing s with
  | nil => rfl
  | cons x xs ih => exact (ih _).trans (h s x)

/-! ### Shared operations -/

section
variable (s : State) (l : Link)

@[simp] theorem State.modifyPort_kept (f : LinkPort → LinkPort) : (s.modifyPort l f).kept = s.kept := rfl
@[simp] theorem State.modifyStore_kept (f : LinkStore → LinkStore) : (s.modifyStore l f).kept = s.kept := rfl
@[simp] theorem State.post_kept (n : Notice) : (s.post l n).kept = s.kept := rfl
@[simp] theorem State.postBoth_kept (n : Notice) : (s.postBoth n).kept = s.kept := rfl
@[simp] theorem State.reflow_kept : s.reflow.kept = s.kept := rfl
@[simp] theorem State.releaseHead_kept : (s.releaseHead l).kept = s.kept := rfl
@[simp] theorem State.purge_kept : (s.purge l).kept = s.kept := rfl
@[simp] theorem State.modifyHead_kept (f : Entry → Entry) : (s.modifyHead l f).kept = s.kept := rfl
@[simp] theorem State.modifyResult_kept (f : LineResult → LineResult) : (s.modifyResult l f).kept = s.kept := rfl
@[simp] theorem State.releaseHold_kept : s.releaseHold.kept = s.kept := rfl
@[simp] theorem State.modifyHalt_kept (f : HaltSet → HaltSet) : (s.modifyHalt f).kept = s.kept := rfl
@[simp] theorem State.modifyArb_kept (f : Arbiter → Arbiter) : (s.modifyArb f).kept = s.kept := rfl
@[simp] theorem State.setChannel_kept (p : Pin) (c : Channel) : (s.setChannel p c).kept = s.kept := rfl
@[simp] theorem State.setPinRecord_kept (p : Pin) (r : PinRecord) : (s.setPinRecord p r).kept = s.kept := rfl
@[simp] theorem State.addHeat_kept (p : Pin) (n : Nat) : (s.addHeat p n).kept = s.kept := rfl
@[simp] theorem State.setList_kept (i : Fin 2) (x : StrikeList) : (s.setList i x).kept = s.kept := rfl
@[simp] theorem State.dropPlan_kept : s.dropPlan.kept = s.kept := rfl
@[simp] theorem State.freeLists_kept : s.freeLists.kept = s.kept := rfl

@[simp] theorem State.accept_kept (r : Record) (n : Nat) (st : EntryState) : (s.accept l r n st).kept = s.kept := by
  rw [State.accept_frame]; rfl

@[simp] theorem State.completeEntry_kept : (s.completeEntry l).kept = s.kept := by
  rw [State.completeEntry_frame]; rfl

end

/-! ### The form -/

section
variable (s : State)

@[simp] theorem State.modifyForm_kept (f : FormPosition → FormPosition) : (s.modifyForm f).kept = s.kept := rfl
@[simp] theorem State.modifyMap_kept (f : FormMap → FormMap) : (s.modifyMap f).kept = s.kept := rfl
@[simp] theorem State.relength_kept : s.relength.kept = s.kept := rfl
@[simp] theorem State.stallCorrection_kept (k : Nat) : (s.stallCorrection k).kept = s.kept := rfl
@[simp] theorem State.beginLoad_kept : s.beginLoad.kept = s.kept := rfl
@[simp] theorem State.completeLoad_kept : s.completeLoad.kept = s.kept := rfl
@[simp] theorem State.paperArrives_kept : s.paperArrives.kept = s.kept := rfl
@[simp] theorem State.resetForm_kept : s.resetForm.kept = s.kept := rfl
@[simp] theorem State.setLength_kept (n : Nat) : (s.setLength n).kept = s.kept := rfl

theorem State.FormOnly.kept {t : State} (h : s.FormOnly t) : t.kept = s.kept := by
  rw [h]; rfl

@[simp] theorem State.formStep_kept (d : MoveDir) (paper mark : Bool) : (s.formStep d paper mark).kept = s.kept :=
  (State.FormOnly.formStep s d paper mark).kept

@[simp] theorem State.phaseCorrection_kept : s.phaseCorrection.kept = s.kept := by
  rw [State.phaseCorrection_frame]; rfl

@[simp] theorem State.judgeBoundary_kept (n : BitVec 16) (d : MoveDir) : (s.judgeBoundary n d).kept = s.kept := by
  obtain e | e := s.judgeBoundary_cases n d <;> simp [e]

@[simp] theorem State.edgeOff_kept : s.edgeOff.kept = s.kept := by simp [State.edgeOff]

@[simp] theorem State.changePath_kept (p : PaperPath) : (s.changePath p).kept = s.kept := by
  cases p <;> simp [State.changePath]

/-- Each field of SET FORM is present or absent, and a present one changes the map or the form alone (R133). -/
@[simp] theorem State.applySetForm_kept (r : SetFormFields) : (s.applySetForm r).1.kept = s.kept := by
  obtain ⟨length, tof, trim, skip, stops, lock⟩ := r
  cases length <;> cases tof <;> cases trim <;> cases skip <;> cases stops <;> simp [State.applySetForm]

end

/-! ### Strikes -/

section
variable (s : State) (a : PassId) (e : StrikeEntry)

@[simp] theorem State.modifySequ_kept (f : Sequencer → Sequencer) : (s.modifySequ f).kept = s.kept := rfl
@[simp] theorem State.handOver_kept : s.handOver.kept = s.kept := rfl
@[simp] theorem State.walkStop_kept : s.walkStop.kept = s.kept := rfl

@[simp] theorem State.walkReset_kept : s.walkReset.kept = s.kept := by simp [State.walkReset]

@[simp] theorem State.markStruck_kept (i : Nat) (p : Pin) : (s.markStruck i p).kept = s.kept := by
  rw [State.markStruck_frame]; rfl

@[simp] theorem State.missPin_kept (p : Pin) : (s.missPin a e p).kept = s.kept := by
  rw [State.missPin_frame]; rfl

@[simp] theorem State.missEntry_kept : (s.missEntry a e).kept = s.kept := by
  rw [State.missEntry_frame]; rfl

@[simp] theorem State.firePin_kept (i : Nat) (p : Pin) : (s.firePin a i e p).kept = s.kept := by
  obtain ⟨-, -, h⟩ | ⟨-, h⟩ := s.firePin_cases a i e p <;> simp [h]

@[simp] theorem State.fireEntry_kept (i : Nat) : (s.fireEntry i).kept = s.kept := by
  unfold State.fireEntry
  split
  · rfl
  split
  · rfl
  · simp [State.foldl_kept (fun t p => State.firePin_kept t _ _ i p)]

@[simp] theorem State.armEntry_kept (i : Nat) : (s.armEntry a i e).kept = s.kept := by
  unfold State.armEntry
  split <;> simp

@[simp] theorem State.reachHead_kept (x : Int) : (s.reachHead x).kept = s.kept := by
  unfold State.reachHead
  split
  · rfl
  split
  · rfl
  split
  · dsimp only
    split <;> simp
  · rfl

@[simp] theorem State.sequCount_kept (d : Dir) (x : Int) : (s.sequCount d x).kept = s.kept := by
  simp [State.sequCount]

@[simp] theorem State.walkStart_kept : s.walkStart.kept = s.kept := by
  unfold State.walkStart
  split
  · rfl
  split <;> simp

@[simp] theorem State.endTimer_kept (c : PinColumn) : (s.endTimer c).kept = s.kept := by
  unfold State.endTimer
  split
  · dsimp only
    split <;> simp
  · rfl

@[simp] theorem State.walkEnd_kept : s.walkEnd.kept = s.kept := by
  unfold State.walkEnd
  dsimp only
  split <;> simp [State.foldl_kept (fun t e => State.missEntry_kept t _ e)]

@[simp] theorem State.judgeFault_kept (p : Pin) (c : PinCause) : (s.judgeFault p c).kept = s.kept := by
  simp [State.judgeFault]

@[simp] theorem State.judgeGood_kept (p : Pin) : (s.judgeGood p).kept = s.kept := rfl

end

/-! ### The line -/

section
variable (s : State)

@[simp] theorem State.modifyLine_kept (f : LineContext → LineContext) : (s.modifyLine f).kept = s.kept := rfl
@[simp] theorem State.setStage_kept (g : LineStage) : (s.setStage g).kept = s.kept := rfl
@[simp] theorem State.setDue_kept (d : Option DueMove) : (s.setDue d).kept = s.kept := rfl
@[simp] theorem State.useFree_kept : s.useFree.kept = s.kept := rfl
@[simp] theorem State.putPlan_kept (q : PassPlan) : (s.putPlan q).kept = s.kept := rfl
@[simp] theorem State.freeStriking_kept : s.freeStriking.kept = s.kept := rfl

@[simp] theorem State.loseDots_kept (d : DotSet) (degraded : Bool) : (s.loseDots d degraded).kept = s.kept := by
  unfold State.loseDots
  split <;> simp

@[simp] theorem State.loseAll_kept : s.loseAll.kept = s.kept := by
  unfold State.loseAll
  split <;> simp

@[simp] theorem State.completeLine_kept : s.completeLine.kept = s.kept := by
  unfold State.completeLine
  split
  · rfl
  · dsimp only
    split <;> simp

@[simp] theorem State.finishLine_kept : s.finishLine.kept = s.kept := by simp [State.finishLine]

@[simp] theorem State.startFeed_kept : s.startFeed.kept = s.kept := by
  unfold State.startFeed
  split <;> simp

@[simp] theorem State.dropPhases_kept : s.dropPhases.kept = s.kept := by simp [State.dropPhases]

@[simp] theorem State.startDown_kept : s.startDown.kept = s.kept := by
  unfold State.startDown
  split <;> simp

@[simp] theorem State.startUp_kept : s.startUp.kept = s.kept := by
  unfold State.startUp
  split <;> simp

@[simp] theorem State.assignSubstitutes_kept : s.assignSubstitutes.kept = s.kept := by
  unfold State.assignSubstitutes
  split <;> simp

@[simp] theorem State.afterMain_kept : s.afterMain.kept = s.kept := by
  unfold State.afterMain
  split <;> simp

@[simp] theorem State.beginDwell_kept : s.beginDwell.kept = s.kept := by simp [State.beginDwell]

theorem State.afterEven_kept (odd : PassId) {otherwise : State → State} (h : (otherwise s).kept = s.kept) :
    (s.afterEven odd otherwise).kept = s.kept := by
  unfold State.afterEven
  split <;> simp [h]

@[simp] theorem State.afterPass_kept (p : PassId) : (s.afterPass p).kept = s.kept := by
  unfold State.afterPass
  split
  · rfl
  split
  · simp
  split <;> simp [State.afterEven_kept]

@[simp] theorem State.planPass_kept (p : PassId) (x : Int) : (s.planPass p x).1.kept = s.kept := by
  unfold State.planPass
  split
  · cases p <;> simp [apply_ite Prod.fst]
  · rfl

@[simp] theorem State.planNow_kept (p : PassId) : (s.planNow p).kept = s.kept := by
  have plan := s.planPass_kept p s.planPosition
  unfold State.planNow
  split
  all_goals
    next e => rw [e] at plan; simpa using plan

@[simp] theorem State.planOdd_kept (p : PassId) (x : Int) : (s.planOdd p x).kept = s.kept := by
  have plan := s.planPass_kept p x
  unfold State.planOdd
  split
  all_goals
    next e => rw [e] at plan; simpa using plan

@[simp] theorem State.countStruck_kept (q : PassPlan) : (s.countStruck q).kept = s.kept := by
  unfold State.countStruck
  split <;> simp

@[simp] theorem State.disposeMisses_kept (q : PassPlan) : (s.disposeMisses q).kept = s.kept := by
  unfold State.disposeMisses
  dsimp only
  split
  · split <;> simp
  all_goals simp

@[simp] theorem State.endPass_kept : s.endPass.kept = s.kept := by
  unfold State.endPass
  split <;> simp

@[simp] theorem State.markImperfect_kept : s.markImperfect.kept = s.kept := by
  unfold State.markImperfect
  split <;> simp

@[simp] theorem State.abandonPass_kept : s.abandonPass.kept = s.kept := by
  unfold State.abandonPass
  split <;> simp

@[simp] theorem State.lineMoveDone_kept : s.lineMoveDone.kept = s.kept := by
  unfold State.lineMoveDone
  split
  · rfl
  split <;> simp

@[simp] theorem State.lineJammed_kept : s.lineJammed.kept = s.kept := by
  unfold State.lineJammed
  split <;> simp

@[simp] theorem State.lineTail_kept : s.lineTail.kept = s.kept := by simp [State.lineTail]

@[simp] theorem State.takeUpLine_kept : s.takeUpLine.kept = s.kept := by
  obtain ⟨e, -⟩ | ⟨_, -, -, -, e⟩ := s.takeUpLine_cases <;> simp [e]

@[simp] theorem State.cancelLine_kept : s.cancelLine.kept = s.kept := by
  unfold State.cancelLine
  split
  · rfl
  · dsimp only
    split <;> simp

@[simp] theorem State.openLine_kept (l : Link) (f : LineFields) : (s.openLine l f).kept = s.kept := by
  simp [State.openLine]

end

/-! ### Coil tests -/

section
variable (s : State) (c : TestContext) (p : Pin) (o : CoilOutcome)

@[simp] theorem State.setTest_kept (x : Option TestContext) : (s.setTest x).kept = s.kept := rfl
@[simp] theorem State.cutAll_kept : s.cutAll.kept = s.kept := rfl
@[simp] theorem State.testPulse_kept : (s.testPulse c p).kept = s.kept := rfl

@[simp] theorem State.postPinFailed_kept (h : Health) : (s.postPinFailed p h o).kept = s.kept := by
  unfold State.postPinFailed
  split <;> simp

@[simp] theorem State.testAdvance_kept : (s.testAdvance c).kept = s.kept := by
  unfold State.testAdvance
  split <;> simp

@[simp] theorem State.testResult_kept : (s.testResult c p o).kept = s.kept := by simp [State.testResult]

@[simp] theorem State.testGo_kept (fuel : Nat) : (s.testGo fuel).kept = s.kept := by
  induction fuel generalizing s with
  | zero => rfl
  | succ fuel ih =>
    unfold State.testGo
    split
    · rfl
    split
    · split
      · dsimp only
        split <;> simp [ih]
      · rfl
    · rfl

@[simp] theorem State.testProceed_kept : s.testProceed.kept = s.kept := s.testGo_kept 19

@[simp] theorem State.openTest_kept (n : SeqNo) (x : Option Pin) : (s.openTest n x).kept = s.kept := by
  simp [State.openTest]

@[simp] theorem State.testPulseEnd_kept : (s.testPulseEnd o).kept = s.kept := by
  unfold State.testPulseEnd
  split
  · split <;> simp
  · rfl

@[simp] theorem State.testCut_kept : s.testCut.kept = s.kept := by
  unfold State.testCut
  split
  · split <;> simp
  · rfl

@[simp] theorem State.resetTest_kept : s.resetTest.kept = s.kept := by
  unfold State.resetTest
  split
  · rfl
  split <;> simp

end

/-! ### Paper motion -/

section
variable (s : State) (r : MotionRun) (k : MoveKind) (m : MoveContext) (e : MoveEnd)

@[simp] theorem State.modifyDrive_kept (f : Drive → Drive) : (s.modifyDrive f).kept = s.kept := rfl
@[simp] theorem State.driveStep_kept (d : MoveDir) : (s.driveStep d).kept = s.kept := rfl
@[simp] theorem State.runMove_kept : (s.runMove r k).kept = s.kept := rfl

@[simp] theorem State.completeRun_kept (o : MoveOutcome) (x : Option NotMadeReason) :
    (s.completeRun r o x).kept = s.kept := by
  simp [State.completeRun]

@[simp] theorem State.judgeRun_kept : (s.judgeRun r).kept = s.kept := by
  unfold State.judgeRun
  dsimp only
  split <;> simp

@[simp] theorem State.startRun_kept (l : Link) (n : SeqNo) (x : MotionKind) : (s.startRun l n x).kept = s.kept := by
  simp [State.startRun]

@[simp] theorem State.runNext_kept : (s.runNext r k).kept = s.kept := by
  unfold State.runNext
  split <;> simp

@[simp] theorem State.runMoveEnded_kept : (s.runMoveEnded m e).kept = s.kept := by
  unfold State.runMoveEnded
  split
  · rfl
  · cases e <;> simp

@[simp] theorem State.settleMove_kept : (s.settleMove k e).kept = s.kept := by
  unfold State.settleMove
  split <;> simp

@[simp] theorem State.haltMove_kept : (s.haltMove e).kept = s.kept := by cases e <;> rfl

@[simp] theorem State.endMove_kept : (s.endMove e).kept = s.kept := by
  unfold State.endMove
  split
  · rfl
  · dsimp only
    split <;> split <;> split <;> simp

@[simp] theorem State.prepareMove_kept : (s.prepareMove k).kept = s.kept := by
  cases k <;> simp [State.prepareMove]

@[simp] theorem State.beginMove_kept (d : DueMove) : (s.beginMove d).kept = s.kept := by simp [State.beginMove]

@[simp] theorem State.tearBy_kept (n : Int) : (s.tearBy k n).kept = s.kept := by simp [State.tearBy]

@[simp] theorem State.stallMove_kept : (s.stallMove m).kept = s.kept := by simp [State.stallMove]

@[simp] theorem State.stepMove_kept (paper mark : Bool) : (s.stepMove m paper mark).kept = s.kept := by
  simp [State.stepMove]

@[simp] theorem State.backoffStep_kept (left : Nat) (paper : Bool) : (s.backoffStep m left paper).kept = s.kept := by
  simp [State.backoffStep]

@[simp] theorem State.resetDrive_kept : s.resetDrive.kept = s.kept := by
  unfold State.resetDrive
  dsimp only
  split <;> simp

end

/-! ### Grants, and what an event brings with it -/

section
variable (s : State)

@[simp] theorem State.grant_kept (l : Link) (e : Entry) : (s.grant l e).kept = s.kept := by
  unfold State.grant
  dsimp only
  split <;> simp

@[simp] theorem State.judgeHead_kept (l : Link) : (s.judgeHead l).kept = s.kept := by
  obtain ⟨-, e⟩ | ⟨_, -, -, e⟩ | ⟨_, -, -, e⟩ | ⟨_, -, -, e⟩ := s.judgeHead_cases l <;> simp [e]

theorem State.settleOnce_kept {t : State} (h : s.settleOnce = some t) : t.kept = s.kept := by
  obtain ⟨_, -, rfl⟩ | ⟨_, -, -, rfl⟩ | ⟨_, -, -, -, -, rfl⟩ := State.settleOnce_cases h <;> simp

@[simp] theorem State.judgeTimers_kept : s.judgeTimers.kept = s.kept := by
  rw [State.judgeTimers_frame]; rfl

@[simp] theorem State.settle_kept : s.settle.kept = s.kept :=
  State.settle_rel (fun s t => t.kept = s.kept) (fun _ => rfl) (fun a b => b.trans a)
    (fun h => State.settleOnce_kept _ h) (fun s => s.judgeTimers_kept) s

@[simp] theorem State.askTear_kept : s.askTear.kept = s.kept := by simp [State.askTear]

end

/-! ### The head's heat -/

section
variable (s : State)

@[simp] theorem State.modifyHeat_kept (f : Thermal → Thermal) : (s.modifyHeat f).kept = s.kept := rfl
@[simp] theorem State.decay_kept : s.decay.kept = s.kept := rfl

@[simp] theorem State.rejudgeThermal_kept : s.rejudgeThermal.kept = s.kept := by simp [State.rejudgeThermal]

@[simp] theorem State.judgeHeat_kept : s.judgeHeat.kept = s.kept := by simp [State.judgeHeat]

@[simp] theorem State.takeTemperature_kept (t : Int) : (s.takeTemperature t).kept = s.kept := by
  simp [State.takeTemperature]

@[simp] theorem State.takeSupply_kept (v : Nat) : (s.takeSupply v).kept = s.kept := by simp [State.takeSupply]

@[simp] theorem State.judgeGates_kept : s.judgeGates.kept = s.kept := by simp [State.judgeGates]

end

/-! ### The carriage -/

section
variable (s : State) (d : Dir)

@[simp] theorem State.modifyCar_kept (f : Carriage → Carriage) : (s.modifyCar f).kept = s.kept := rfl
@[simp] theorem State.setHoming_kept (h : HomingStep) : (s.setHoming h).kept = s.kept := rfl
@[simp] theorem State.startHoming_kept : s.startHoming.kept = s.kept := rfl
@[simp] theorem State.beginSeek_kept : s.beginSeek.kept = s.kept := rfl
@[simp] theorem State.completeHoming_kept : s.completeHoming.kept = s.kept := rfl
@[simp] theorem State.failHoming_kept (c : CarCause) : (s.failHoming c).kept = s.kept := rfl
@[simp] theorem State.discardPlan_kept (p : PassId) : (s.discardPlan p).kept = s.kept := rfl
@[simp] theorem State.atStandstill_kept : s.atStandstill.kept = s.kept := rfl
@[simp] theorem State.advance_kept (n : Nat) : (s.advance n).kept = s.kept := rfl

@[simp] theorem State.countCounter_kept : (s.countCounter d).kept = s.kept := by simp [State.countCounter]

@[simp] theorem State.takeCount_kept (ch : EncoderChannel) : (s.takeCount ch d).kept = s.kept := by
  simp [State.takeCount]

@[simp] theorem State.enterFault_kept (c : CarCause) : (s.enterFault c).kept = s.kept := by
  unfold State.enterFault
  dsimp only
  split <;> split <;> simp

@[simp] theorem State.carriageFails_kept (c : CarCause) : (s.carriageFails c).kept = s.kept := by
  unfold State.carriageFails
  split <;> simp

@[simp] theorem State.startPass_kept : s.startPass.kept = s.kept := by
  unfold State.startPass
  dsimp only
  split <;> simp

@[simp] theorem State.countPositioning_kept (m : CarMotion) (x : Int) : (s.countPositioning m x d).kept = s.kept := by
  simp [State.countPositioning]

@[simp] theorem State.finishPass_kept : s.finishPass.kept = s.kept := by simp [State.finishPass]

@[simp] theorem State.countPass_kept (m : CarMotion) : (s.countPass m d).kept = s.kept := by
  unfold State.countPass
  dsimp only
  rw [State.kept_ite]
  simp

@[simp] theorem State.countHoming_kept (h : HomingStep) : (s.countHoming h d).kept = s.kept := by
  unfold State.countHoming
  split <;> simp

@[simp] theorem State.countTrusted_kept : (s.countTrusted d).kept = s.kept := by
  unfold State.countTrusted
  split
  · simp
  split
  · rfl
  split <;> simp

@[simp] theorem State.countEffect_kept : (s.countEffect d).kept = s.kept := by
  unfold State.countEffect
  split <;> simp

@[simp] theorem State.countChange_kept (ch : EncoderChannel) : (s.countChange ch).kept = s.kept := by
  simp [State.countChange]

@[simp] theorem State.recordDir_kept (p : PassId) : (s.recordDir p d).kept = s.kept := by cases p <;> rfl

@[simp] theorem State.launch_kept (q : PassPlan) : (s.launch q).kept = s.kept := by
  unfold State.launch
  dsimp only
  split <;> simp

@[simp] theorem State.giveStart_kept (p : PassId) (i : Fin 2) (q : PassPlan) : (s.giveStart p i q).kept = s.kept := by
  unfold State.giveStart
  dsimp only
  split <;> simp

end

/-! ### Tally inputs -/

section
variable (s : State) (u : Fin 2)

@[simp] theorem State.modifyTally_kept (f : TallyUnit → TallyUnit) : (s.modifyTally u f).kept = s.kept := rfl

@[simp] theorem State.release_kept (x : ReleaseSource) : (s.release u x).kept = s.kept := by
  unfold State.release
  split <;> simp

@[simp] theorem State.latchRelease_kept : (s.latchRelease u).kept = s.kept := by simp [State.latchRelease]

@[simp] theorem State.qualifiedEdge_kept : (s.qualifiedEdge u).kept = s.kept := by
  unfold State.qualifiedEdge
  dsimp only
  split <;> simp

end

/-! ### Resets and requests -/

section
variable (s : State) (l : Link) (f : Frame)

@[simp] theorem State.resetPlanner_kept : s.resetPlanner.kept = s.kept := rfl
@[simp] theorem State.purgeAll_kept : s.purgeAll.kept = s.kept := rfl
@[simp] theorem State.resetArbiter_kept : s.resetArbiter.kept = s.kept := rfl
@[simp] theorem State.resetTally_kept : s.resetTally.kept = s.kept := rfl
@[simp] theorem State.receive_kept (r : RxState) (n : Nat) : (s.receive l r n).kept = s.kept := rfl
@[simp] theorem State.respond_kept (st : Status) (bs : List Byte) : (s.respond l f st bs).kept = s.kept := rfl
@[simp] theorem State.respondTally_kept (u : Fin 2) : (s.respondTally l f u).kept = s.kept := rfl

@[simp] theorem State.engineReset_kept : s.engineReset.kept = s.kept := by simp [State.engineReset]

@[simp] theorem State.linkReset_kept : (s.linkReset l).kept = s.kept := by simp [State.linkReset]

@[simp] theorem State.acceptLatch_kept (x : LineFields) : (s.acceptLatch x).kept = s.kept := by
  unfold State.acceptLatch
  split <;> simp

@[simp] theorem State.cancelGranted_kept : (s.cancelGranted l).kept = s.kept := by
  unfold State.cancelGranted
  split <;> simp

@[simp] theorem State.clearJam_kept : s.clearJam.kept = s.kept := by
  unfold State.clearJam
  split <;> simp

@[simp] theorem State.leaveJam_kept : s.leaveJam.kept = s.kept := by simp [State.leaveJam]

@[simp] theorem State.requestHoming_kept : s.requestHoming.kept = s.kept := by simp [State.requestHoming]

@[simp] theorem State.leaveCarriage_kept : s.leaveCarriage.kept = s.kept := by simp [State.leaveCarriage]

@[simp] theorem State.takeNoOp_kept : (s.takeNoOp l f).kept = s.kept := rfl
@[simp] theorem State.takeReadState_kept : (s.takeReadState l f).kept = s.kept := rfl
@[simp] theorem State.takeReadPosition_kept : (s.takeReadPosition l f).kept = s.kept := rfl
@[simp] theorem State.takeTakeNotice_kept : (s.takeTakeNotice l f).kept = s.kept := rfl
@[simp] theorem State.takeTallyArm_kept : (s.takeTallyArm l f).kept = s.kept := rfl
@[simp] theorem State.takeTallyClear_kept : (s.takeTallyClear l f).kept = s.kept := rfl

@[simp] theorem State.takePutLine_kept : (s.takePutLine l f).kept = s.kept := by
  unfold State.takePutLine
  split <;> simp

@[simp] theorem State.takePutMotion_kept : (s.takePutMotion l f).kept = s.kept := by
  unfold State.takePutMotion
  split
  · simp
  split <;> simp

@[simp] theorem State.takeSetForm_kept : (s.takeSetForm l f).kept = s.kept := by simp [State.takeSetForm]

@[simp] theorem State.takeSetHead_kept : (s.takeSetHead l f).kept = s.kept := by simp [State.takeSetHead]

@[simp] theorem State.takeCancel_kept : (s.takeCancel l f).kept = s.kept := by simp [State.takeCancel]

@[simp] theorem State.takeTallySet_kept : (s.takeTallySet l f).kept = s.kept := by simp [State.takeTallySet]

@[simp] theorem State.takeTallyMask_kept : (s.takeTallyMask l f).kept = s.kept := by simp [State.takeTallyMask]

@[simp] theorem State.takeClear_kept : (s.takeClear l f).kept = s.kept := by simp [State.takeClear]

@[simp] theorem State.takeEngineReset_kept : (s.takeEngineReset l f).kept = s.kept := by simp [State.takeEngineReset]

@[simp] theorem State.takeLinkReset_kept : (s.takeLinkReset l f).kept = s.kept := by simp [State.takeLinkReset]

@[simp] theorem State.takeRequest_kept : (s.takeRequest l f).kept = s.kept := by
  unfold State.takeRequest
  split <;> simp

@[simp] theorem State.byteArrives_kept (b : Byte) : (s.byteArrives l b).kept = s.kept := by
  unfold State.byteArrives
  dsimp only
  split
  · split <;> simp
  · rfl

/-- A request keeps what its taking keeps. -/
theorem State.request_kept (k : ReqKind) (bytes : List Byte) {take : State → Link → Frame → State}
    (h : ∀ t f, (take t l f).kept = t.kept) : (s.request k l bytes take).kept = s.kept := by
  obtain ⟨f, -, -, e⟩ | ⟨-, e⟩ := s.request_cases k l bytes take <;> rw [e]
  exact h _ f

end

/-! ### The commands -/

/-- The outcome of a command is a next state, with the queue of commands and the straps as they were. -/
def answersKeeping (s : State) (o : Host.Outcome State Fault Refusal) : Prop := ∃ t, o = .next t ∧ t.kept = s.kept

@[simp] theorem answersKeeping_next (s t : State) : answersKeeping s (.next t) ↔ t.kept = s.kept :=
  ⟨fun ⟨_, e, h⟩ => by cases e; exact h, fun h => ⟨t, rfl, h⟩⟩

@[simp] theorem answersKeeping_ite (c : Prop) [Decidable c] (s : State) (x y : Host.Outcome State Fault Refusal) :
    answersKeeping s (if c then x else y) ↔ if c then answersKeeping s x else answersKeeping s y := by
  split <;> rfl

section
variable (s : State)

theorem execCarriageStart_keeps : answersKeeping s (execCarriageStart s) := by
  unfold execCarriageStart
  split <;> simp

theorem execDelayTimerExpiry_keeps (col : PinColumn) : answersKeeping s (execDelayTimerExpiry col s) := by
  unfold execDelayTimerExpiry
  split <;> simp

theorem execDriveEnd_keeps (p : Pin) (mA : Nat) : answersKeeping s (execDriveEnd p mA s) := by
  unfold execDriveEnd
  split <;> simp [State.shortPulse, State.judgeDriveEnd]

theorem execOvercurrent_keeps (p : Pin) : answersKeeping s (execOvercurrent p s) := by
  unfold execOvercurrent
  split <;> simp [State.shortPulse]

theorem execHoldEnd_keeps (p : Pin) : answersKeeping s (execHoldEnd p s) := by
  unfold execHoldEnd
  split <;> simp

theorem execRecoveryEnd_keeps (p : Pin) : answersKeeping s (execRecoveryEnd p s) := by
  unfold execRecoveryEnd
  split <;> simp

theorem execMoveStart_keeps (paper : Bool) : answersKeeping s (execMoveStart paper s) := by
  unfold execMoveStart
  split <;> simp

theorem execStep_keeps (paper mark : Bool) : answersKeeping s (execStep paper mark s) := by
  unfold execStep
  split <;> simp

theorem execSensorPulse_keeps : answersKeeping s (execSensorPulse s) := by
  unfold execSensorPulse
  split <;> simp

theorem execRetryTimerExpiry_keeps : answersKeeping s (execRetryTimerExpiry s) := by
  unfold execRetryTimerExpiry
  split <;> simp

theorem execQualifiedEdge_keeps (u : Fin 2) : answersKeeping s (execQualifiedEdge u s) := by
  unfold execQualifiedEdge
  split <;> simp

theorem request_keeps (k : ReqKind) (l : Link) (bytes : List Byte) {take : State → Link → Frame → State}
    (h : ∀ t f, (take t l f).kept = t.kept) : answersKeeping s (.next (s.request k l bytes take)) :=
  (answersKeeping_next s _).mpr (s.request_kept l k bytes h)

/-- Every command but POWER_ON_RESET answers a next state and keeps the queue of commands and the straps. -/
theorem exec_keeps (c : Instr) (h : ∀ pins, c ≠ .powerOnReset pins) : answersKeeping s (exec c s) := by
  cases c with
  | powerOnReset pins => exact absurd rfl (h pins)
  | selectFalls l => exact (answersKeeping_next s _).mpr (s.modifyPort_kept l _)
  | selectRises l => exact (answersKeeping_next s _).mpr (s.modifyPort_kept l _)
  | byteArrives l b => exact (answersKeeping_next s _).mpr (s.byteArrives_kept l b)
  | noOp l bytes => exact request_keeps s _ l bytes fun t => t.takeNoOp_kept l
  | putLine l bytes => exact request_keeps s _ l bytes fun t => t.takePutLine_kept l
  | putMotion l bytes => exact request_keeps s _ l bytes fun t => t.takePutMotion_kept l
  | setForm l bytes => exact request_keeps s _ l bytes fun t => t.takeSetForm_kept l
  | setHead l bytes => exact request_keeps s _ l bytes fun t => t.takeSetHead_kept l
  | readState l bytes => exact request_keeps s _ l bytes fun t => t.takeReadState_kept l
  | readPosition l bytes => exact request_keeps s _ l bytes fun t => t.takeReadPosition_kept l
  | takeNotice l bytes => exact request_keeps s _ l bytes fun t => t.takeTakeNotice_kept l
  | cancel l bytes => exact request_keeps s _ l bytes fun t => t.takeCancel_kept l
  | tallySet l bytes => exact request_keeps s _ l bytes fun t => t.takeTallySet_kept l
  | tallyArm l bytes => exact request_keeps s _ l bytes fun t => t.takeTallyArm_kept l
  | tallyMask l bytes => exact request_keeps s _ l bytes fun t => t.takeTallyMask_kept l
  | tallyClear l bytes => exact request_keeps s _ l bytes fun t => t.takeTallyClear_kept l
  | clear l bytes => exact request_keeps s _ l bytes fun t => t.takeClear_kept l
  | engineReset l bytes => exact request_keeps s _ l bytes fun t => t.takeEngineReset_kept l
  | linkReset l bytes => exact request_keeps s _ l bytes fun t => t.takeLinkReset_kept l
  | countChange ch dt => exact (answersKeeping_next s _).mpr ((s.advance dt).countChange_kept ch)
  | illegalTransition => simp [exec, execIllegalTransition]
  | stall => simp [exec, execStall]
  | openPeriodSuspension => exact (answersKeeping_next s _).mpr (s.modifyCar_kept _)
  | automaticHoming => simp [exec, execAutomaticHoming]
  | homingRestEnd => simp [exec, execHomingRestEnd]
  | indexEdge level => exact (answersKeeping_next s _).mpr (s.modifyCar_kept _)
  | planComplete => simp [exec, execPlanComplete]
  | carriageStart => exact execCarriageStart_keeps s
  | delayTimerExpiry col => exact execDelayTimerExpiry_keeps s col
  | driveEnd p mA => exact execDriveEnd_keeps s p mA
  | overcurrent p => exact execOvercurrent_keeps s p
  | holdEnd p => exact execHoldEnd_keeps s p
  | recoveryEnd p => exact execRecoveryEnd_keeps s p
  | coilRise t => simp [exec, execCoilRise]
  | testPulseTimeout => simp [exec, execTestPulseTimeout]
  | windowEnd => simp [exec, execWindowEnd]
  | temperatureConversion code => simp [exec, execTemperatureConversion]
  | supplyConversion code => simp [exec, execSupplyConversion]
  | dwellRunsOut => simp [exec, execDwellRunsOut]
  | moveStart paper => exact execMoveStart_keeps s paper
  | step paper mark => exact execStep_keeps s paper mark
  | sensorPulse => exact execSensorPulse_keeps s
  | retryTimerExpiry => exact execRetryTimerExpiry_keeps s
  | idleReleaseTimerExpiry => simp [exec, execIdleReleaseTimerExpiry]
  | automaticTear => simp [exec, execAutomaticTear]
  | tallyInputChange u level => exact (answersKeeping_next s _).mpr (s.modifyTally_kept u _)
  | qualifiedEdge u => exact execQualifiedEdge_keeps s u

end

/-- Settles O3: POWER_ON_RESET keeps the queue by its definition, and every other command by `exec_keeps`. -/
theorem commandsKeepQueueAndStraps : Obligations.CommandsKeepQueueAndStraps := by
  unfold Obligations.CommandsKeepQueueAndStraps
  intro c s
  by_cases reset : ∃ pins, c = .powerOnReset pins
  · obtain ⟨pins, rfl⟩ := reset
    exact ⟨_, rfl, rfl, fun other => absurd rfl (other pins)⟩
  · obtain ⟨t, run, kept⟩ := exec_keeps s c fun pins e => reset ⟨pins, e⟩
    simp only [State.kept, Prod.mk.injEq] at kept
    obtain ⟨queue, straps⟩ := kept
    exact ⟨t, run, queue, fun _ => straps⟩

end Sys2Proof.Machine

namespace Sys2Proof.Machine

/-! ## The ledger: what the two invariants of the store and the grant read (R25, R27, R32, R33, R163)

`State.ledger` holds the entries without their results, the acceptances counted, the grant, and whose work is in
progress. `StoreSound` and `GrantSound` are functions of it, and most operations of the model leave it as it is. -/

/-- An entry without its result. -/
def Entry.booked (e : Entry) : Entry := { e with result := {} }

/-- The queues without results, the acceptances counted, the grant, and whose line, motion or coil test is in
progress. -/
structure Ledger where
  accepts : Nat
  queue : PerLink (List Entry)
  granted : Option Granted
  line : Option Link
  run : Option (Link × SeqNo)
  test : Option SeqNo

/-- The ledger of a state. -/
def State.ledger (s : State) : Ledger :=
  { accepts := s.acceptCount
    queue := ⟨s.store.job.queue.map Entry.booked, s.store.console.queue.map Entry.booked⟩
    granted := s.arb.granted
    line := s.line.map (·.link)
    run := s.drive.run.map (fun r => (r.link, r.seq))
    test := s.test.map (·.seq) }

/-- Any update of the fields that the ledger does not read. -/
@[simp] theorem State.ledger_update (s : State) (width : Width) (edgeFitted : Bool) (port : PerLink LinkPort)
    (lists : Vector StrikeList 2) (dwell : Dwell) (car : Carriage) (sequ : Sequencer) (channels : Vector Channel 18)
    (health : Vector PinRecord 18) (heat : Thermal) (form : FormPosition) (map : FormMap) (steppers : Steppers)
    (tally : Vector TallyUnit 2) (freeIndex : Nat) (pending : List Instr) :
    State.ledger { s with width, edgeFitted, port, lists, dwell, car, sequ, channels, health, heat, form, map, steppers,
                          tally, freeIndex, pending } = s.ledger := rfl

@[simp] theorem State.ledger_ite (c : Prop) [Decidable c] (s t : State) :
    (if c then s else t).ledger = if c then s.ledger else t.ledger := apply_ite State.ledger c s t

/-- A fold of operations that each leave the ledger. -/
theorem State.foldl_ledger {α : Type} {op : State → α → State} (h : ∀ s x, (op s x).ledger = s.ledger) (xs : List α)
    (s : State) : (xs.foldl op s).ledger = s.ledger := by
  induction xs generalizing s with
  | nil => rfl
  | cons x xs ih => exact (ih _).trans (h s x)

theorem State.ledger_queue (s : State) (l : Link) :
    s.ledger.queue.get l = (s.store.get l).queue.map Entry.booked := by
  cases l <;> rfl

/-! ### Shared operations -/

section
variable (s : State) (l : Link)

@[simp] theorem State.modifyPort_ledger (f : LinkPort → LinkPort) : (s.modifyPort l f).ledger = s.ledger := rfl
@[simp] theorem State.post_ledger (n : Notice) : (s.post l n).ledger = s.ledger := rfl
@[simp] theorem State.postBoth_ledger (n : Notice) : (s.postBoth n).ledger = s.ledger := rfl
@[simp] theorem State.reflow_ledger : s.reflow.ledger = s.ledger := rfl
@[simp] theorem State.releaseHold_ledger : s.releaseHold.ledger = s.ledger := rfl
@[simp] theorem State.modifyHalt_ledger (f : HaltSet → HaltSet) : (s.modifyHalt f).ledger = s.ledger := rfl
@[simp] theorem State.setChannel_ledger (p : Pin) (c : Channel) : (s.setChannel p c).ledger = s.ledger := rfl
@[simp] theorem State.setPinRecord_ledger (p : Pin) (r : PinRecord) : (s.setPinRecord p r).ledger = s.ledger := rfl
@[simp] theorem State.addHeat_ledger (p : Pin) (n : Nat) : (s.addHeat p n).ledger = s.ledger := rfl
@[simp] theorem State.setList_ledger (i : Fin 2) (x : StrikeList) : (s.setList i x).ledger = s.ledger := rfl
@[simp] theorem State.dropPlan_ledger : s.dropPlan.ledger = s.ledger := rfl
@[simp] theorem State.freeLists_ledger : s.freeLists.ledger = s.ledger := rfl
@[simp] theorem State.receive_ledger (r : RxState) (n : Nat) : (s.receive l r n).ledger = s.ledger := rfl

@[simp] theorem State.respond_ledger (f : Frame) (st : Status) (bs : List Byte) :
    (s.respond l f st bs).ledger = s.ledger := rfl

/-- An update of the Arbiter that leaves the grant. -/
@[simp] theorem State.modifyArb_ledger {f : Arbiter → Arbiter} (h : (f s.arb).granted = s.arb.granted) :
    (s.modifyArb f).ledger = s.ledger := by
  simp only [State.ledger, State.modifyArb, h]

/-- A change of a line's result leaves the ledger, which holds no results. -/
@[simp] theorem State.modifyResult_ledger (f : LineResult → LineResult) : (s.modifyResult l f).ledger = s.ledger := by
  have booked : ∀ es : List Entry,
      (match es with | [] => [] | e :: es => { e with result := f e.result } :: es).map Entry.booked =
        es.map Entry.booked := by
    intro es
    cases es <;> rfl
  cases l
  · exact congrArg (fun q => ({ s.ledger with queue := ⟨q, s.ledger.queue.console⟩ } : Ledger)) (booked _)
  · exact congrArg (fun q => ({ s.ledger with queue := ⟨s.ledger.queue.job, q⟩ } : Ledger)) (booked _)

end

/-! ### The form -/

section
variable (s : State)

@[simp] theorem State.modifyForm_ledger (f : FormPosition → FormPosition) : (s.modifyForm f).ledger = s.ledger := rfl
@[simp] theorem State.modifyMap_ledger (f : FormMap → FormMap) : (s.modifyMap f).ledger = s.ledger := rfl
@[simp] theorem State.relength_ledger : s.relength.ledger = s.ledger := rfl
@[simp] theorem State.stallCorrection_ledger (k : Nat) : (s.stallCorrection k).ledger = s.ledger := rfl
@[simp] theorem State.beginLoad_ledger : s.beginLoad.ledger = s.ledger := rfl
@[simp] theorem State.completeLoad_ledger : s.completeLoad.ledger = s.ledger := rfl
@[simp] theorem State.paperArrives_ledger : s.paperArrives.ledger = s.ledger := rfl
@[simp] theorem State.resetForm_ledger : s.resetForm.ledger = s.ledger := rfl
@[simp] theorem State.setLength_ledger (n : Nat) : (s.setLength n).ledger = s.ledger := rfl

theorem State.FormOnly.ledger {t : State} (h : s.FormOnly t) : t.ledger = s.ledger := by
  rw [h]; rfl

@[simp] theorem State.formStep_ledger (d : MoveDir) (paper mark : Bool) :
    (s.formStep d paper mark).ledger = s.ledger :=
  (State.FormOnly.formStep s d paper mark).ledger

@[simp] theorem State.phaseCorrection_ledger : s.phaseCorrection.ledger = s.ledger := by
  rw [State.phaseCorrection_frame]; rfl

@[simp] theorem State.judgeBoundary_ledger (n : BitVec 16) (d : MoveDir) :
    (s.judgeBoundary n d).ledger = s.ledger := by
  obtain e | e := s.judgeBoundary_cases n d <;> simp [e]

@[simp] theorem State.edgeOff_ledger : s.edgeOff.ledger = s.ledger := by simp [State.edgeOff]

@[simp] theorem State.changePath_ledger (p : PaperPath) : (s.changePath p).ledger = s.ledger := by
  cases p <;> simp [State.changePath]

@[simp] theorem State.applySetForm_ledger (r : SetFormFields) : (s.applySetForm r).1.ledger = s.ledger := by
  obtain ⟨length, tof, trim, skip, stops, lock⟩ := r
  cases length <;> cases tof <;> cases trim <;> cases skip <;> cases stops <;> simp [State.applySetForm]

end

/-! ### Strikes -/

section
variable (s : State) (a : PassId) (e : StrikeEntry)

@[simp] theorem State.modifySequ_ledger (f : Sequencer → Sequencer) : (s.modifySequ f).ledger = s.ledger := rfl
@[simp] theorem State.handOver_ledger : s.handOver.ledger = s.ledger := rfl
@[simp] theorem State.walkStop_ledger : s.walkStop.ledger = s.ledger := rfl
@[simp] theorem State.missPin_ledger (p : Pin) : (s.missPin a e p).ledger = s.ledger := rfl
@[simp] theorem State.judgeGood_ledger (p : Pin) : (s.judgeGood p).ledger = s.ledger := rfl
@[simp] theorem State.cutAll_ledger : s.cutAll.ledger = s.ledger := rfl

@[simp] theorem State.walkReset_ledger : s.walkReset.ledger = s.ledger := by simp [State.walkReset]

@[simp] theorem State.markStruck_ledger (i : Nat) (p : Pin) : (s.markStruck i p).ledger = s.ledger := by
  rw [State.markStruck_frame]; rfl

@[simp] theorem State.missEntry_ledger : (s.missEntry a e).ledger = s.ledger := by
  rw [State.missEntry_frame]; rfl

@[simp] theorem State.firePin_ledger (i : Nat) (p : Pin) : (s.firePin a i e p).ledger = s.ledger := by
  obtain ⟨-, -, h⟩ | ⟨-, h⟩ := s.firePin_cases a i e p <;> simp [h]

@[simp] theorem State.fireEntry_ledger (i : Nat) : (s.fireEntry i).ledger = s.ledger := by
  unfold State.fireEntry
  split
  · rfl
  split
  · rfl
  · simp [State.foldl_ledger (fun t p => State.firePin_ledger t _ _ i p)]

@[simp] theorem State.armEntry_ledger (i : Nat) : (s.armEntry a i e).ledger = s.ledger := by
  unfold State.armEntry
  split <;> simp

@[simp] theorem State.reachHead_ledger (x : Int) : (s.reachHead x).ledger = s.ledger := by
  unfold State.reachHead
  split
  · rfl
  split
  · rfl
  split
  · dsimp only
    split <;> simp
  · rfl

@[simp] theorem State.sequCount_ledger (d : Dir) (x : Int) : (s.sequCount d x).ledger = s.ledger := by
  simp [State.sequCount]

@[simp] theorem State.walkStart_ledger : s.walkStart.ledger = s.ledger := by
  unfold State.walkStart
  split
  · rfl
  split <;> simp

@[simp] theorem State.endTimer_ledger (c : PinColumn) : (s.endTimer c).ledger = s.ledger := by
  unfold State.endTimer
  split
  · dsimp only
    split <;> simp
  · rfl

@[simp] theorem State.walkEnd_ledger : s.walkEnd.ledger = s.ledger := by
  unfold State.walkEnd
  dsimp only
  split <;> simp [State.foldl_ledger (fun t e => State.missEntry_ledger t _ e)]

@[simp] theorem State.judgeFault_ledger (p : Pin) (c : PinCause) : (s.judgeFault p c).ledger = s.ledger := by
  simp [State.judgeFault]

end

/-! ### The line in flight -/

section
variable (s : State)

/-- A change of the line context that leaves its link. -/
@[simp] theorem State.modifyLine_ledger {f : LineContext → LineContext} (h : ∀ c, (f c).link = c.link) :
    (s.modifyLine f).ledger = s.ledger := by
  have link : (s.line.map f).map (·.link) = s.line.map (·.link) := by cases s.line <;> simp [h]
  exact congrArg (fun x => ({ s.ledger with line := x } : Ledger)) link

@[simp] theorem State.setStage_ledger (g : LineStage) : (s.setStage g).ledger = s.ledger := by simp [State.setStage]
@[simp] theorem State.setDue_ledger (d : Option DueMove) : (s.setDue d).ledger = s.ledger := rfl
@[simp] theorem State.useFree_ledger : s.useFree.ledger = s.ledger := rfl
@[simp] theorem State.putPlan_ledger (q : PassPlan) : (s.putPlan q).ledger = s.ledger := rfl
@[simp] theorem State.freeStriking_ledger : s.freeStriking.ledger = s.ledger := rfl

@[simp] theorem State.loseDots_ledger (d : DotSet) (degraded : Bool) : (s.loseDots d degraded).ledger = s.ledger := by
  unfold State.loseDots
  split <;> simp

@[simp] theorem State.loseAll_ledger : s.loseAll.ledger = s.ledger := by
  unfold State.loseAll
  split <;> simp

@[simp] theorem State.beginDwell_ledger : s.beginDwell.ledger = s.ledger := by simp [State.beginDwell]

@[simp] theorem State.planPass_ledger (p : PassId) (x : Int) : (s.planPass p x).1.ledger = s.ledger := by
  unfold State.planPass
  split
  · cases p <;> simp [apply_ite Prod.fst]
  · rfl

@[simp] theorem State.planOdd_ledger (p : PassId) (x : Int) : (s.planOdd p x).ledger = s.ledger := by
  have plan := s.planPass_ledger p x
  unfold State.planOdd
  split
  all_goals
    next e => rw [e] at plan; simpa using plan

@[simp] theorem State.countStruck_ledger (q : PassPlan) : (s.countStruck q).ledger = s.ledger := by
  unfold State.countStruck
  split <;> simp

@[simp] theorem State.disposeMisses_ledger (q : PassPlan) : (s.disposeMisses q).ledger = s.ledger := by
  unfold State.disposeMisses
  dsimp only
  split
  · split <;> simp
  all_goals simp

@[simp] theorem State.markImperfect_ledger : s.markImperfect.ledger = s.ledger := by
  unfold State.markImperfect
  split <;> simp

@[simp] theorem State.lineJammed_ledger : s.lineJammed.ledger = s.ledger := by
  unfold State.lineJammed
  split <;> simp

@[simp] theorem State.recordDir_ledger (p : PassId) (d : Dir) : (s.recordDir p d).ledger = s.ledger := by
  cases p <;> simp [State.recordDir]

@[simp] theorem State.discardPlan_ledger (p : PassId) : (s.discardPlan p).ledger = s.ledger := by
  simp [State.discardPlan]

end

/-! ### Paper motion, heat and timers -/

section
variable (s : State)

/-- An update of the Paper Drive that leaves the motion entry's link and number. -/
@[simp] theorem State.modifyDrive_ledger {f : Drive → Drive} (h : (f s.drive).run = s.drive.run) :
    (s.modifyDrive f).ledger = s.ledger := by
  simp only [State.ledger, State.modifyDrive, h]

@[simp] theorem State.driveStep_ledger (d : MoveDir) : (s.driveStep d).ledger = s.ledger := rfl

@[simp] theorem State.settleMove_ledger (k : MoveKind) (e : MoveEnd) : (s.settleMove k e).ledger = s.ledger := by
  unfold State.settleMove
  split <;> simp

@[simp] theorem State.haltMove_ledger (e : MoveEnd) : (s.haltMove e).ledger = s.ledger := by cases e <;> rfl

@[simp] theorem State.prepareMove_ledger (k : MoveKind) : (s.prepareMove k).ledger = s.ledger := by
  cases k <;> simp [State.prepareMove]

@[simp] theorem State.tearBy_ledger (k : MoveKind) (n : Int) : (s.tearBy k n).ledger = s.ledger := by
  simp [State.tearBy]

@[simp] theorem State.backoffStep_ledger (m : MoveContext) (left : Nat) (paper : Bool) :
    (s.backoffStep m left paper).ledger = s.ledger := by
  simp [State.backoffStep]

@[simp] theorem State.judgeTimers_ledger : s.judgeTimers.ledger = s.ledger := by
  rw [State.judgeTimers_frame]; rfl

@[simp] theorem State.askTear_ledger : s.askTear.ledger = s.ledger := by simp [State.askTear]

@[simp] theorem State.advance_ledger (n : Nat) : (s.advance n).ledger = s.ledger := by
  have test : (s.test.map (fun c => ({ c with step := c.step.advance n } : TestContext))).map (·.seq) =
      s.test.map (·.seq) := by
    cases s.test <;> rfl
  exact congrArg (fun x => ({ s.ledger with test := x } : Ledger)) test

@[simp] theorem State.modifyHeat_ledger (f : Thermal → Thermal) : (s.modifyHeat f).ledger = s.ledger := rfl
@[simp] theorem State.decay_ledger : s.decay.ledger = s.ledger := rfl
@[simp] theorem State.rejudgeThermal_ledger : s.rejudgeThermal.ledger = s.ledger := by simp [State.rejudgeThermal]
@[simp] theorem State.judgeHeat_ledger : s.judgeHeat.ledger = s.ledger := by simp [State.judgeHeat]

@[simp] theorem State.takeTemperature_ledger (t : Int) : (s.takeTemperature t).ledger = s.ledger := by
  simp [State.takeTemperature]

@[simp] theorem State.takeSupply_ledger (v : Nat) : (s.takeSupply v).ledger = s.ledger := by simp [State.takeSupply]

end

/-! ### The carriage and the tally inputs -/

section
variable (s : State)

@[simp] theorem State.modifyCar_ledger (f : Carriage → Carriage) : (s.modifyCar f).ledger = s.ledger := rfl
@[simp] theorem State.setHoming_ledger (h : HomingStep) : (s.setHoming h).ledger = s.ledger := rfl
@[simp] theorem State.startHoming_ledger : s.startHoming.ledger = s.ledger := rfl
@[simp] theorem State.beginSeek_ledger : s.beginSeek.ledger = s.ledger := rfl
@[simp] theorem State.completeHoming_ledger : s.completeHoming.ledger = s.ledger := rfl
@[simp] theorem State.failHoming_ledger (c : CarCause) : (s.failHoming c).ledger = s.ledger := rfl
@[simp] theorem State.atStandstill_ledger : s.atStandstill.ledger = s.ledger := rfl

@[simp] theorem State.countCounter_ledger (d : Dir) : (s.countCounter d).ledger = s.ledger := by
  simp [State.countCounter]

@[simp] theorem State.takeCount_ledger (ch : EncoderChannel) (d : Dir) : (s.takeCount ch d).ledger = s.ledger := by
  simp [State.takeCount]

@[simp] theorem State.startPass_ledger : s.startPass.ledger = s.ledger := by
  unfold State.startPass
  dsimp only
  split <;> simp

@[simp] theorem State.countPositioning_ledger (m : CarMotion) (x : Int) (d : Dir) :
    (s.countPositioning m x d).ledger = s.ledger := by
  simp [State.countPositioning]

@[simp] theorem State.countHoming_ledger (h : HomingStep) (d : Dir) : (s.countHoming h d).ledger = s.ledger := by
  unfold State.countHoming
  split <;> simp

@[simp] theorem State.launch_ledger (q : PassPlan) : (s.launch q).ledger = s.ledger := by
  unfold State.launch
  dsimp only
  split <;> simp

@[simp] theorem State.giveStart_ledger (p : PassId) (i : Fin 2) (q : PassPlan) :
    (s.giveStart p i q).ledger = s.ledger := by
  unfold State.giveStart
  dsimp only
  split <;> simp

@[simp] theorem State.requestHoming_ledger : s.requestHoming.ledger = s.ledger := by simp [State.requestHoming]
@[simp] theorem State.leaveCarriage_ledger : s.leaveCarriage.ledger = s.ledger := by simp [State.leaveCarriage]

@[simp] theorem State.modifyTally_ledger (u : Fin 2) (f : TallyUnit → TallyUnit) :
    (s.modifyTally u f).ledger = s.ledger := rfl

@[simp] theorem State.respondTally_ledger (l : Link) (f : Frame) (u : Fin 2) :
    (s.respondTally l f u).ledger = s.ledger := rfl

end

end Sys2Proof.Machine

namespace Sys2Proof.Machine

/-! ## The two invariants as functions of the ledger -/

/-- What the store's invariant reads of an entry: its record, its charge and its stamp. -/
def Entry.charged (e : Entry) : Record × Nat × Nat := (e.record, e.blocks, e.stamp)

/-- The block numbers of a queue's chains, from what is charged. -/
theorem LinkStore.chained_eq (t : LinkStore) :
    t.chained = ((t.queue.map Entry.charged).map (fun x => x.1.chain.map (·.number))).flatten := by
  rw [List.map_map]; rfl

theorem LinkStore.usedBlocks_eq (t : LinkStore) :
    t.usedBlocks = ((t.queue.map Entry.charged).map (fun x => x.2.1)).sum := by
  rw [List.map_map]; rfl

theorem LinkStore.usedDescs_eq (t : LinkStore) : t.usedDescs = (t.queue.map Entry.charged).length := by
  rw [List.length_map]; rfl

/-- The shared region is used the more the more each link uses (R27). -/
theorem sharedInUse_mono {reserve u v : Link → Nat} (h : ∀ l, u l ≤ v l) :
    sharedInUse reserve u ≤ sharedInUse reserve v := by
  have hj := h .job
  have hc := h .console
  unfold sharedInUse
  omega

/-- A store whose queues have only lost entries is sound as before. -/
theorem State.StoreSound.of_sublist {s t : State} (h : s.StoreSound) (count : t.acceptCount = s.acceptCount)
    (queue : ∀ l, ((t.store.get l).queue.map Entry.charged).Sublist ((s.store.get l).queue.map Entry.charged)) :
    t.StoreSound := by
  have chained : ∀ l, (t.store.get l).chained.Sublist (s.store.get l).chained := fun l => by
    rw [LinkStore.chained_eq, LinkStore.chained_eq]
    exact ((queue l).map _).flatten
  have mem : ∀ l, ∀ e ∈ (t.store.get l).queue, ∃ d ∈ (s.store.get l).queue, d.charged = e.charged := fun l e he => by
    simpa using (queue l).subset (List.mem_map_of_mem he)
  have both : t.chained.Sublist s.chained := (chained .job).append (chained .console)
  refine ⟨h.distinct.sublist both, fun b hb => h.range b (both.subset hb), fun l e he => ?_, ?_, ?_, fun l => ?_,
    fun l e he => ?_, fun a ha b hb => ?_⟩
  · obtain ⟨d, hd, same⟩ := mem l e he
    have charge := h.charge l d hd
    simp only [Entry.charged, Prod.mk.injEq] at same
    rw [← same.1, ← same.2.1, charge]
  · refine (sharedInUse_mono fun l => ?_).trans h.blocks
    rw [LinkStore.usedBlocks_eq, LinkStore.usedBlocks_eq]
    exact ((queue l).map _).sum_le_sum (fun _ _ => Nat.zero_le _)
  · refine (sharedInUse_mono fun l => ?_).trans h.descs
    rw [LinkStore.usedDescs_eq, LinkStore.usedDescs_eq]
    exact (queue l).length_le
  · have stamps : ∀ q : List Entry, q.map (·.stamp) = (q.map Entry.charged).map (fun x => x.2.2) := fun q => by
      rw [List.map_map]; rfl
    have order := h.order l
    rw [stamps] at order ⊢
    exact order.sublist ((queue l).map _)
  · obtain ⟨d, hd, same⟩ := mem l e he
    have stamp := h.stamps l d hd
    simp only [Entry.charged, Prod.mk.injEq] at same
    rw [← same.2.2, count]; exact stamp
  · obtain ⟨c, hc, sameA⟩ := mem .job a ha
    obtain ⟨d, hd, sameB⟩ := mem .console b hb
    have apart := h.apart c hc d hd
    simp only [Entry.charged, Prod.mk.injEq] at sameA sameB
    rw [← sameA.2.2, ← sameB.2.2]; exact apart

/-- What the grant's invariant says of the ledger. -/
structure Ledger.Granting (g : Ledger) : Prop where
  rest : ∀ l, ∀ e ∈ (g.queue.get l).tail, e.state ≠ .granted
  head : ∀ l n, g.granted = some ⟨l, n⟩ ↔ ∃ e, (g.queue.get l).head? = some e ∧ e.state = .granted ∧ e.seq = n
  line : ∀ l, g.line = some l → (∃ n, g.granted = some ⟨l, n⟩) ∧ g.run = none ∧ g.test = none
  run : ∀ l n, g.run = some (l, n) → g.granted = some ⟨l, n⟩ ∧ g.line = none ∧ g.test = none
  test : ∀ n, g.test = some n → g.granted = some ⟨.console, n⟩ ∧ g.line = none ∧ g.run = none
  rights : ∀ e ∈ g.queue.get .job, ∀ p : Option Pin, e.record ≠ .motion (.coilTest p)

theorem State.grantSound_iff (s : State) : s.GrantSound ↔ s.ledger.Granting := by
  constructor
  · intro h
    refine ⟨fun l e he => ?_, fun l n => ⟨fun hg => ?_, ?_⟩, ?_, ?_, ?_, fun e he p => ?_⟩
    · intro granted
      rw [State.ledger_queue, ← List.map_tail] at he
      obtain ⟨d, hd, rfl⟩ := List.mem_map.mp he
      obtain ⟨i, hi⟩ := List.mem_iff_getElem?.mp hd
      rw [List.getElem?_tail] at hi
      exact absurd (h.only l _ d hi granted).1 (Nat.succ_ne_zero i)
    · obtain ⟨e, he, state, seq⟩ := h.head ⟨l, n⟩ hg
      exact ⟨e.booked, by rw [State.ledger_queue, List.head?_map]; exact congrArg _ he, state, seq⟩
    · rintro ⟨e, he, state, seq⟩
      rw [State.ledger_queue, List.head?_map] at he
      obtain ⟨d, hd, rfl⟩ := Option.map_eq_some_iff.mp he
      have granted := (h.only l 0 d (by rw [← List.head?_eq_getElem?]; exact hd) state).2
      rw [← seq]; exact granted
    · intro l hl
      obtain ⟨c, hc, rfl⟩ := Option.map_eq_some_iff.mp hl
      obtain ⟨granted, run, test⟩ := h.line c hc
      exact ⟨granted, by simp [State.ledger, run], by simp [State.ledger, test]⟩
    · intro l n hr
      obtain ⟨r, held, e⟩ := Option.map_eq_some_iff.mp hr
      cases e
      obtain ⟨granted, line, test⟩ := h.run r held
      exact ⟨granted, by simp [State.ledger, line], by simp [State.ledger, test]⟩
    · intro n ht
      obtain ⟨c, hc, rfl⟩ := Option.map_eq_some_iff.mp ht
      obtain ⟨granted, line, run⟩ := h.test c hc
      exact ⟨granted, by simp [State.ledger, line], by simp [State.ledger, run]⟩
    · obtain ⟨d, hd, rfl⟩ := List.mem_map.mp he
      exact h.rights d hd p
  · intro h
    have none_of {α β : Type} {f : α → β} {x : Option α} (h : x.map f = none) : x = none :=
      Option.map_eq_none_iff.mp h
    refine ⟨fun l i e he state => ?_, fun g hg => ?_, fun c hc => ?_, fun r hr => ?_, fun c hc => ?_, fun e he p => ?_⟩
    · cases i with
      | zero =>
        refine ⟨rfl, (h.head l e.seq).mpr ⟨e.booked, ?_, state, rfl⟩⟩
        rw [State.ledger_queue, List.head?_map, List.head?_eq_getElem?, he]; rfl
      | succ i =>
        refine absurd state (h.rest l e.booked ?_)
        rw [State.ledger_queue, ← List.map_tail]
        exact List.mem_map_of_mem (List.mem_iff_getElem?.mpr ⟨i, by rw [List.getElem?_tail]; exact he⟩)
    · obtain ⟨e, he, state, seq⟩ := (h.head g.link g.seq).mp hg
      rw [State.ledger_queue, List.head?_map] at he
      obtain ⟨d, hd, rfl⟩ := Option.map_eq_some_iff.mp he
      exact ⟨d, hd, state, seq⟩
    · obtain ⟨granted, run, test⟩ := h.line c.link (by simp [State.ledger, hc])
      exact ⟨granted, none_of run, none_of test⟩
    · obtain ⟨granted, line, test⟩ := h.run r.link r.seq (by simp [State.ledger, hr])
      exact ⟨granted, none_of line, none_of test⟩
    · obtain ⟨granted, line, run⟩ := h.test c.seq (by simp [State.ledger, hc])
      exact ⟨granted, none_of line, none_of run⟩
    · exact h.rights e.booked (List.mem_map_of_mem he) p

/-- `t` keeps both invariants of `s`. -/
structure State.Keeps (s t : State) : Prop where
  store : s.StoreSound → t.StoreSound
  grant : s.GrantSound → t.GrantSound

theorem State.Keeps.refl (s : State) : s.Keeps s := ⟨id, id⟩

theorem State.Keeps.trans {s t u : State} (a : s.Keeps t) (b : t.Keeps u) : s.Keeps u :=
  ⟨fun h => b.store (a.store h), fun h => b.grant (a.grant h)⟩

/-- Both invariants are functions of the ledger. -/
theorem State.Keeps.of_ledger {s t : State} (h : t.ledger = s.ledger) : s.Keeps t where
  store sound := by
    refine sound.of_sublist (congrArg Ledger.accepts h) fun l => ?_
    have charged : ∀ q : List Entry, q.map Entry.charged = (q.map Entry.booked).map Entry.charged := fun q => by
      rw [List.map_map]; rfl
    rw [charged (t.store.get l).queue, charged (s.store.get l).queue, ← State.ledger_queue, ← State.ledger_queue, h]
  grant sound := by rw [State.grantSound_iff] at sound ⊢; rw [h]; exact sound

/-- An operation after others that leave the ledger. -/
theorem State.Keeps.after {s t u : State} (h : t.ledger = s.ledger) (k : t.Keeps u) : s.Keeps u :=
  (State.Keeps.of_ledger h).trans k

/-- Operations that leave the ledger, after another. -/
theorem State.Keeps.before {s t u : State} (k : s.Keeps t) (h : u.ledger = t.ledger) : s.Keeps u :=
  k.trans (State.Keeps.of_ledger h)

theorem State.Keeps.ite {s t u : State} {p : Prop} [Decidable p] (a : s.Keeps t) (b : s.Keeps u) :
    s.Keeps (if p then t else u) := by
  split
  · exact a
  · exact b

/-- `t` keeps the store sound, and the grant sound if `p` holds. -/
structure State.KeepsIf (p : Prop) (s t : State) : Prop where
  store : s.StoreSound → t.StoreSound
  grant : p → s.GrantSound → t.GrantSound

theorem State.KeepsIf.keeps {p : Prop} {s t : State} (k : State.KeepsIf p s t) (h : s.GrantSound → p) : s.Keeps t :=
  ⟨k.store, fun sound => k.grant (h sound) sound⟩

theorem State.KeepsIf.trans {p : Prop} {s t u : State} (a : State.KeepsIf p s t) (b : t.Keeps u) :
    State.KeepsIf p s u :=
  ⟨fun h => b.store (a.store h), fun hp h => b.grant (a.grant hp h)⟩

theorem State.KeepsIf.after {p q : Prop} {s t u : State} (h : t.ledger = s.ledger) (imp : p → q)
    (k : State.KeepsIf q t u) : State.KeepsIf p s u :=
  ⟨fun sound => k.store ((State.Keeps.of_ledger h).store sound),
    fun hp sound => k.grant (imp hp) ((State.Keeps.of_ledger h).grant sound)⟩

theorem State.KeepsIf.ite {p q : Prop} {s t u : State} [Decidable q] (a : State.KeepsIf p s t)
    (b : State.KeepsIf p s u) : State.KeepsIf p s (if q then t else u) := by
  split
  · exact a
  · exact b

theorem State.GrantSound.of_ledger {s t : State} (h : t.ledger = s.ledger) (sound : s.GrantSound) : t.GrantSound :=
  (State.Keeps.of_ledger h).grant sound

end Sys2Proof.Machine

namespace Sys2Proof.Machine

/-! ## Entries that leave their queue, and work that is closed -/

/-- Work that is closed: the grant and the queues stay. -/
theorem State.Keeps.close {s t : State} (store : t.store = s.store) (count : t.acceptCount = s.acceptCount)
    (granted : t.arb.granted = s.arb.granted) (line : t.line = s.line ∨ t.line = none)
    (run : t.drive.run = s.drive.run ∨ t.drive.run = none) (test : t.test = s.test ∨ t.test = none) : s.Keeps t where
  store sound := sound.of_sublist count fun l => by rw [store]
  grant sound := by
    refine ⟨fun l i e => ?_, fun g => ?_, fun c hc => ?_, fun r hr => ?_, fun c hc => ?_, ?_⟩
    · rw [store, granted]; exact sound.only l i e
    · rw [granted, State.headEntry_of_store store]; exact sound.head g
    · have hs : s.line = some c := line.elim (fun e => e ▸ hc) (fun e => absurd (e ▸ hc) (by simp))
      obtain ⟨grants, idle, quiet⟩ := sound.line c hs
      exact ⟨granted ▸ grants, run.elim (·.trans idle) id, test.elim (·.trans quiet) id⟩
    · have hs : s.drive.run = some r := run.elim (fun e => e ▸ hr) (fun e => absurd (e ▸ hr) (by simp))
      obtain ⟨grants, idle, quiet⟩ := sound.run r hs
      exact ⟨granted ▸ grants, line.elim (·.trans idle) id, test.elim (·.trans quiet) id⟩
    · have hs : s.test = some c := test.elim (fun e => e ▸ hc) (fun e => absurd (e ▸ hc) (by simp))
      obtain ⟨grants, idle, quiet⟩ := sound.test c hs
      exact ⟨granted ▸ grants, line.elim (·.trans idle) id, run.elim (·.trans quiet) id⟩
    · rw [store]; exact sound.rights

/-- With no entry granted, no entry is GRANTED in a queue, and nothing is in progress. -/
theorem State.GrantSound.idle {s : State} (h : s.GrantSound) (free : s.arb.granted = none) :
    s.line = none ∧ s.drive.run = none ∧ s.test = none ∧
      ∀ l, ∀ e ∈ (s.store.get l).queue, e.state ≠ .granted := by
  refine ⟨?_, ?_, ?_, fun l e he state => ?_⟩
  · refine Option.eq_none_iff_forall_ne_some.mpr fun c hc => ?_
    obtain ⟨⟨_, granted⟩, -, -⟩ := h.line c hc
    simp [free] at granted
  · refine Option.eq_none_iff_forall_ne_some.mpr fun r hr => ?_
    obtain ⟨granted, -, -⟩ := h.run r hr
    simp [free] at granted
  · refine Option.eq_none_iff_forall_ne_some.mpr fun c hc => ?_
    obtain ⟨granted, -, -⟩ := h.test c hc
    simp [free] at granted
  · obtain ⟨i, hi⟩ := List.mem_iff_getElem?.mp he
    have granted := (h.only l i e hi state).2
    simp [free] at granted

/-- Nothing granted and nothing in progress is sound. -/
theorem State.GrantSound.of_idle {s : State} (granted : s.arb.granted = none) (line : s.line = none)
    (run : s.drive.run = none) (test : s.test = none) (queues : ∀ l, ∀ e ∈ (s.store.get l).queue, e.state ≠ .granted)
    (rights : ∀ e ∈ s.store.job.queue, ∀ p : Option Pin, e.record ≠ .motion (.coilTest p)) : s.GrantSound where
  only l i e he state := absurd state (queues l e (List.mem_of_getElem? he))
  head g hg := by simp [granted] at hg
  line c hc := by simp [line] at hc
  run r hr := by simp [run] at hr
  test c hc := by simp [test] at hc
  rights := rights

theorem State.completeEntry_storeSound {s : State} (l : Link) (h : s.StoreSound) : (s.completeEntry l).StoreSound := by
  refine h.of_sublist (by rw [State.completeEntry_frame]) fun k => ?_
  rw [State.completeEntry_queue]
  split
  · next e => subst e; exact (List.tail_sublist _).map _
  · exact List.Sublist.refl _

/-- The granted entry completes with its work closed before (R35, R168). -/
theorem State.completeEntry_grantSound {s : State} {l : Link} {n : SeqNo} (h : s.GrantSound)
    (granted : s.arb.granted = some ⟨l, n⟩) (line : s.line = none) (run : s.drive.run = none) (test : s.test = none) :
    (s.completeEntry l).GrantSound := by
  have frame := s.completeEntry_frame l
  refine .of_idle (by simp) (by rw [frame]; exact line) (by rw [frame]; exact run) (by rw [frame]; exact test)
    (fun k e he state => ?_) (fun e he => ?_)
  · rw [State.completeEntry_queue] at he
    split at he
    · next same =>
      subst same
      obtain ⟨i, hi⟩ := List.mem_iff_getElem?.mp he
      rw [List.getElem?_tail] at hi
      exact absurd (h.only k _ e hi state).1 (Nat.succ_ne_zero i)
    · next other =>
      obtain ⟨i, hi⟩ := List.mem_iff_getElem?.mp he
      have same := (h.only k i e hi state).2
      rw [granted] at same
      cases same
      exact other rfl
  · have job := State.completeEntry_queue s l .job
    change e ∈ ((s.completeEntry l).store.get .job).queue at he
    rw [job] at he
    split at he
    · next same => subst same; exact h.rights e (List.mem_of_mem_tail he)
    · exact h.rights e he

/-! ## The line -/

section
variable (s : State)

/-- A line that completes: its context closes, at most a notice is posted, and its entry completes (R40, R60). -/
theorem State.completeLine_eq {s : State} {c : LineContext} (h : s.line = some c) :
    ∃ p, s.completeLine = (({ s with line := none, port := p } : State).freeLists).completeEntry c.link := by
  unfold State.completeLine
  rw [h]
  dsimp only
  split
  · exact ⟨_, rfl⟩
  · exact ⟨s.port, rfl⟩

theorem State.completeLine_keeps : s.Keeps s.completeLine := by
  cases hl : s.line with
  | none => rw [State.completeLine, hl]; exact .refl s
  | some c =>
    obtain ⟨p, e⟩ := State.completeLine_eq hl
    have closed : s.Keeps (({ s with line := none, port := p } : State).freeLists) :=
      .close rfl rfl rfl (.inr rfl) (.inl rfl) (.inl rfl)
    rw [e]
    refine ⟨fun h => State.completeEntry_storeSound _ (closed.store h), fun h => ?_⟩
    obtain ⟨⟨n, granted⟩, run, test⟩ := h.line c hl
    exact State.completeEntry_grantSound (closed.grant h) granted rfl run test

theorem State.finishLine_keeps : s.Keeps s.finishLine := by
  obtain ⟨-, e⟩ | ⟨-, e⟩ := s.finishLine_cases <;> rw [e]
  · exact s.completeLine_keeps
  · exact .of_ledger (by simp)

theorem State.startFeed_keeps : s.Keeps s.startFeed := by
  unfold State.startFeed
  split
  · exact .ite (.of_ledger (by simp)) (.ite (.of_ledger (by simp)) s.finishLine_keeps)
  · exact s.finishLine_keeps

theorem State.dropPhases_keeps : s.Keeps s.dropPhases := .after (by simp) (State.startFeed_keeps _)

theorem State.startDown_keeps : s.Keeps s.startDown := by
  unfold State.startDown
  split
  · exact .refl s
  · exact .ite s.startFeed_keeps (.of_ledger (by simp))

theorem State.startUp_keeps : s.Keeps s.startUp := by
  unfold State.startUp
  split
  · exact .refl s
  · exact .ite s.startDown_keeps (.of_ledger (by simp))

theorem State.assignSubstitutes_keeps : s.Keeps s.assignSubstitutes := by
  unfold State.assignSubstitutes
  split
  · exact .refl s
  · exact .ite (.after (by simp) (State.startUp_keeps _)) (.after (by simp) (State.startUp_keeps _))

theorem State.afterMain_keeps : s.Keeps s.afterMain := by
  unfold State.afterMain
  split
  · exact .refl s
  · exact .ite s.assignSubstitutes_keeps (.of_ledger (by simp))

theorem State.afterEven_keeps (odd : PassId) {otherwise : State → State} (h : s.Keeps (otherwise s)) :
    s.Keeps (s.afterEven odd otherwise) := by
  unfold State.afterEven
  split
  · exact .refl s
  · exact .ite (.of_ledger (by simp)) h

theorem State.afterPass_keeps (p : PassId) : s.Keeps (s.afterPass p) := by
  unfold State.afterPass
  split
  · exact .refl s
  refine .ite s.dropPhases_keeps ?_
  split
  · exact s.afterEven_keeps _ s.afterMain_keeps
  · exact s.afterMain_keeps
  · exact s.assignSubstitutes_keeps
  · exact s.afterEven_keeps _ s.startDown_keeps
  · exact s.startDown_keeps
  · exact s.afterEven_keeps _ s.startFeed_keeps
  · exact s.startFeed_keeps

theorem State.planNow_keeps (p : PassId) : s.Keeps (s.planNow p) := by
  have plan := s.planPass_ledger p s.planPosition
  unfold State.planNow
  split
  · next e => rw [e] at plan; exact .of_ledger (by simpa using plan)
  · next e => rw [e] at plan; exact .after plan (State.afterPass_keeps _ p)

theorem State.endPass_keeps : s.Keeps s.endPass := by
  unfold State.endPass
  split
  · exact .refl s
  · exact .after (by simp) (State.afterPass_keeps _ _)

theorem State.abandonPass_keeps : s.Keeps s.abandonPass := by
  unfold State.abandonPass
  split
  · exact .refl s
  · exact .after (by simp) (State.dropPhases_keeps _)

theorem State.lineMoveDone_keeps : s.Keeps s.lineMoveDone := by
  unfold State.lineMoveDone
  split
  · exact .refl s
  split
  · exact .ite s.dropPhases_keeps (.of_ledger (by simp))
  · exact .ite (.after (by simp) (State.dropPhases_keeps _)) (.of_ledger (by simp))
  · exact .ite (.after (by simp) (State.dropPhases_keeps _)) (.of_ledger (by simp))
  · exact s.completeLine_keeps
  · exact .refl s

theorem State.lineTail_keeps : s.Keeps s.lineTail := .after (by simp) (State.completeLine_keeps _)

theorem State.takeUpLine_keeps : s.Keeps s.takeUpLine := by
  obtain ⟨e, -⟩ | ⟨_, -, -, -, e⟩ := s.takeUpLine_cases <;> rw [e]
  · exact .refl s
  · exact s.completeLine_keeps

theorem State.cancelLine_keeps : s.Keeps s.cancelLine := by
  unfold State.cancelLine
  split
  · exact .refl s
  dsimp only
  split
  · exact .after (by simp) (State.dropPhases_keeps _)
  · exact .after (by simp) (State.dropPhases_keeps _)
  · exact .of_ledger (by simp)
  · exact .of_ledger (by simp)

end

/-! ## The coil test -/

/-- The coil test `c` is, or may be, the only work of the entry granted (R102). -/
structure State.TestsOnly (s : State) (c : TestContext) : Prop where
  granted : s.arb.granted = some ⟨.console, c.seq⟩
  line : s.line = none
  run : s.drive.run = none

theorem State.testsOnly_of_ledger {s t : State} {c d : TestContext} (h : t.ledger = s.ledger) (seq : d.seq = c.seq)
    (only : s.TestsOnly c) : t.TestsOnly d := by
  obtain ⟨granted, line, run⟩ := only
  have hl : t.line.map (·.link) = s.line.map (·.link) := congrArg Ledger.line h
  have hr : t.drive.run.map (fun r => (r.link, r.seq)) = s.drive.run.map (fun r => (r.link, r.seq)) :=
    congrArg Ledger.run h
  rw [line] at hl
  rw [run] at hr
  exact ⟨by rw [seq]; exact (congrArg Ledger.granted h).trans granted, Option.map_eq_none_iff.mp hl,
    Option.map_eq_none_iff.mp hr⟩

theorem State.GrantSound.testsOnly {s : State} (h : s.GrantSound) {c : TestContext} (held : s.test = some c) :
    s.TestsOnly c := by
  obtain ⟨granted, line, run⟩ := h.test c held
  exact ⟨granted, line, run⟩

section
variable (s : State) (c : TestContext) (p : Pin) (o : CoilOutcome)

theorem State.setTest_keeps : State.KeepsIf (s.TestsOnly c) s (s.setTest (some c)) := by
  refine ⟨fun h => h.of_sublist rfl fun l => .refl _, fun only h => ?_⟩
  obtain ⟨granted, line, run⟩ := only
  refine ⟨h.only, h.head, fun d hd => ?_, fun r hr => ?_, fun d hd => ?_, h.rights⟩
  · exact absurd hd (by rw [show (s.setTest (some c)).line = none from line]; simp)
  · exact absurd hr (by rw [show (s.setTest (some c)).drive.run = none from run]; simp)
  · cases hd; exact ⟨granted, line, run⟩

theorem State.testAdvance_keeps : State.KeepsIf (s.TestsOnly c) s (s.testAdvance c) := by
  unfold State.testAdvance
  split
  · have closed : s.Keeps (s.setTest none) := .close rfl rfl rfl (.inl rfl) (.inl rfl) (.inr rfl)
    refine ⟨fun h => State.completeEntry_storeSound _ (closed.store h), fun only h => ?_⟩
    obtain ⟨granted, line, run⟩ := only
    exact State.completeEntry_grantSound (closed.grant h) granted line run rfl
  · refine .after rfl ?_ (s.setTest_keeps _)
    exact State.testsOnly_of_ledger rfl rfl

@[simp] theorem State.postPinFailed_ledger (h : Health) : (s.postPinFailed p h o).ledger = s.ledger := by
  unfold State.postPinFailed
  split <;> simp

theorem State.testResult_keeps : State.KeepsIf (s.TestsOnly c) s (s.testResult c p o) := by
  unfold State.testResult
  exact .after (by simp) (State.testsOnly_of_ledger (by simp) rfl) (State.testAdvance_keeps _ c)

theorem State.testPulse_keeps : State.KeepsIf (s.TestsOnly c) s (s.testPulse c p) := by
  refine .after (t := (s.setChannel p (.drive 600 true)).addHeat p 60) rfl ?_ (State.setTest_keeps _ _)
  exact State.testsOnly_of_ledger rfl rfl

theorem State.testGo_keeps (fuel : Nat) : s.Keeps (s.testGo fuel) := by
  induction fuel generalizing s with
  | zero => exact .refl s
  | succ fuel ih =>
    unfold State.testGo
    split
    · exact .refl s
    · next c held =>
      split
      · refine .ite ?_ (.refl s)
        have read : (if s.heat.supply.isNone = true then s.useFree else s).ledger = s.ledger := by simp
        generalize (if s.heat.supply.isNone = true then s.useFree else s) = t at read ⊢
        have only : t.GrantSound → t.TestsOnly
            { c with supply := s.heat.supply.getD (Config.unreadSupply s.freeIndex) } := fun h =>
          State.testsOnly_of_ledger (c := c) read rfl ((h.of_ledger read.symm).testsOnly held)
        dsimp only
        split
        · exact .after read (((t.testResult_keeps _ _ _).keeps only).trans (ih _))
        · exact .after read ((t.testPulse_keeps _ _).keeps only)
      · exact .refl s

theorem State.testProceed_keeps : s.Keeps s.testProceed := s.testGo_keeps 19

theorem State.openTest_keeps (n : SeqNo) (x : Option Pin) :
    State.KeepsIf (s.arb.granted = some ⟨.console, n⟩ ∧ s.line = none ∧ s.drive.run = none) s (s.openTest n x) := by
  refine .trans (.after rfl (fun only => ?_) (s.testAdvance_keeps _)) (State.testProceed_keeps _)
  obtain ⟨granted, line, run⟩ := only
  exact ⟨granted, line, run⟩

theorem State.testPulseEnd_keeps : s.Keeps (s.testPulseEnd o) := by
  unfold State.testPulseEnd
  split
  · next c held =>
    split
    · refine .after (s.setChannel_ledger _ _) (((State.testResult_keeps _ _ _ _).keeps fun h => ?_).trans
        (State.testProceed_keeps _))
      exact State.testsOnly_of_ledger (s.setChannel_ledger _ _) rfl ((h.of_ledger (s.setChannel_ledger _ _).symm).testsOnly held)
    · exact .refl s
  · exact .refl s

theorem State.testCut_keeps : s.Keeps s.testCut := by
  unfold State.testCut
  split
  · next c held =>
    split
    · exact ((State.testResult_keeps _ _ _ _).keeps fun h => h.testsOnly held).trans (State.testProceed_keeps _)
    · exact .refl s
  · exact .refl s

end

end Sys2Proof.Machine

namespace Sys2Proof.Machine

/-! ## The motion entry -/

/-- The motion `r` is, or may be, the only work of the entry granted (R163). -/
structure State.RunsOnly (s : State) (r : MotionRun) : Prop where
  granted : s.arb.granted = some ⟨r.link, r.seq⟩
  line : s.line = none
  test : s.test = none

theorem State.runsOnly_of_ledger {s t : State} {r x : MotionRun} (h : t.ledger = s.ledger) (link : x.link = r.link)
    (seq : x.seq = r.seq) (only : s.RunsOnly r) : t.RunsOnly x := by
  obtain ⟨granted, line, test⟩ := only
  have hl : t.line.map (·.link) = s.line.map (·.link) := congrArg Ledger.line h
  have ht : t.test.map (·.seq) = s.test.map (·.seq) := congrArg Ledger.test h
  rw [line] at hl
  rw [test] at ht
  exact ⟨by rw [link, seq]; exact (congrArg Ledger.granted h).trans granted, Option.map_eq_none_iff.mp hl,
    Option.map_eq_none_iff.mp ht⟩

theorem State.GrantSound.runsOnly {s : State} (h : s.GrantSound) {r : MotionRun} (held : s.drive.run = some r) :
    s.RunsOnly r := by
  obtain ⟨granted, line, test⟩ := h.run r held
  exact ⟨granted, line, test⟩

/-- What a move adds to the entry's report leaves its link. -/
@[simp] theorem MotionRun.add_link (r : MotionRun) (m : MoveContext) : (r.add m).link = r.link := by
  unfold MotionRun.add
  split <;> rfl

@[simp] theorem MotionRun.add_seq (r : MotionRun) (m : MoveContext) : (r.add m).seq = r.seq := by
  unfold MotionRun.add
  split <;> rfl

section
variable (s : State) (r : MotionRun)

theorem State.completeRun_keeps (o : MoveOutcome) (x : Option NotMadeReason) :
    State.KeepsIf (s.RunsOnly r) s (s.completeRun r o x) := by
  unfold State.completeRun
  dsimp only
  generalize hp : s.post r.link _ = t
  have posted : t.ledger = s.ledger := by rw [← hp]; rfl
  have closed : t.Keeps (t.modifyDrive (fun d => { d with run := none })) :=
    .close rfl rfl rfl (.inl rfl) (.inr rfl) (.inl rfl)
  refine .after posted (State.runsOnly_of_ledger posted rfl rfl)
    ⟨fun h => State.completeEntry_storeSound _ (closed.store h), fun only h => ?_⟩
  obtain ⟨granted, line, test⟩ := only
  exact State.completeEntry_grantSound (closed.grant h) granted line rfl test

/-- The motion entry is, or stays, in progress. -/
theorem State.setRun_keeps : State.KeepsIf (s.RunsOnly r) s (s.modifyDrive (fun d => { d with run := some r })) := by
  refine ⟨fun h => h.of_sublist rfl fun l => .refl _, fun only h => ?_⟩
  obtain ⟨granted, line, test⟩ := only
  refine ⟨h.only, h.head, fun c hc => ?_, fun x hx => ?_, fun c hc => ?_, h.rights⟩
  · rw [State.modifyDrive_line, line] at hc; cases hc
  · cases hx; exact ⟨granted, line, test⟩
  · rw [State.modifyDrive_test, test] at hc; cases hc

theorem State.runMove_keeps (k : MoveKind) : State.KeepsIf (s.RunsOnly r) s (s.runMove r k) :=
  (s.setRun_keeps r).trans (.of_ledger rfl)

theorem State.changePath_completeRun_keeps (p : PaperPath) (o : MoveOutcome) (x : Option NotMadeReason) :
    State.KeepsIf (s.RunsOnly r) s ((s.changePath p).completeRun r o x) :=
  .after (s.changePath_ledger p) (State.runsOnly_of_ledger (s.changePath_ledger p) rfl rfl)
    (State.completeRun_keeps _ r o x)

theorem State.judgeRun_keeps : State.KeepsIf (s.RunsOnly r) s (s.judgeRun r) := by
  have ends := s.completeRun_keeps r
  have moves := s.runMove_keeps r
  unfold State.judgeRun
  dsimp only
  split
  · exact .ite (ends _ _) (moves _)
  · exact .ite (ends _ _) (moves _)
  · exact .ite (ends _ _) (moves _)
  · exact .ite (ends _ _) (.ite (ends _ _) (moves _))
  · exact .ite (ends _ _) (.ite (ends _ _) (.ite (ends _ _) (.ite (moves _) (moves _))))
  · exact .ite (ends _ _) (.ite (moves _) (moves _))
  · exact .ite (ends _ _) (.ite (moves _) (ends _ _))
  · exact .ite (ends _ _) (.ite (moves _) (s.changePath_completeRun_keeps r _ _ _))
  · exact ends _ _

theorem State.startRun_keeps (l : Link) (n : SeqNo) (k : MotionKind) :
    State.KeepsIf (s.arb.granted = some ⟨l, n⟩ ∧ s.line = none ∧ s.test = none) s (s.startRun l n k) := by
  unfold State.startRun
  have runs : s.arb.granted = some ⟨l, n⟩ ∧ s.line = none ∧ s.test = none →
      s.RunsOnly ⟨l, n, k, 0, 0, 0, 0, false⟩ := fun ⟨granted, line, test⟩ => ⟨granted, line, test⟩
  exact .ite (.after rfl runs (s.runMove_keeps _ _)) (.after rfl runs (s.judgeRun_keeps _))

theorem State.runNext_keeps (k : MoveKind) : State.KeepsIf (s.RunsOnly r) s (s.runNext r k) := by
  unfold State.runNext
  split
  · exact s.judgeRun_keeps r
  · exact s.runMove_keeps r _
  · exact s.runMove_keeps r _
  · exact s.changePath_completeRun_keeps r _ _ _
  · exact s.changePath_completeRun_keeps r _ _ _
  · exact s.completeRun_keeps r _ _

end

section
variable (s : State)

theorem State.runMoveEnded_keeps (m : MoveContext) (e : MoveEnd) : s.Keeps (s.runMoveEnded m e) := by
  unfold State.runMoveEnded
  split
  · exact .refl s
  · next r held =>
    have only : s.GrantSound → s.RunsOnly (r.add m) := fun h =>
      State.runsOnly_of_ledger (r := r) rfl (by simp) (by simp) (h.runsOnly held)
    cases e
    · exact (s.runNext_keeps _ _).keeps only
    · exact (s.setRun_keeps _).keeps fun h => State.runsOnly_of_ledger (r := r.add m) rfl rfl rfl (only h)
    · exact (s.completeRun_keeps _ _ _).keeps only
    · exact (s.completeRun_keeps _ _ _).keeps only
    · exact (s.completeRun_keeps _ _ _).keeps only

theorem State.endMove_keeps (e : MoveEnd) : s.Keeps (s.endMove e) := by
  unfold State.endMove
  split
  · exact .refl s
  · next m _ =>
    dsimp only
    generalize hu : State.haltMove _ e = u
    have told : u.ledger = s.ledger := by
      rw [← hu, State.haltMove_ledger]
      split <;> split <;> simp
    refine .after told ?_
    split
    · exact u.runMoveEnded_keeps m e
    · exact .refl u
    · split
      · exact .of_ledger (by simp)
      · exact u.lineTail_keeps
      · exact u.lineMoveDone_keeps

theorem State.beginMove_keeps (d : DueMove) : s.Keeps (s.beginMove d) := by
  unfold State.beginMove
  dsimp only
  exact .ite (.after (by simp) (State.endMove_keeps _ _)) (.of_ledger (by simp))

theorem State.stallMove_keeps (m : MoveContext) : s.Keeps (s.stallMove m) := by
  unfold State.stallMove
  dsimp only
  exact .ite (.after (by simp) (State.endMove_keeps _ _)) (.of_ledger (by simp))

theorem State.stepMove_keeps (m : MoveContext) (paper mark : Bool) : s.Keeps (s.stepMove m paper mark) := by
  unfold State.stepMove
  dsimp only
  refine .ite (.after ?_ (State.endMove_keeps _ _)) (.ite (.after ?_ (State.stallMove_keeps _ _))
    (.ite (.after ?_ (State.endMove_keeps _ _)) (.of_ledger ?_)))
  all_goals simp

/-! ## Grants, and what an event brings with it -/

/-- The line context of the granted entry is opened. -/
theorem State.setLine_keeps (c : LineContext) (n : SeqNo) :
    State.KeepsIf (s.arb.granted = some ⟨c.link, n⟩ ∧ s.drive.run = none ∧ s.test = none) s
      { s with line := some c } := by
  refine ⟨fun h => h.of_sublist rfl fun l => .refl _, fun only h => ?_⟩
  obtain ⟨granted, run, test⟩ := only
  refine ⟨h.only, h.head, fun d hd => ?_, fun r hr => ?_, fun d hd => ?_, h.rights⟩
  · cases hd; exact ⟨⟨n, granted⟩, run, test⟩
  · exact absurd (hr : s.drive.run = some r) (by simp [run])
  · exact absurd (hd : s.test = some d) (by simp [test])

theorem State.openLine_keeps (l : Link) (n : SeqNo) (f : LineFields) :
    State.KeepsIf (s.arb.granted = some ⟨l, n⟩ ∧ s.drive.run = none ∧ s.test = none) s (s.openLine l f) := by
  unfold State.openLine
  dsimp only
  generalize hu : s.modifyResult l _ = u
  have zeroed : u.ledger = s.ledger := by rw [← hu]; simp
  have same : u.arb = s.arb ∧ u.drive = s.drive ∧ u.test = s.test := by rw [← hu]; exact ⟨rfl, rfl, rfl⟩
  obtain ⟨arb, drive, test⟩ := same
  refine .after zeroed (fun only => ?_) (.ite ((u.setLine_keeps _ n).trans (.of_ledger rfl)) (u.setLine_keeps _ n))
  rw [arb, drive, test]
  exact only

/-- The head of a queue becomes GRANTED, with no entry granted before. -/
theorem State.takeHead_keeps {s : State} {l : Link} {e : Entry} (head : s.headEntry l = some e)
    (free : s.arb.granted = none) (x : Option Nat) :
    s.Keeps ((s.modifyHead l (fun e => { e with state := .granted })).modifyArb
      (fun a => { a with granted := some { link := l, seq := e.seq }, autoTimer := x })) := by
  obtain ⟨es, queue⟩ : ∃ es, (s.store.get l).queue = e :: es := by
    cases hq : (s.store.get l).queue with
    | nil => simp [State.headEntry, hq] at head
    | cons d es => simp [State.headEntry, hq] at head; exact ⟨es, by rw [head]⟩
  have after : ∀ k, ((s.modifyHead l (fun e => { e with state := .granted })).store.get k).queue =
      if k = l then { e with state := .granted } :: es else (s.store.get k).queue := fun k => by
    rw [State.modifyHead_queue, queue]; rfl
  refine ⟨fun h => h.of_sublist rfl fun k => ?_, fun h => ?_⟩
  · rw [State.modifyArb_store, after]
    split
    · next same => subst same; rw [queue]; exact .refl _
    · exact .refl _
  · obtain ⟨line, run, test, quiet⟩ := h.idle free
    refine ⟨fun k i d hd state => ?_, fun g hg => ?_, fun c hc => ?_, fun r hr => ?_, fun c hc => ?_, fun d hd p => ?_⟩
    · rw [State.modifyArb_store, after] at hd
      split at hd
      · next same =>
        subst same
        cases i with
        | zero => cases hd; exact ⟨rfl, rfl⟩
        | succ i =>
          refine absurd state (quiet k d ?_)
          rw [queue]
          exact List.mem_cons_of_mem _ (List.mem_of_getElem? hd)
      · exact absurd state (quiet k d (List.mem_of_getElem? hd))
    · cases hg
      refine ⟨{ e with state := .granted }, ?_, rfl, rfl⟩
      rw [State.headEntry, State.modifyArb_store, after, if_pos rfl]; rfl
    · exact absurd (hc : s.line = some c) (by simp [line])
    · exact absurd (hr : s.drive.run = some r) (by simp [run])
    · exact absurd (hc : s.test = some c) (by simp [test])
    · have job := after .job
      change d ∈ ((s.modifyHead l (fun e => { e with state := .granted })).store.get .job).queue at hd
      rw [job] at hd
      split at hd
      · next same =>
        subst same
        have was := h.rights e (by rw [show s.store.job.queue = e :: es from queue]; simp) p
        have others := fun x hx => h.rights x (by rw [show s.store.job.queue = e :: es from queue]; exact List.mem_cons_of_mem _ hx) p
        rcases List.mem_cons.mp hd with rfl | hd
        · exact was
        · exact others d hd
      · exact h.rights d hd p

theorem State.grant_keeps {s : State} {l : Link} {e : Entry} (head : s.headEntry l = some e)
    (free : s.arb.granted = none) : s.Keeps (s.grant l e) := by
  unfold State.grant
  dsimp only
  have taken := State.takeHead_keeps head free none
  generalize hu : State.modifyArb _ _ = u at taken ⊢
  have granted : u.arb.granted = some ⟨l, e.seq⟩ := by rw [← hu]; rfl
  have idle : s.GrantSound → u.line = none ∧ u.drive.run = none ∧ u.test = none := fun h => by
    obtain ⟨line, run, test, -⟩ := h.idle free
    rw [← hu]; exact ⟨line, run, test⟩
  have opens : ∀ {p t}, State.KeepsIf p u t → (s.GrantSound → p) → s.Keeps t := fun k hp =>
    ⟨fun h => k.store (taken.store h), fun h => k.grant (hp h) (taken.grant h)⟩
  split
  · next f _ =>
    refine opens (.after (by simp) (fun only => only) (State.openLine_keeps _ l e.seq f)) fun h => ?_
    obtain ⟨line, run, test⟩ := idle h
    split <;> exact ⟨granted, run, test⟩
  · next p test =>
    refine opens (u.openTest_keeps e.seq p) fun h => ?_
    obtain ⟨line, run, -⟩ := idle h
    cases l with
    | console => exact ⟨granted, line, run⟩
    | job => exact absurd test (h.rights e (List.mem_of_mem_head? head) p)
  · refine opens (.after (u.modifyHalt_ledger _) (fun only => only) (State.startRun_keeps _ l e.seq .load)) fun h => ?_
    obtain ⟨line, run, test⟩ := idle h
    exact ⟨granted, line, test⟩
  · refine opens (u.startRun_keeps l e.seq _) fun h => ?_
    obtain ⟨line, run, test⟩ := idle h
    exact ⟨granted, line, test⟩

theorem State.judgeHead_keeps {l : Link} (free : s.arb.granted = none) : s.Keeps (s.judgeHead l) := by
  obtain ⟨-, e⟩ | ⟨_, head, -, e⟩ | ⟨_, -, -, e⟩ | ⟨_, -, -, e⟩ := s.judgeHead_cases l <;> rw [e]
  · exact .refl s
  · exact State.grant_keeps head free
  · exact .of_ledger rfl
  · exact .of_ledger rfl

theorem State.settle_keeps : s.Keeps s.settle := by
  refine State.settle_rel State.Keeps State.Keeps.refl State.Keeps.trans (fun {s t} h => ?_)
    (fun s => .of_ledger s.judgeTimers_ledger) s
  obtain ⟨p, -, rfl⟩ | ⟨e, -, load, rfl⟩ | ⟨l, -, -, quiet, -, rfl⟩ := State.settleOnce_cases h
  · exact s.planNow_keeps p
  · obtain ⟨head, -, -, free, -⟩ := State.loadReady_spec load
    exact State.grant_keeps head free
  · obtain ⟨-, free, -⟩ := State.isIdle_spec quiet
    exact s.judgeHead_keeps free

/-- What an event brings with it, after operations that leave the ledger. -/
theorem State.settle_keeps_after {s t : State} (h : t.ledger = s.ledger) : s.Keeps t.settle := .after h t.settle_keeps

theorem State.judgeGates_keeps : s.Keeps s.judgeGates := .ite s.settle_keeps (.refl s)

/-! ## The carriage -/

theorem State.enterFault_keeps (c : CarCause) : s.Keeps (s.enterFault c) := by
  unfold State.enterFault
  dsimp only
  generalize hu : State.cutAll _ = u
  have cut : u.ledger = s.ledger := by rw [← hu]; split <;> simp
  have tested := State.Keeps.after cut u.testCut_keeps
  exact .before (.ite (tested.trans (State.abandonPass_keeps _)) tested) (State.postBoth_ledger _ _)

theorem State.carriageFails_keeps (c : CarCause) : s.Keeps (s.carriageFails c) := by
  unfold State.carriageFails
  split
  · exact .of_ledger (s.failHoming_ledger c)
  · exact s.enterFault_keeps c
  · exact s.enterFault_keeps c
  · exact s.enterFault_keeps c
  · exact s.enterFault_keeps c
  · exact .refl s
  · exact .refl s

theorem State.finishPass_keeps : s.Keeps s.finishPass :=
  .after (by simp) ((State.endPass_keeps _).before (State.handOver_ledger _))

theorem State.countPass_keeps (m : CarMotion) (d : Dir) : s.Keeps (s.countPass m d) := by
  unfold State.countPass
  dsimp only
  exact .ite (.after (by simp) (State.finishPass_keeps _)) (.of_ledger (by simp))

theorem State.countTrusted_keeps (d : Dir) : s.Keeps (s.countTrusted d) := by
  unfold State.countTrusted
  refine .ite (s.enterFault_keeps _) ?_
  split
  · exact .refl s
  split
  · exact .of_ledger (by simp)
  · exact s.countPass_keeps _ d

theorem State.countEffect_keeps (d : Dir) : s.Keeps (s.countEffect d) := by
  unfold State.countEffect
  split
  · exact .refl s
  · exact .refl s
  · exact .of_ledger (by simp)
  all_goals exact s.countTrusted_keeps d

theorem State.countChange_keeps (ch : EncoderChannel) : s.Keeps (s.countChange ch) :=
  .after (by simp) ((State.countEffect_keeps _ _).trans (State.settle_keeps _))

end
end Sys2Proof.Machine

namespace Sys2Proof.Machine

/-! ## Acceptance, release and purge (R25, R27, R28, R36, R179) -/

/-- The chain takes its block numbers from the front of the free list (log entry 10). -/
theorem layChain_numbers (ns : List Nat) (runs : List (List Rows)) :
    (layChain ns runs).map (·.number) = ns.take runs.length := by
  induction ns generalizing runs with
  | nil => simp [layChain]
  | cons n ns ih =>
    cases runs with
    | nil => simp [layChain]
    | cons r runs => simpa [layChain] using ih runs

theorem cutBlocks_length (cols : List Rows) : (cutBlocks cols).length = blocksFor cols.length := by
  simp [cutBlocks]

/-- The runs of a payload's columns are as many as the blocks that its segments need (R18, R20). -/
theorem chainRuns_length (bs : List Byte) (pos : Nat) (segs : List Segment) :
    (chainRuns (segmentColumns bs pos segs)).length = blocksNeeded segs := by
  induction segs generalizing pos with
  | nil => rfl
  | cons g segs ih =>
    have ih := ih (pos + 3 * g.count)
    simp only [chainRuns, blocksNeeded] at ih ⊢
    simp [segmentColumns, cutBlocks_length, ih]

/-- A record that fits keeps the shared region within its total (R27, R28). -/
theorem sharedInUse_of_fits {reserve u v : Link → Nat} {total n : Nat} {l : Link}
    (within : sharedInUse reserve u ≤ total) (fit : n ≤ availableTo reserve u total l) (more : v l = u l + n)
    (same : ∀ k, k ≠ l → v k = u k) : sharedInUse reserve v ≤ total := by
  cases l
  · have other := same .console (by decide)
    simp only [sharedInUse, availableTo, more, other] at *
    omega
  · have other := same .job (by decide)
    simp only [sharedInUse, availableTo, more, other] at *
    omega

section
variable {s : State}

/-- With every charge that of its chain, the blocks chained are the blocks used (R27). -/
theorem State.StoreSound.chained_length (h : s.StoreSound) (l : Link) :
    (s.store.get l).chained.length = (s.store.get l).usedBlocks := by
  unfold LinkStore.chained LinkStore.usedBlocks
  rw [List.length_flatten, List.map_map]
  refine congrArg List.sum (List.map_congr_left fun e he => ?_)
  rw [Function.comp_apply, List.length_map, h.charge l e he]

/-- The free blocks are those of the pool in no chain (R25). -/
theorem State.StoreSound.free_length (h : s.StoreSound) :
    (freeBlockNumbers s.store).length + s.chained.length = 384 := by
  have inChain : ((List.range 384).filter (fun b => s.chained.contains b)).length = s.chained.length := by
    refine List.Perm.length_eq ((List.perm_ext_iff_of_nodup (List.nodup_range.filter _) h.distinct).mpr fun b => ?_)
    have range := h.range b
    simp only [List.mem_filter, List.mem_range, List.contains_iff_mem]
    tauto
  have split := List.length_eq_length_filter_add (l := List.range 384) (fun b => s.chained.contains b)
  rw [List.length_range, inChain] at split
  have free : freeBlockNumbers s.store = (List.range 384).filter (fun b => !s.chained.contains b) := rfl
  rw [free]
  omega

theorem State.accept_get (l k : Link) (r : Record) (n : Nat) (st : EntryState) :
    ((s.accept l r n st).store.get k).queue =
      (s.store.get k).queue ++ if k = l then [⟨(s.store.get l).nextSeq, st, n, r, {}, s.acceptCount⟩] else [] := by
  rw [State.accept_queue]
  split
  · next same => rw [same]
  · rw [List.append_nil]

/-- The blocks chained after an acceptance: those before it, and those of the record's chain. -/
theorem State.accept_chained (l : Link) (r : Record) (n : Nat) (st : EntryState) :
    (s.accept l r n st).chained.Perm (s.chained ++ r.chain.map (·.number)) := by
  have chained : ∀ k, ((s.accept l r n st).store.get k).chained =
      (s.store.get k).chained ++ if k = l then r.chain.map (·.number) else [] := fun k => by
    unfold LinkStore.chained
    rw [State.accept_get]
    split <;> simp
  have job := chained .job
  have console := chained .console
  unfold State.chained
  change (((s.accept l r n st).store.get .job).chained ++ ((s.accept l r n st).store.get .console).chained).Perm
    (((s.store.get .job).chained ++ (s.store.get .console).chained) ++ _)
  rw [job, console]
  cases l
  · simp only [if_pos, reduceCtorEq, if_false, List.append_nil, List.append_assoc]
    exact List.Perm.append_left _ List.perm_append_comm
  · simp

theorem State.accept_storeSound (h : s.StoreSound) {l : Link} {r : Record} {n : Nat} (st : EntryState)
    (blocks : n ≤ availableBlocks s.store l) (desc : 1 ≤ availableDescs s.store l)
    (chain : r.chain.map (·.number) = (freeBlockNumbers s.store).take n) : (s.accept l r n st).StoreSound := by
  have used : ∀ k, ((s.accept l r n st).store.get k).usedBlocks =
      (s.store.get k).usedBlocks + if k = l then n else 0 := fun k => by
    unfold LinkStore.usedBlocks
    rw [State.accept_get]
    split <;> simp
  have live : ∀ k, ((s.accept l r n st).store.get k).usedDescs =
      (s.store.get k).usedDescs + if k = l then 1 else 0 := fun k => by
    unfold LinkStore.usedDescs
    rw [State.accept_get]
    split <;> simp
  have withinBlocks : sharedInUse blockReserve (fun k => ((s.accept l r n st).store.get k).usedBlocks) ≤ 240 :=
    sharedInUse_of_fits (l := l) h.blocks blocks (by rw [used, if_pos rfl]) fun k other => by
      rw [used, if_neg other, Nat.add_zero]
  have withinDescs : sharedInUse descReserve (fun k => ((s.accept l r n st).store.get k).usedDescs) ≤ 24 :=
    sharedInUse_of_fits (l := l) h.descs desc (by rw [live, if_pos rfl]) fun k other => by
      rw [live, if_neg other, Nat.add_zero]
  have room : n ≤ (freeBlockNumbers s.store).length := by
    have total := h.free_length
    have job := h.chained_length .job
    have console := h.chained_length .console
    have usedJob := used .job
    have usedConsole := used .console
    have chained : s.chained.length = (s.store.get .job).chained.length + (s.store.get .console).chained.length := by
      simp [State.chained, PerLink.get]
    simp only [sharedInUse, blockReserve] at withinBlocks
    cases l <;> simp only [reduceCtorEq, if_true, if_false] at usedJob usedConsole <;> omega
  have length : n = r.chain.length := by
    have := congrArg List.length chain
    simp only [List.length_map, List.length_take] at this
    omega
  have fresh : ∀ b ∈ r.chain.map (·.number), b < 384 ∧ b ∉ s.chained := fun b hb => by
    rw [chain] at hb
    have free := List.mem_filter.mp (List.mem_of_mem_take hb)
    have none : b ∉ s.chained := by simpa [State.chained] using free.2
    exact ⟨List.mem_range.mp free.1, none⟩
  have perm := s.accept_chained l r n st
  have entry : ∀ k, ∀ e ∈ ((s.accept l r n st).store.get k).queue, e ∈ (s.store.get k).queue ∨
      (k = l ∧ e = ⟨(s.store.get l).nextSeq, st, n, r, {}, s.acceptCount⟩) := fun k e he => by
    rw [State.accept_get] at he
    split at he
    · next same => simpa [same] using he
    · exact .inl (by simpa using he)
  refine ⟨perm.nodup_iff.mpr ?_, fun b hb => ?_, fun k e he => ?_, withinBlocks, withinDescs, fun k => ?_,
    fun k e he => ?_, fun a ha b hb => ?_⟩
  · refine List.nodup_append.mpr ⟨h.distinct, ?_, fun a ha b hb same => (fresh b hb).2 (same ▸ ha)⟩
    rw [chain]
    exact (List.nodup_range.filter _).sublist (List.take_sublist _ _)
  · rcases List.mem_append.mp (perm.mem_iff.mp hb) with hb | hb
    · exact h.range b hb
    · exact (fresh b hb).1
  · rcases entry k e he with he | ⟨-, rfl⟩
    · exact h.charge k e he
    · exact length
  · rw [State.accept_get, List.map_append]
    split
    · next same =>
      subst same
      refine List.pairwise_append.mpr ⟨h.order k, List.pairwise_singleton _ _, fun a ha b hb => ?_⟩
      obtain ⟨e, he, rfl⟩ := List.mem_map.mp ha
      rw [List.map_singleton, List.mem_singleton] at hb
      rw [hb]; exact h.stamps k e he
    · simpa using h.order k
  · rw [State.accept_acceptCount]
    rcases entry k e he with he | ⟨-, rfl⟩
    · exact (h.stamps k e he).trans (Nat.lt_succ_self _)
    · exact Nat.lt_succ_self _
  · rcases entry .job a ha with ha | ⟨rfl, rfl⟩
    · rcases entry .console b hb with hb | ⟨-, rfl⟩
      · exact h.apart a ha b hb
      · exact (h.stamps .job a ha).ne
    · rcases entry .console b hb with hb | ⟨other, -⟩
      · exact (h.stamps .console b hb).ne'
      · cases other

/-- An accepted record stands at the tail, not GRANTED (R28, R33). -/
theorem State.accept_grantSound (h : s.GrantSound) {l : Link} {r : Record} (n : Nat) {st : EntryState}
    (waiting : st ≠ .granted) (rights : l = .job → ∀ p : Option Pin, r ≠ .motion (.coilTest p)) :
    (s.accept l r n st).GrantSound := by
  have frame := s.accept_frame l r n st
  have granted : (s.accept l r n st).arb.granted = s.arb.granted := by rw [frame]; dsimp only; split <;> rfl
  have line : (s.accept l r n st).line = s.line := by rw [frame]
  have run : (s.accept l r n st).drive.run = s.drive.run := by rw [frame]
  have test : (s.accept l r n st).test = s.test := by rw [frame]
  refine ⟨fun k i e he state => ?_, fun g hg => ?_, fun c hc => ?_, fun x hx => ?_, fun c hc => ?_, fun e he p => ?_⟩
  · rw [granted]
    refine h.only k i e ?_ state
    rw [State.accept_get, List.getElem?_append] at he
    split at he
    · exact he
    · split at he
      · rw [List.mem_singleton.mp (List.mem_of_getElem? he)] at state
        exact absurd state waiting
      · simp at he
  · obtain ⟨e, head, state, seq⟩ := h.head g (granted ▸ hg)
    refine ⟨e, ?_, state, seq⟩
    rw [State.headEntry, State.accept_get, List.head?_append]
    rw [State.headEntry] at head
    rw [head]; rfl
  · rw [granted, run, test]; exact h.line c (line ▸ hc)
  · rw [granted, line, test]; exact h.run x (run ▸ hx)
  · rw [granted, line, run]; exact h.test c (test ▸ hc)
  · change e ∈ ((s.accept l r n st).store.get .job).queue at he
    rw [State.accept_get] at he
    rcases List.mem_append.mp he with he | he
    · exact h.rights e he p
    · split at he
      · next job => rw [List.mem_singleton.mp he]; exact rights job.symm p
      · simp at he

end

section
variable (s : State)

/-- A release changes no entry but a HELD one, which becomes QUEUED (R179). -/
theorem State.releaseQueue_keeps (l : Link) (stamp : Nat) :
    s.Keeps (s.modifyStore l (fun t => { t with queue := releaseEntry stamp t.queue })) := by
  have queue : ∀ k, ∃ stampOf : Entry → Entry,
      ((s.modifyStore l (fun t => { t with queue := releaseEntry stamp t.queue })).store.get k).queue =
        (s.store.get k).queue.map stampOf ∧
      ∀ e, (stampOf e).charged = e.charged ∧ (stampOf e).seq = e.seq ∧ ((stampOf e).state = .granted ↔ e.state = .granted) := by
    intro k
    rw [State.modifyStore_get]
    split
    · next same =>
      subst same
      refine ⟨_, rfl, fun e => ?_⟩
      split
      · next held => exact ⟨rfl, rfl, by simp [held.2]⟩
      · exact ⟨rfl, rfl, Iff.rfl⟩
    · exact ⟨id, by simp, fun e => ⟨rfl, rfl, Iff.rfl⟩⟩
  refine ⟨fun h => h.of_sublist rfl fun k => ?_, fun h => ?_⟩
  · obtain ⟨f, eq, same⟩ := queue k
    rw [eq, List.map_map]
    exact (List.map_congr_left fun e _ => (same e).1) ▸ .refl _
  · refine ⟨fun k i e he state => ?_, fun g hg => ?_, h.line, h.run, h.test, fun e he p => ?_⟩
    · obtain ⟨f, eq, same⟩ := queue k
      rw [eq, List.getElem?_map] at he
      obtain ⟨d, hd, rfl⟩ := Option.map_eq_some_iff.mp he
      obtain ⟨-, seq, granted⟩ := same d
      rw [seq]
      exact h.only k i d hd (granted.mp state)
    · obtain ⟨f, eq, same⟩ := queue g.link
      obtain ⟨e, head, state, seq⟩ := h.head g hg
      refine ⟨f e, ?_, (same e).2.2.mpr state, (same e).2.1.trans seq⟩
      rw [State.headEntry, eq, List.head?_map]
      exact congrArg _ head
    · obtain ⟨f, eq, same⟩ := queue .job
      change e ∈ ((s.modifyStore l _).store.get .job).queue at he
      rw [eq] at he
      obtain ⟨d, hd, rfl⟩ := List.mem_map.mp he
      rw [show (f d).record = d.record from congrArg Prod.fst (same d).1]
      exact h.rights d hd p

theorem State.release_keeps (u : Fin 2) (x : ReleaseSource) : s.Keeps (s.release u x) := by
  unfold State.release
  split
  · exact (s.releaseQueue_keeps _ _).before (State.postBoth_ledger _ _)
  · exact .of_ledger (s.modifyTally_ledger u _)

theorem State.latchRelease_keeps (u : Fin 2) : s.Keeps (s.latchRelease u) :=
  .ite (.after (s.modifyTally_ledger u _) (State.release_keeps _ u .latch)) (.refl s)

theorem State.qualifiedEdge_keeps (u : Fin 2) : s.Keeps (s.qualifiedEdge u) := by
  unfold State.qualifiedEdge
  dsimp only
  split
  · exact .refl s
  · exact s.release_keeps u .edge
  · exact .ite (.refl s) (.ite (.after (s.modifyTally_ledger u _) (State.release_keeps _ u .count))
      (.of_ledger (s.modifyTally_ledger u _)))
  · exact .of_ledger (s.modifyTally_ledger u _)

/-- At most one entry of a queue is GRANTED (R32). -/
theorem State.GrantSound.granted_length_le {s : State} (h : s.GrantSound) (l : Link) :
    ((s.store.get l).queue.filter (fun e => e.state = .granted)).length ≤ 1 := by
  cases hq : (s.store.get l).queue with
  | nil => simp
  | cons e es =>
    have rest : es.filter (fun e => e.state = .granted) = [] := by
      refine List.filter_eq_nil_iff.mpr fun d hd => ?_
      obtain ⟨i, hi⟩ := List.mem_iff_getElem?.mp hd
      intro state
      exact absurd (h.only l (i + 1) d (by rw [hq]; exact hi) (of_decide_eq_true state)).1 (Nat.succ_ne_zero i)
    rw [List.filter_cons, rest]
    split <;> simp

/-- A purge leaves the GRANTED entry alone (R36). -/
theorem State.purge_keeps (l : Link) : s.Keeps (s.purge l) := by
  have sub : ∀ k, ((s.purge l).store.get k).queue.Sublist (s.store.get k).queue := fun k => by
    rw [State.purge_queue]
    split
    · next same => subst same; exact List.filter_sublist
    · exact .refl _
  refine ⟨fun h => h.of_sublist rfl fun k => (sub k).map _, fun h => ?_⟩
  refine ⟨fun k i e he state => ?_, fun g hg => ?_, h.line, h.run, h.test, fun e he p => ?_⟩
  · rw [State.purge_queue] at he
    split at he
    · next same =>
      subst same
      have bound := (List.getElem?_eq_some_iff.mp he).1
      have few := h.granted_length_le k
      obtain ⟨j, hj⟩ := List.mem_iff_getElem?.mp (List.mem_of_mem_filter (List.mem_of_getElem? he))
      obtain ⟨-, granted⟩ := h.only k j e hj state
      exact ⟨by omega, granted⟩
    · exact h.only k i e he state
  · obtain ⟨e, head, state, seq⟩ := h.head g hg
    refine ⟨e, ?_, state, seq⟩
    rw [State.headEntry, State.purge_queue]
    rw [State.headEntry] at head
    split
    · next same =>
      rw [← same]
      cases hq : (s.store.get g.link).queue with
      | nil => simp [hq] at head
      | cons d es =>
        rw [hq] at head
        cases head
        simp [state]
    · exact head
  · exact h.rights e ((sub .job).subset he) p

end
end Sys2Proof.Machine

namespace Sys2Proof.Machine

/-! ## Resets -/

/-- Empty queues with nothing granted and nothing in progress meet both invariants. -/
theorem State.keeps_of_empty (s : State) {t : State} (queues : ∀ l, (t.store.get l).queue = [])
    (granted : t.arb.granted = none) (line : t.line = none) (run : t.drive.run = none) (test : t.test = none) :
    s.Keeps t := by
  have job : t.store.job.queue = [] := queues .job
  have console : t.store.console.queue = [] := queues .console
  have chained : t.chained = [] := by simp [State.chained, LinkStore.chained, job, console]
  refine ⟨fun _ => ⟨?_, ?_, ?_, ?_, ?_, ?_, ?_, ?_⟩, fun _ => .of_idle granted line run test ?_ ?_⟩
  · simp [chained]
  · simp [chained]
  · simp [queues]
  · simp [sharedInUse, LinkStore.usedBlocks, queues]
  · simp [sharedInUse, LinkStore.usedDescs, queues]
  · simp [queues]
  · simp [queues]
  · simp [job]
  · simp [queues]
  · simp [job]

section
variable (s : State) (l : Link) (f : Frame)

theorem State.powerOnReset_keeps (pins : PowerOnPins) : s.Keeps (s.powerOnReset pins) :=
  s.keeps_of_empty (fun l => by cases l <;> rfl) rfl rfl rfl rfl

/-- The engine reset of the Sequencer changes the Sequencer alone. -/
theorem State.walkReset_frame : s.walkReset = { s with sequ := if s.sequ.walking then s.walkStop.sequ else s.sequ } := by
  unfold State.walkReset
  split <;> rfl

/-- The engine reset of a coil test closes it, and writes at most a pin record (R110). -/
theorem State.resetTest_frame : s.resetTest = { s with
    health := match s.test.bind (·.pin) with
      | some p => s.health.set p.val { s.pinRecord p with lastCoil := .invalid }
      | none => s.health
    test := none } := by
  unfold State.resetTest
  cases h : s.test with
  | none => show s = { s with test := none }; rw [← h]
  | some c =>
    rw [Option.bind_some]
    dsimp only
    cases c.pin with
    | none => rfl
    | some p => rfl

/-- A change of the tear distance changes it alone (R154, R155). -/
theorem State.tearBy_frame (k : MoveKind) (n : Int) : s.tearBy k n = { s with form := { s.form with
    tearDistance := if k.movesTear then s.form.tearDistance + n else s.form.tearDistance } } := by
  unfold State.tearBy
  split <;> rfl

/-- The form position record after the engine reset of the drive: the unconfirmed steps of a forward attempt are
withdrawn (R162). -/
def State.withdrawnForm (s : State) : FormPosition :=
  match s.drive.move with
  | some m =>
    if s.drive.state = .stepping ∧ m.dir = .forward then
      { (s.stallCorrection (m.steps - 4 * m.pulses)).form with
        tearDistance :=
          if m.kind.movesTear then s.form.tearDistance - (m.steps - 4 * m.pulses : Nat) else s.form.tearDistance }
    else s.form
  | none => s.form

/-- A stall correction leaves the tear distance. -/
theorem State.stallCorrection_tearDistance (k : Nat) :
    (s.stallCorrection k).form.tearDistance = s.form.tearDistance := by
  unfold State.stallCorrection
  rw [State.modifyForm_form]
  dsimp only
  rw [FormPosition.withdraw_frame]
  split <;> rfl

/-- The engine reset of the drive changes the form position record and the drive alone (R162). -/
theorem State.resetDrive_frame :
    s.resetDrive = { s with form := s.withdrawnForm, drive := ⟨.stopped, none, none, none⟩ } := by
  unfold State.resetDrive State.withdrawnForm
  cases s.drive.move with
  | none => rfl
  | some m =>
    dsimp only
    by_cases forward : s.drive.state = .stepping ∧ m.dir = .forward
    · rw [if_pos forward, if_pos forward, State.tearBy_frame, State.stallCorrection_tearDistance]; rfl
    · rw [if_neg forward, if_neg forward]

/-- The engine reset, field by field (R164). -/
theorem State.engineReset_frame : s.engineReset = { s with
    port := (s.postBoth .engineReset).port
    store := s.purgeAll.store
    arb := { halt := {}, granted := none, hold := false, idleTimer := none, autoTimer := none,
             head := HeadSettings.defaults }
    line := none
    lists := Vector.replicate 2 .free
    dwell := .none
    car := s.startHoming.car
    sequ := if s.sequ.walking then s.walkStop.sequ else s.sequ
    channels := s.cutAll.channels
    health := s.resetTest.health
    test := none
    form := ({ s with form := s.withdrawnForm } : State).resetForm.form
    map := FormMap.powerOn
    drive := ⟨.stopped, none, none, none⟩
    tally := s.tally.map TallyUnit.engineReset } := by
  have stopped : ((s.resetArbiter.walkReset.cutAll).resetTest).resetPlanner = { s with
      arb := s.resetArbiter.arb, sequ := if s.sequ.walking then s.walkStop.sequ else s.sequ,
      channels := s.cutAll.channels, health := s.resetTest.health, test := none, line := none,
      lists := Vector.replicate 2 .free, dwell := .none } := by
    rw [State.walkReset_frame, State.resetTest_frame, s.resetTest_frame]
    rfl
  have homed : ∀ t : State, t.startHoming.resetDrive.resetForm = { t with
      car := t.startHoming.car, form := ({ t with form := t.withdrawnForm } : State).resetForm.form,
      map := FormMap.powerOn, drive := ⟨.stopped, none, none, none⟩ } := fun t => by
    rw [State.resetDrive_frame]
    rfl
  unfold State.engineReset
  dsimp only
  rw [stopped, homed]
  rfl

theorem State.engineReset_keeps : s.Keeps s.engineReset := by
  rw [State.engineReset_frame]
  exact s.keeps_of_empty (fun l => by cases l <;> rfl) rfl rfl rfl rfl

/-- A change of a link's store that leaves its queue leaves the ledger. -/
theorem State.modifyStore_ledger {g : LinkStore → LinkStore} (h : (g (s.store.get l)).queue = (s.store.get l).queue) :
    (s.modifyStore l g).ledger = s.ledger := by
  cases l
  · exact congrArg (fun q => ({ s.ledger with queue := ⟨q, s.ledger.queue.console⟩ } : Ledger)) (congrArg _ h)
  · exact congrArg (fun q => ({ s.ledger with queue := ⟨s.ledger.queue.job, q⟩ } : Ledger)) (congrArg _ h)

theorem State.linkReset_keeps : s.Keeps (s.linkReset l) := by
  refine (s.purge_keeps l).before ?_
  unfold State.linkReset
  dsimp only
  rw [State.modifyPort_ledger, State.ledger_ite, State.releaseHold_ledger, ite_self]
  exact State.modifyStore_ledger _ l rfl

/-! ## Requests -/

/-- What a motion payload is read as has the code of its first byte and a parameter as long as what follows it (R22,
R192). -/
theorem motionOf_shape {bs : List Byte} {k : MotionKind} (h : motionOf bs = some k) :
    ∃ b rest, bs = b :: rest ∧ b.toNat = k.code ∧ rest.length = k.param.length := by
  cases bs with
  | nil => simp [motionOf, byteAt] at h
  | cons b rest =>
    refine ⟨b, rest, rfl, ?_⟩
    have first : byteAt (b :: rest) 0 = b.toNat := rfl
    unfold motionOf at h
    rw [first] at h
    rw [List.length_cons] at h
    split at h
    iterate 7
      next code len => cases h; exact ⟨code, Nat.succ.inj len⟩
    · next code len =>
      split at h
      · cases h; exact ⟨code, Nat.succ.inj len⟩
      · cases h; exact ⟨code, Nat.succ.inj len⟩
      · cases h
    · next code len =>
      split at h
      · cases h; exact ⟨code, Nat.succ.inj len⟩
      · split at h
        · cases h; exact ⟨code, Nat.succ.inj len⟩
        · cases h
    · cases h

theorem State.acceptLatch_keeps (x : LineFields) : s.Keeps (s.acceptLatch x) := by
  unfold State.acceptLatch
  split
  · exact s.latchRelease_keeps _
  · exact .refl s

theorem fits_iff (t : PerLink LinkStore) (n : Nat) :
    fits t l n = true ↔ n ≤ availableBlocks t l ∧ 1 ≤ availableDescs t l := by
  simp [fits]

theorem State.takePutLine_keeps : s.Keeps (s.takePutLine l f) := by
  unfold State.takePutLine
  split
  · exact .of_ledger (s.respond_ledger l f _ _)
  dsimp only
  split
  · next fit =>
    obtain ⟨blocks, desc⟩ := (fits_iff l _ _).mp fit
    refine State.Keeps.trans ?_ (State.settle_keeps _)
    refine State.Keeps.before (State.Keeps.trans ?_ (State.acceptLatch_keeps _ _)) (State.respond_ledger _ l f _ _)
    refine ⟨fun h => State.accept_storeSound h _ blocks desc ?_, fun h => State.accept_grantSound h _ ?_ fun _ p => ?_⟩
    · rw [← chainRuns_length f.payload (12 + 4 * (segmentsOf f.payload (wordAt f.payload 6)).length)]
      exact layChain_numbers _ _
    · unfold LineFields.entryState
      split <;> decide
    · exact Record.noConfusion
  · exact .of_ledger (s.respond_ledger l f _ _)

/-- A coil test is a motion that Console alone may send (R22). -/
theorem consoleKind_of_coilTest {bs : List Byte} {p : Option Pin} (h : motionOf bs = some (.coilTest p)) :
    consoleKind bs = true := by
  obtain ⟨b, rest, rfl, code, -⟩ := motionOf_shape h
  have first : byteAt (b :: rest) 0 = 9 := code
  simp [consoleKind, first]

theorem State.takePutMotion_keeps : s.Keeps (s.takePutMotion l f) := by
  unfold State.takePutMotion
  split
  · exact .of_ledger (s.respond_ledger l f _ _)
  next allowed =>
  split
  · exact .of_ledger (s.respond_ledger l f _ _)
  next k read =>
  dsimp only
  split
  · next fit =>
    obtain ⟨blocks, desc⟩ := (fits_iff l _ _).mp fit
    refine State.Keeps.trans (State.Keeps.before ?_ (State.respond_ledger _ l f _ _)) (State.settle_keeps _)
    refine ⟨fun h => State.accept_storeSound h _ blocks desc rfl,
      fun h => State.accept_grantSound h _ (by decide) fun job p test => ?_⟩
    cases test
    exact allowed ⟨job, consoleKind_of_coilTest read⟩
  · exact .of_ledger (s.respond_ledger l f _ _)

theorem State.takeSetForm_keeps : s.Keeps (s.takeSetForm l f) := .of_ledger (by simp [State.takeSetForm])

theorem State.takeSetHead_keeps : s.Keeps (s.takeSetHead l f) := .of_ledger (by simp [State.takeSetHead])

theorem State.cancelGranted_keeps : s.Keeps (s.cancelGranted l) := by
  unfold State.cancelGranted
  split
  · exact .ite s.cancelLine_keeps (.refl s)
  · exact .refl s

theorem State.takeCancel_keeps : s.Keeps (s.takeCancel l f) :=
  ((s.purge_keeps l).trans (State.cancelGranted_keeps _ l)).trans (State.settle_keeps_after (by simp))

theorem State.clearJam_keeps : s.Keeps s.clearJam := by
  unfold State.clearJam
  split
  · next r held => exact .ite ((s.completeRun_keeps r _ _).keeps fun h => h.runsOnly held) (.refl s)
  · exact .ite s.completeLine_keeps (.refl s)
  · exact .refl s

theorem State.leaveJam_keeps : s.Keeps s.leaveJam :=
  .ite (.after (s.modifyHalt_ledger _) (State.clearJam_keeps _)) (.refl s)

theorem State.takeClear_keeps : s.Keeps (s.takeClear l f) := by
  unfold State.takeClear
  split
  · exact .of_ledger (s.respond_ledger l f _ _)
  · exact ((s.leaveJam_keeps.before (State.leaveCarriage_ledger _)).trans (State.takeUpLine_keeps _)).trans
      (State.settle_keeps_after (State.respond_ledger _ l f _ _))

theorem State.takeEngineReset_keeps : s.Keeps (s.takeEngineReset l f) := by
  unfold State.takeEngineReset
  split
  · exact .of_ledger (s.respond_ledger l f _ _)
  · exact s.engineReset_keeps.before (State.respond_ledger _ l f _ _)

theorem State.takeLinkReset_keeps : s.Keeps (s.takeLinkReset l f) :=
  (s.linkReset_keeps l).trans (State.settle_keeps_after (State.respond_ledger _ l f _ _))

theorem State.takeTallySet_keeps : s.Keeps (s.takeTallySet l f) := by
  unfold State.takeTallySet
  dsimp only
  refine State.Keeps.trans ?_ (State.settle_keeps_after (State.respondTally_ledger _ l f _))
  exact .after (s.modifyTally_ledger _ _) (.ite (State.latchRelease_keeps _ _) (.refl _))

theorem State.takeTallyMask_keeps : s.Keeps (s.takeTallyMask l f) := by
  unfold State.takeTallyMask
  dsimp only
  refine State.Keeps.trans ?_ (State.settle_keeps_after (State.respondTally_ledger _ l f _))
  exact .after (s.modifyTally_ledger _ _) (.ite (State.latchRelease_keeps _ _) (.refl _))

theorem State.takeRequest_keeps : s.Keeps (s.takeRequest l f) := by
  unfold State.takeRequest
  cases f.kind with
  | noOp => exact .of_ledger rfl
  | putLine => exact s.takePutLine_keeps l f
  | putMotion => exact s.takePutMotion_keeps l f
  | setForm => exact s.takeSetForm_keeps l f
  | setHead => exact s.takeSetHead_keeps l f
  | readState => exact .of_ledger rfl
  | readPosition => exact .of_ledger rfl
  | takeNotice => exact .of_ledger rfl
  | cancel => exact s.takeCancel_keeps l f
  | tallySet => exact s.takeTallySet_keeps l f
  | tallyArm => exact .of_ledger rfl
  | tallyMask => exact s.takeTallyMask_keeps l f
  | tallyClear => exact .of_ledger rfl
  | clear => exact s.takeClear_keeps l f
  | engineReset => exact s.takeEngineReset_keeps l f
  | linkReset => exact s.takeLinkReset_keeps l f

theorem State.byteArrives_keeps (b : Byte) : s.Keeps (s.byteArrives l b) := by
  unfold State.byteArrives
  dsimp only
  refine .ite ?_ (.refl s)
  split
  · exact .after (s.receive_ledger l _ _) (State.takeRequest_keeps _ l _)
  · exact .of_ledger (s.receive_ledger l _ _)

/-- A request keeps what its taking keeps. -/
theorem State.request_keeps_of (k : ReqKind) (bytes : List Byte) {take : State → Link → Frame → State}
    (h : ∀ t f, State.Keeps t (take t l f)) : s.Keeps (s.request k l bytes take) := by
  obtain ⟨f, -, -, e⟩ | ⟨-, e⟩ := s.request_cases k l bytes take <;> rw [e]
  · exact .after (s.receive_ledger l _ _) (h _ f)
  · exact .refl s

end

/-! ## The commands -/

/-- Every next state of an outcome keeps both invariants. -/
def keepsThrough (s : State) (o : Host.Outcome State Fault Refusal) : Prop := ∀ t, o = .next t → s.Keeps t

theorem keepsThrough_next {s t : State} (h : s.Keeps t) : keepsThrough s (.next t) := fun _ e => by
  cases e
  exact h

theorem keepsThrough_same {s t : State} (h : t.ledger = s.ledger) : keepsThrough s (.next t) :=
  keepsThrough_next (.of_ledger h)

/-- A command that does something under a condition, and else leaves the state. -/
theorem keepsThrough_ite {s t : State} {p : Prop} [Decidable p] (h : s.Keeps t) :
    keepsThrough s (if p then .next t else .next s) := by
  split
  · exact keepsThrough_next h
  · exact keepsThrough_next (.refl s)

section
variable (s : State)

theorem execCarriageStart_keepsThrough : keepsThrough s (execCarriageStart s) := by
  unfold execCarriageStart
  split
  · split
    · exact keepsThrough_same (s.giveStart_ledger _ _ _)
    · exact keepsThrough_same (s.discardPlan_ledger _)
  · exact keepsThrough_next (.refl s)

theorem execDelayTimerExpiry_keepsThrough (col : PinColumn) : keepsThrough s (execDelayTimerExpiry col s) := by
  unfold execDelayTimerExpiry
  split
  · exact keepsThrough_same (by simp)
  · exact keepsThrough_next (.refl s)

theorem execDriveEnd_keepsThrough (p : Pin) (mA : Nat) : keepsThrough s (execDriveEnd p mA s) := by
  unfold execDriveEnd
  split
  · split <;> exact keepsThrough_same (by simp [State.shortPulse, State.judgeDriveEnd])
  · exact keepsThrough_next (.refl s)

theorem execOvercurrent_keepsThrough (p : Pin) : keepsThrough s (execOvercurrent p s) := by
  unfold execOvercurrent
  split
  · exact keepsThrough_same (by simp [State.shortPulse])
  · exact keepsThrough_next (.refl s)

theorem execHoldEnd_keepsThrough (p : Pin) : keepsThrough s (execHoldEnd p s) := by
  unfold execHoldEnd
  split
  · exact keepsThrough_same (s.setChannel_ledger p _)
  · exact keepsThrough_next (.refl s)

theorem execRecoveryEnd_keepsThrough (p : Pin) : keepsThrough s (execRecoveryEnd p s) := by
  unfold execRecoveryEnd
  split
  · exact keepsThrough_next (.after (s.setChannel_ledger p _) ((State.testProceed_keeps _).trans (State.settle_keeps _)))
  · exact keepsThrough_next (.refl s)

theorem execMoveStart_keepsThrough (paper : Bool) : keepsThrough s (execMoveStart paper s) := by
  unfold execMoveStart
  split
  · exact keepsThrough_next (.after (s.modifyForm_ledger _) ((State.beginMove_keeps _ _).trans (State.settle_keeps _)))
  · exact keepsThrough_next (.refl s)

theorem execStep_keepsThrough (paper mark : Bool) : keepsThrough s (execStep paper mark s) := by
  unfold execStep
  split
  · exact keepsThrough_next ((s.stepMove_keeps _ paper mark).trans (State.settle_keeps _))
  · exact keepsThrough_same (s.backoffStep_ledger _ _ paper)
  · exact keepsThrough_next (.refl s)

theorem execSensorPulse_keepsThrough : keepsThrough s (execSensorPulse s) := by
  unfold execSensorPulse
  split
  · exact keepsThrough_ite (.of_ledger (by simp))
  · exact keepsThrough_next (.refl s)

theorem execRetryTimerExpiry_keepsThrough : keepsThrough s (execRetryTimerExpiry s) := by
  unfold execRetryTimerExpiry
  split
  · exact keepsThrough_same (by simp)
  · exact keepsThrough_next (.refl s)

theorem execQualifiedEdge_keepsThrough (u : Fin 2) : keepsThrough s (execQualifiedEdge u s) := by
  unfold execQualifiedEdge
  split
  · exact keepsThrough_next (.after (s.modifyTally_ledger u _)
      ((State.qualifiedEdge_keeps _ u).trans (State.settle_keeps _)))
  · exact keepsThrough_next (.refl s)

theorem request_keepsThrough (k : ReqKind) (l : Link) (bytes : List Byte) {take : State → Link → Frame → State}
    (h : ∀ t f, State.Keeps t (take t l f)) : keepsThrough s (.next (s.request k l bytes take)) :=
  keepsThrough_next (s.request_keeps_of l k bytes h)

/-- Every command keeps the store sound and the grant sound. -/
theorem exec_keepsThrough (c : Instr) : keepsThrough s (exec c s) := by
  cases c with
  | powerOnReset pins => exact keepsThrough_next (s.powerOnReset_keeps pins)
  | selectFalls l => exact keepsThrough_same rfl
  | selectRises l => exact keepsThrough_same rfl
  | byteArrives l b => exact keepsThrough_next (s.byteArrives_keeps l b)
  | noOp l bytes => exact request_keepsThrough s _ l bytes fun t f => .of_ledger rfl
  | putLine l bytes => exact request_keepsThrough s _ l bytes fun t => t.takePutLine_keeps l
  | putMotion l bytes => exact request_keepsThrough s _ l bytes fun t => t.takePutMotion_keeps l
  | setForm l bytes => exact request_keepsThrough s _ l bytes fun t => t.takeSetForm_keeps l
  | setHead l bytes => exact request_keepsThrough s _ l bytes fun t => t.takeSetHead_keeps l
  | readState l bytes => exact request_keepsThrough s _ l bytes fun t f => .of_ledger rfl
  | readPosition l bytes => exact request_keepsThrough s _ l bytes fun t f => .of_ledger rfl
  | takeNotice l bytes => exact request_keepsThrough s _ l bytes fun t f => .of_ledger rfl
  | cancel l bytes => exact request_keepsThrough s _ l bytes fun t => t.takeCancel_keeps l
  | tallySet l bytes => exact request_keepsThrough s _ l bytes fun t => t.takeTallySet_keeps l
  | tallyArm l bytes => exact request_keepsThrough s _ l bytes fun t f => .of_ledger rfl
  | tallyMask l bytes => exact request_keepsThrough s _ l bytes fun t => t.takeTallyMask_keeps l
  | tallyClear l bytes => exact request_keepsThrough s _ l bytes fun t f => .of_ledger rfl
  | clear l bytes => exact request_keepsThrough s _ l bytes fun t => t.takeClear_keeps l
  | engineReset l bytes => exact request_keepsThrough s _ l bytes fun t => t.takeEngineReset_keeps l
  | linkReset l bytes => exact request_keepsThrough s _ l bytes fun t => t.takeLinkReset_keeps l
  | countChange ch dt => exact keepsThrough_next (.after (s.advance_ledger dt) (State.countChange_keeps _ ch))
  | illegalTransition =>
    exact keepsThrough_next (.after (s.modifyCar_ledger _) ((State.carriageFails_keeps _ _).trans (State.settle_keeps _)))
  | stall =>
    exact keepsThrough_ite (.after s.atStandstill_ledger ((State.carriageFails_keeps _ _).trans (State.settle_keeps _)))
  | openPeriodSuspension => exact keepsThrough_same rfl
  | automaticHoming => exact keepsThrough_ite (.of_ledger rfl)
  | homingRestEnd => exact keepsThrough_ite (.ite (.of_ledger rfl) (.of_ledger rfl))
  | indexEdge level => exact keepsThrough_same rfl
  | planComplete => exact keepsThrough_same (by simp)
  | carriageStart => exact execCarriageStart_keepsThrough s
  | delayTimerExpiry col => exact execDelayTimerExpiry_keepsThrough s col
  | driveEnd p mA => exact execDriveEnd_keepsThrough s p mA
  | overcurrent p => exact execOvercurrent_keepsThrough s p
  | holdEnd p => exact execHoldEnd_keepsThrough s p
  | recoveryEnd p => exact execRecoveryEnd_keepsThrough s p
  | coilRise t => exact keepsThrough_ite ((s.testPulseEnd_keeps _).trans (State.settle_keeps _))
  | testPulseTimeout => exact keepsThrough_next ((s.testPulseEnd_keeps _).trans (State.settle_keeps _))
  | windowEnd => exact keepsThrough_next (.after (by simp) (State.judgeGates_keeps _))
  | temperatureConversion code =>
    exact keepsThrough_ite (.after (s.takeTemperature_ledger _) (State.judgeGates_keeps _))
  | supplyConversion code => exact keepsThrough_ite (.after (s.takeSupply_ledger _) (State.judgeGates_keeps _))
  | dwellRunsOut => exact keepsThrough_same rfl
  | moveStart paper => exact execMoveStart_keepsThrough s paper
  | step paper mark => exact execStep_keepsThrough s paper mark
  | sensorPulse => exact execSensorPulse_keepsThrough s
  | retryTimerExpiry => exact execRetryTimerExpiry_keepsThrough s
  | idleReleaseTimerExpiry => exact keepsThrough_ite (State.settle_keeps_after rfl)
  | automaticTear => exact keepsThrough_ite (State.settle_keeps_after (by simp))
  | tallyInputChange u level => exact keepsThrough_same rfl
  | qualifiedEdge u => exact execQualifiedEdge_keepsThrough s u

/-- Every step, a command or a tick, keeps both invariants. -/
theorem step_keepsThrough : keepsThrough s (step s) := by
  unfold step
  split
  · exact keepsThrough_same (s.advance_ledger 1)
  · next c rest _ =>
    intro t run
    exact .after (t := { s with pending := rest }) rfl (exec_keepsThrough _ c t run)

end

/-- Settles O58: every command keeps the queues' charges, chains and stamps (`step_keepsThrough`); an acceptance keeps
them by the accounting of R27, and every other operation at most takes entries away. -/
theorem storeSoundIsKept : Obligations.StoreSoundIsKept := by
  unfold Obligations.StoreSoundIsKept
  intro s t sound run
  exact (step_keepsThrough s t run).store sound

/-- Settles O60: the grant, the queues' heads and the work in progress change together (`step_keepsThrough`). -/
theorem grantSoundIsKept : Obligations.GrantSoundIsKept := by
  unfold Obligations.GrantSoundIsKept
  intro s t sound run
  exact (step_keepsThrough s t run).grant sound

end Sys2Proof.Machine

namespace Sys2Proof.Machine

/-! ## Accounting and FLOW (R27, R31) -/

/-- FLOW that is high falls below 32 blocks or 2 descriptors (R31). -/
theorem flowAfter_true (blocks descs : Nat) : flowAfter true blocks descs = false ↔ blocks < 32 ∨ descs < 2 := by
  simp only [flowAfter, Bool.not_eq_false', Bool.or_eq_true, decide_eq_true_eq]

/-- FLOW that is low rises at 64 blocks and 4 descriptors (R31). -/
theorem flowAfter_false (blocks descs : Nat) : flowAfter false blocks descs = true ↔ 64 ≤ blocks ∧ 4 ≤ descs := by
  simp [flowAfter]

/-- Settles O14: each figure is its definition with the reserves written out, and FLOW by `flowAfter`. -/
theorem accountingAndFlow : Obligations.AccountingAndFlow := by
  unfold Obligations.AccountingAndFlow
  intro s
  refine ⟨?_, fun l => ⟨fun high => ?_, fun low => ?_, s.reflow_queue l, s.reflow_nextSeq l⟩⟩
  · rintro _ _ _ _ rfl rfl rfl rfl
    exact ⟨rfl, rfl, rfl, rfl, rfl, rfl, rfl, rfl⟩
  · rw [State.reflow_flow, high]; exact flowAfter_true _ _
  · rw [State.reflow_flow, low]; exact flowAfter_false _ _

/-! ## Acceptance (R28, R30, R170) -/

/-- Settles O15: the queues and the sequence numbers by the laws of an acceptance, the rest by its frame. -/
theorem acceptanceJoinsTheTail : Obligations.AcceptanceJoinsTheTail := by
  unfold Obligations.AcceptanceJoinsTheTail
  intro s l r n st
  have arb : (s.accept l r n st).arb = if l = .job then { s.arb with idleTimer := none } else s.arb := by
    rw [State.accept_frame]
  refine ⟨by rw [State.accept_queue, if_pos rfl], ?_, fun k other => ⟨?_, ?_⟩, fun job => ?_, fun console => ?_, ?_⟩
  · rw [State.accept_nextSeq, if_pos rfl, BitVec.toNat_add]; rfl
  · rw [State.accept_queue, if_neg other]
  · rw [State.accept_nextSeq, if_neg other]
  · rw [arb, if_pos job]
  · rw [arb, if_neg (by rw [console]; decide)]
  · rw [State.accept_frame]

/-! ## Releases (R179) -/

theorem Entry.heldFor_iff (e : Entry) (i : Fin 2) :
    e.heldFor i = true ↔ e.state = .held ∧ ∃ f, e.record = .line f ∧ f.tallyHold = some i := by
  unfold Entry.heldFor
  cases e.record <;> simp

section
variable {s : State}

/-- Two entries of one queue with the same acceptance stamp are one entry (log entry 11). -/
theorem State.StoreSound.eq_of_stamp (h : s.StoreSound) {l : Link} {d e : Entry} (hd : d ∈ (s.store.get l).queue)
    (he : e ∈ (s.store.get l).queue) (same : d.stamp = e.stamp) : d = e :=
  List.inj_on_of_nodup_map ((h.order l).imp (fun lt => lt.ne)) hd he same

/-- Entries of two queues have different acceptance stamps (log entry 11). -/
theorem State.StoreSound.stamp_ne (h : s.StoreSound) {l k : Link} {d e : Entry} (hd : d ∈ (s.store.get l).queue)
    (he : e ∈ (s.store.get k).queue) (other : l ≠ k) : d.stamp ≠ e.stamp := by
  cases l <;> cases k
  · exact absurd rfl other
  · exact h.apart d hd e he
  · exact (h.apart e he d hd).symm
  · exact absurd rfl other

/-- The first HELD entry of a queue is the one of its link accepted first. -/
theorem State.StoreSound.oldestHeldOf_eq (h : s.StoreSound) {i : Fin 2} {l : Link} {e : Entry}
    (he : e ∈ (s.store.get l).queue) (held : e.heldFor i = true)
    (oldest : ∀ d ∈ (s.store.get l).queue, d.heldFor i = true → e.stamp ≤ d.stamp) : s.oldestHeldOf i l = some e := by
  unfold State.oldestHeldOf
  obtain ⟨before, after, queue⟩ := List.append_of_mem he
  have order := h.order l
  rw [queue, List.map_append, List.pairwise_append] at order
  obtain ⟨-, -, earlier⟩ := order
  refine List.find?_eq_some_iff_append.mpr ⟨held, before, after, queue, fun d hd => ?_⟩
  have younger := earlier d.stamp (List.mem_map_of_mem hd) e.stamp (by simp)
  have mem : d ∈ (s.store.get l).queue := by rw [queue]; exact List.mem_append_left _ hd
  cases hh : d.heldFor i with
  | false => rfl
  | true => exact absurd (oldest d mem hh) (by omega)

/-- The oldest HELD entry over both links, by its acceptance stamp (R179). -/
theorem State.StoreSound.oldestHeld_eq (h : s.StoreSound) {i : Fin 2} {l : Link} {e : Entry}
    (he : e ∈ (s.store.get l).queue) (held : e.heldFor i = true)
    (oldest : ∀ k, ∀ d ∈ (s.store.get k).queue, d.heldFor i = true → e.stamp ≤ d.stamp) :
    s.oldestHeld i = some (l, e) := by
  have own := h.oldestHeldOf_eq he held (oldest l)
  have others : ∀ k d, k ≠ l → s.oldestHeldOf i k = some d → e.stamp < d.stamp := fun k d other found => by
    have mem := List.mem_of_find?_eq_some found
    have le := oldest k d mem (List.find?_some found)
    have ne := h.stamp_ne he mem other.symm
    omega
  unfold State.oldestHeld
  cases l with
  | job =>
    rw [own]
    cases hc : s.oldestHeldOf i .console with
    | none => rfl
    | some b => exact if_pos (others .console b (by decide) hc)
  | console =>
    rw [own]
    cases hj : s.oldestHeldOf i .job with
    | none => rfl
    | some a =>
      have later := others .job a (by decide) hj
      exact if_neg (by omega)

theorem State.oldestHeld_none {i : Fin 2} (none : ∀ l, ∀ e ∈ (s.store.get l).queue, e.heldFor i = false) :
    s.oldestHeld i = .none := by
  have own : ∀ l, s.oldestHeldOf i l = .none := fun l =>
    List.find?_eq_none.mpr fun e he => by simp [none l e he]
  unfold State.oldestHeld
  rw [own, own]

/-- A release of a HELD entry changes the one entry with its stamp (log entry 11). -/
theorem State.StoreSound.releaseEntry_eq (h : s.StoreSound) {l : Link} {e : Entry} (he : e ∈ (s.store.get l).queue)
    (held : e.state = .held) : releaseEntry e.stamp (s.store.get l).queue =
      (s.store.get l).queue.map (fun d => if d.stamp = e.stamp then { d with state := .queued } else d) := by
  refine List.map_congr_left fun d hd => ?_
  by_cases same : d.stamp = e.stamp
  · obtain rfl := h.eq_of_stamp hd he same
    rw [if_pos ⟨rfl, held⟩, if_pos rfl]
  · rw [if_neg fun both => same both.1, if_neg same]

end

/-- Settles O29: with the stamps in order, the oldest HELD entry is the one found, and it alone has its stamp. -/
theorem releaseTakesTheOldestHeld : Obligations.ReleaseTakesTheOldestHeld := by
  unfold Obligations.ReleaseTakesTheOldestHeld
  intro s i src sound
  refine ⟨fun e => e.heldFor_iff i, fun none => ?_, fun l e he held oldest => ?_⟩
  · rw [State.release, State.oldestHeld_none none]
  · obtain ⟨state, -⟩ := (e.heldFor_iff i).mp held
    have queue := sound.releaseEntry_eq he state
    rw [State.release, sound.oldestHeld_eq he held oldest, ← queue]
    rfl

/-! ## LINK RESET (R37, R174, R189) -/

/-- Settles O27: the frame is taken by `takeLinkReset`, whose purge, port and hold are those named. -/
theorem linkResetClearsTheLink : Obligations.LinkResetClearsTheLink := by
  unfold Obligations.LinkResetClearsTheLink
  intro l bytes s u v w f n hf hk hn hu hv job console
  refine ⟨?_, by rw [hu, State.purge_queue, if_pos rfl]; rfl⟩
  have reset : (s.heard l bytes).linkReset l = w := by
    cases l with
    | job => rw [job rfl, hv, hu]; rfl
    | console => rw [console rfl, hv, hu]; rfl
  have run : exec (.linkReset l bytes) s = .next (s.request .linkReset l bytes State.takeLinkReset) := rfl
  rw [run, State.request_of_frameOf _ hf hk, State.takeLinkReset, reset, hn]
  simp only [State.respond, Frame.answer, hk]
  rfl

end Sys2Proof.Machine

namespace Sys2Proof.Machine

/-! ## ENGINE RESET (R38, R78, R91, R99, R110, R144, R162, R164, R177, R190) -/

section
variable (s : State)

/-- After the engine reset of the coil test, the pin in progress has its last result INVALID (R110). -/
theorem State.resetTest_pinRecord (p : Pin) : s.resetTest.pinRecord p =
    if s.test.bind (·.pin) = some p then { s.pinRecord p with lastCoil := .invalid } else s.pinRecord p := by
  rw [State.resetTest_frame]
  cases held : s.test.bind (·.pin) with
  | none => rfl
  | some q =>
    by_cases same : q = p
    · subst same
      rw [if_pos rfl]
      exact s.pinRecord_setPinRecord q _
    · rw [if_neg fun e => same (Option.some.inj e)]
      exact s.pinRecord_setPinRecord_other _ (Ne.symm same)

/-- Empty queues leave FLOW high (R31, R38). -/
theorem State.purgeAll_get (l : Link) : s.purgeAll.store.get l = ⟨[], (s.store.get l).nextSeq, true⟩ := by
  have high : ∀ b : Bool, flowAfter b 336 40 = true ∧ flowAfter b 288 32 = true := by decide
  cases l
  · exact congrArg (LinkStore.mk [] _) (high s.store.job.flow).1
  · exact congrArg (LinkStore.mk [] _) (high s.store.console.flow).2

/-- What a stall correction leaves of the form position record (R127). -/
theorem State.stallCorrection_form (k : Nat) : (s.stallCorrection k).form = { s.form with
    odometer := (s.stallCorrection k).form.odometer, offset := (s.stallCorrection k).form.offset
    form := (s.stallCorrection k).form.form, forwardMark := (s.stallCorrection k).form.forwardMark
    paper := s.form.paper.tailBy k } := by
  unfold State.stallCorrection
  simp only [State.modifyForm_form]
  rw [FormPosition.withdraw_frame, FormPosition.withdraw_paper]
  split <;> rfl

/-- A correction of no steps is none. -/
theorem State.stallCorrection_zero : (s.stallCorrection 0).form = s.form := by
  unfold State.stallCorrection
  simp only [State.modifyForm_form, FormPosition.withdraw]
  split
  · next mark => exact congrArg (fun x => ({ s.form with forwardMark := x } : FormPosition)) mark.symm
  · rfl

theorem PaperState.tailBy_zero (p : PaperState) : p.tailBy 0 = p := by
  cases p <;> simp [PaperState.tailBy]

/-- What the withdrawal of unconfirmed steps leaves of the form position record (R127, R162). -/
theorem State.withdrawnForm_frame : ∃ k : Nat, s.withdrawnForm = { s.form with
    odometer := s.withdrawnForm.odometer, offset := s.withdrawnForm.offset, form := s.withdrawnForm.form
    forwardMark := s.withdrawnForm.forwardMark, paper := s.form.paper.tailBy k
    tearDistance := s.withdrawnForm.tearDistance } := by
  have still : s.form = { s.form with paper := s.form.paper.tailBy (0 : Nat) } := by
    rw [Nat.cast_zero, PaperState.tailBy_zero]
  unfold State.withdrawnForm
  split
  · next m _ =>
    split
    · exact ⟨m.steps - 4 * m.pulses, by rw [State.stallCorrection_form]⟩
    · exact ⟨0, still⟩
  · exact ⟨0, still⟩

theorem MoveKind.movesTear_iff (k : MoveKind) : k.movesTear = true ↔ k = .back ∨ k = .tearAdvance := by
  cases k <;> simp [MoveKind.movesTear]

/-- The steps that ENGINE RESET withdraws, and the record that they leave: those of a forward attempt that no pulse
confirms, and none of any other move (R162). -/
theorem State.withdrawnForm_eq {k : Nat} {x : FormPosition} (idle : s.drive.move = none → k = 0 ∧ x = s.form)
    (move : ∀ m, s.drive.move = some m →
      (s.drive.state = .stepping → m.dir = .forward → k = m.steps - 4 * m.pulses) ∧
      (s.drive.state ≠ .stepping ∨ m.dir = .reverse → k = 0) ∧
      x = { (s.stallCorrection k).form with tearDistance :=
        if m.kind = .back ∨ m.kind = .tearAdvance then s.form.tearDistance - k else s.form.tearDistance }) :
    s.withdrawnForm = x := by
  unfold State.withdrawnForm
  cases held : s.drive.move with
  | none => exact (idle held).2.symm
  | some m =>
    obtain ⟨forward, other, rfl⟩ := move m held
    dsimp only
    split
    · next attempt =>
      rw [forward attempt.1 attempt.2]
      simp only [MoveKind.movesTear_iff]
    · next attempt =>
      have none : k = 0 := other (by
        rcases Decidable.em (s.drive.state = .stepping) with stepping | stopped
        · right
          cases dir : m.dir with
          | forward => exact absurd ⟨stepping, dir⟩ attempt
          | reverse => rfl
        · exact .inl stopped)
      rw [none, Nat.cast_zero, sub_zero, ite_self, State.stallCorrection_zero]

/-- ENGINE RESET in LOADING reads the paper sensor's level, and keeps any other paper state (R144, log entry 42). -/
theorem State.resetForm_paper :
    (∀ a, s.form.paper = .loading a → s.resetForm.form.paper = if s.form.paperSensor then .present else .none) ∧
      ((∀ a, s.form.paper ≠ .loading a) → s.resetForm.form.paper = s.form.paper) := by
  refine ⟨fun a loading => ?_, fun other => ?_⟩
  · show (match s.form.paper with | .loading _ => _ | p => p) = _
    rw [loading]
  · show (match s.form.paper with | .loading _ => _ | p => p) = _
    cases paper : s.form.paper with
    | loading a => exact absurd paper (other a)
    | _ => rfl

end

section
variable (s : State)

/-- The Sequencer after the engine reset: a walk stops, an idle one stays (R99). -/
theorem State.engineReset_sequ : s.engineReset.sequ = if s.sequ.walking then s.walkStop.sequ else s.sequ := by
  rw [State.engineReset_frame]

/-- Every pulse is cut (R91). -/
theorem State.engineReset_channel (p : Pin) : s.engineReset.channel p = (s.channel p).cut := by
  rw [← State.channel_cutAll, State.engineReset_frame]; rfl

theorem State.engineReset_pinRecord (p : Pin) : s.engineReset.pinRecord p =
    if s.test.bind (·.pin) = some p then { s.pinRecord p with lastCoil := .invalid } else s.pinRecord p := by
  rw [← State.resetTest_pinRecord, State.engineReset_frame]; rfl

theorem State.engineReset_store (l : Link) : s.engineReset.store.get l = ⟨[], (s.store.get l).nextSeq, true⟩ := by
  rw [← State.purgeAll_get, State.engineReset_frame]

theorem State.engineReset_tallyUnit (u : Fin 2) : s.engineReset.tallyUnit u = (s.tallyUnit u).engineReset := by
  rw [State.engineReset_frame]
  exact Vector.getElem_map ..

/-- The form after the engine reset is that of the record from which the steps are withdrawn (R144, R162). -/
theorem State.engineReset_form :
    s.engineReset.form = ({ s with form := s.withdrawnForm } : State).resetForm.form := by
  rw [State.engineReset_frame]

/-- The pin of the coil test in progress, as the statements say it. -/
theorem State.testPin_iff (p : Pin) : s.test.bind (·.pin) = some p ↔ ∃ c, s.test = some c ∧ c.pin = some p :=
  Option.bind_eq_some_iff

end

/-- Settles O26: `engineReset_frame` names every field; the form is that of the withdrawn steps (`withdrawnForm_eq`). -/
theorem engineResetStopsTheWork : Obligations.EngineResetStopsTheWork := by
  unfold Obligations.EngineResetStopsTheWork
  intro l bytes s f hf hk
  have run : exec (.engineReset l bytes) s = .next ((s.heard l bytes).takeEngineReset l f) :=
    congrArg _ (State.request_of_frameOf State.takeEngineReset hf hk)
  rw [run]
  refine ⟨fun job => ?_, fun console => ?_⟩
  · subst job
    simp only [State.takeEngineReset, State.respond, Frame.answer, hk]
    rfl
  · subst console
    refine ⟨_, rfl, ?_⟩
    rw [State.takeEngineReset, if_neg (by decide)]
    generalize hu : s.heard .console bytes = u
    have form : u.form = s.form := by rw [← hu]; rfl
    have fields := u.engineReset_frame
    obtain ⟨n, kept⟩ := u.withdrawnForm_frame
    have sequ : u.engineReset.sequ = if s.sequ.walking then s.walkStop.sequ else s.sequ := by
      rw [State.engineReset_sequ, ← hu]; rfl
    refine ⟨?_, ?_, fun k => ?_, ?_, ?_, ?_, ?_, ?_, ?_, fun idle => ?_, fun walking => ?_, fun p => ?_, fun p => ?_,
      ?_, ?_, ?_, ?_, ?_, ?_, ?_, ?_, ?_, ?_, ?_, ?_, fun k x idle move => ?_, fun v => ?_, ?_, ?_⟩
    · show u.engineReset.arb = _; rw [fields]; rfl
    · show u.engineReset.engine = _; rw [fields]; rfl
    · show (u.engineReset.store.get k).queue = [] ∧ (u.engineReset.store.get k).nextSeq = _ ∧
        (u.engineReset.store.get k).flow = true
      rw [State.engineReset_store, ← hu]
      exact ⟨rfl, rfl, rfl⟩
    · show u.engineReset.line = _; rw [fields]
    · show u.engineReset.lists = _; rw [fields]; rfl
    · show u.engineReset.dwell = _; rw [fields]
    · show u.engineReset.test = _; rw [fields]
    · show u.engineReset.car = _; rw [fields, ← hu]; rfl
    · show u.engineReset.sequ.walking = _
      rw [sequ]
      split
      · rfl
      · next still => simpa using still
    · show u.engineReset.sequ = _; rw [sequ, idle]; rfl
    · show u.engineReset.sequ.timerA = _ ∧ u.engineReset.sequ.timerB = _ ∧ u.engineReset.sequ.repairs = _ ∧
        u.engineReset.sequ.overflow = _
      rw [sequ, if_pos walking]
      exact ⟨rfl, rfl, rfl, rfl⟩
    · show u.engineReset.channel p = _
      rw [State.engineReset_channel, ← hu]
      show (s.channel p).cut = _
      cases s.channel p <;> rfl
    · show u.engineReset.pinRecord p = _
      rw [State.engineReset_pinRecord, ← hu]
      exact if_congr (s.testPin_iff p) rfl rfl
    · show u.engineReset.heat = _; rw [fields, ← hu]; rfl
    · show u.engineReset.drive = _; rw [fields]
    · show u.engineReset.steppers = _; rw [fields, ← hu]; rfl
    · show u.engineReset.map = _; rw [fields]; rfl
    · show u.engineReset.form.candidate = _; rw [State.engineReset_form]; rfl
    · show u.engineReset.form.previousEdge = _; rw [State.engineReset_form]; rfl
    · show u.engineReset.form.pendingCorrection = _; rw [State.engineReset_form]; rfl
    · show u.engineReset.form.lastCorrection = _; rw [State.engineReset_form]; rfl
    · show u.engineReset.form.trusted = _; rw [State.engineReset_form]; rfl
    · show u.engineReset.form.path = _; rw [State.engineReset_form, ← form, kept]; rfl
    · show u.engineReset.form.tear = _; rw [State.engineReset_form, ← form, kept]; rfl
    · show u.engineReset.form.edge = _
      rw [State.engineReset_form, ← form, kept, ← hu]
      show freshEdge s.edgeFitted s.form.path = if s.edgeFitted = true ∧ s.form.path = .tractor then _ else _
      simp only [freshEdge, Bool.and_eq_true, decide_eq_true_eq]
    · have withdrawn : u.withdrawnForm = x := by
        rw [← hu] at *
        exact State.withdrawnForm_eq _ idle move
      obtain ⟨loading, other⟩ := State.resetForm_paper { u with form := x }
      have paper : x.paper = s.form.paper.tailBy n := by rw [← withdrawn, kept, form]
      have sensor : x.paperSensor = s.form.paperSensor := by rw [← withdrawn, kept, form]
      show u.engineReset.form.offset = _ ∧ u.engineReset.form.odometer = _ ∧ u.engineReset.form.form = _ ∧
        u.engineReset.form.forwardMark = _ ∧ u.engineReset.form.tearDistance = _ ∧ u.engineReset.form.noPaperRun = _ ∧
        (∀ a, s.form.paper = .loading a → u.engineReset.form.paper = _) ∧
        ((∀ a, s.form.paper ≠ .loading a) → u.engineReset.form.paper = _)
      rw [State.engineReset_form, withdrawn]
      refine ⟨rfl, rfl, rfl, rfl, rfl, rfl, fun a load => ?_, fun none => other fun a load => ?_⟩
      · rw [← sensor]
        exact loading a (by show x.paper = _; rw [paper, load]; rfl)
      · change x.paper = _ at load
        rw [paper] at load
        cases held : s.form.paper with
        | loading b => exact none b held
        | _ => rw [held] at load; cases load
    · show u.engineReset.tallyUnit v = _
      rw [State.engineReset_tallyUnit, ← hu]; rfl
    · show u.engineReset.port.job = _; rw [fields, ← hu]; rfl
    · show { u.engineReset.port.console with built := some (f.answer .ok []) } = _
      rw [fields, Frame.answer, hk]; rfl

end Sys2Proof.Machine

namespace Sys2Proof.Machine

/-! ## The checks of R23 -/

/-- `r` is the lowest check from number `i` on, of those up to 8, that fails, or none when all pass. -/
def LowestFrom (fails : Nat → Prop) (i : Nat) (r : Option Nat) : Prop :=
  (∀ k, r = some k → i ≤ k ∧ k ≤ 8 ∧ fails k ∧ ∀ j, i ≤ j → j < k → ¬ fails j) ∧
    (r = none → ∀ k, i ≤ k → k ≤ 8 → ¬ fails k)

theorem LowestFrom.end (fails : Nat → Prop) : LowestFrom fails 9 none :=
  ⟨fun _ h => (nomatch h), fun _ k low high => by omega⟩

/-- One check: it fails, or the lowest one is among the later checks. -/
theorem LowestFrom.check {fails : Nat → Prop} {i : Nat} {c : Prop} [Decidable c] {r : Option Nat} (h : c ↔ fails i)
    (le : i ≤ 8) (later : ¬ fails i → LowestFrom fails (i + 1) r) : LowestFrom fails i (if c then some i else r) := by
  split
  · next fail => exact ⟨fun k e => by cases e; exact ⟨le_refl i, le, h.mp fail, fun j low high => by omega⟩, by simp⟩
  · next pass =>
    have pass : ¬ fails i := fun x => pass (h.mpr x)
    obtain ⟨lowest, none⟩ := later pass
    have next : ∀ j, i ≤ j → j = i ∨ i + 1 ≤ j := fun j low => by omega
    refine ⟨fun k e => ?_, fun e k low high => ?_⟩
    · obtain ⟨low, high, fail, before⟩ := lowest k e
      refine ⟨by omega, high, fail, fun j lowJ highJ => ?_⟩
      rcases next j lowJ with rfl | lowJ
      · exact pass
      · exact before j lowJ highJ
    · rcases next k low with rfl | low
      · exact pass
      · exact none e k low high

/-- With a dot column in each segment, check 4 is the order of any two segments (R23). -/
theorem segmentsAscend_iff {segs : List Segment} (counts : ∀ g ∈ segs, g.count ≠ 0) :
    segmentsAscend segs = true ↔ segs.Pairwise (fun a b => a.start + a.count ≤ b.start) := by
  induction segs with
  | nil => simp [segmentsAscend]
  | cons a segs ih =>
    have first := counts a (by simp)
    have ih := ih fun g hg => counts g (List.mem_cons_of_mem a hg)
    cases segs with
    | nil => simp [segmentsAscend]
    | cons b rest =>
      rw [segmentsAscend, Bool.and_eq_true, ih, List.pairwise_cons (a := a), decide_eq_true_eq]
      refine and_congr_left fun sorted => ?_
      refine ⟨fun next g hg => ?_, fun all => ?_⟩
      · rcases List.mem_cons.mp hg with rfl | hg
        · omega
        · have later := (List.pairwise_cons.mp sorted).1 g hg
          omega
      · have next := all b (by simp)
        omega

theorem densityOf_isNone (n : Nat) : (densityOf n).isNone = true ↔ n ∉ [120, 144, 180, 240, 360] := by
  unfold densityOf
  split
  · next h => simp [h]
  split
  · next h => simp [h]
  split
  · next h => simp [h]
  split
  · next h => simp [h]
  split
  · next h => simp [h]
  · simp [*]

theorem dirRequestOf_isNone (n : Nat) : (dirRequestOf n).isNone = true ↔ 2 < n := by
  match n with
  | 0 => decide
  | 1 => decide
  | 2 => decide
  | n + 3 => exact iff_of_true rfl (by omega)

theorem ceilingOf_isNone (n : Nat) : (ceilingOf n).isNone = true ↔ 2 < n := by
  match n with
  | 0 => decide
  | 1 => decide
  | 2 => decide
  | n + 3 => exact iff_of_true rfl (by omega)

theorem tallyHoldOf_isNone (n : Nat) : (tallyHoldOf n).isNone = true ↔ n ∉ [0, 1, 255] := by
  unfold tallyHoldOf
  split
  · simp
  · simp
  · simp
  · next h0 h1 h2 => simpa using ⟨h0, h1, h2⟩

/-- The check that `lineCheck` answers is the lowest that fails (R23). -/
theorem lineCheck_lowest {bs : List Byte} {n : Nat} {segs : List Segment} {fails : Nat → Prop} (hn : n = wordAt bs 6)
    (hs : segs = (List.range n).map (fun i => (⟨wordAt bs (12 + 4 * i), wordAt bs (14 + 4 * i)⟩ : Segment)))
    (f0 : fails 0 ↔ bs.length < 12 ∨ (1 ≤ n ∧ n ≤ 16 ∧ bs.length < 12 + 4 * n)) (f1 : fails 1 ↔ n = 0 ∨ 16 < n)
    (f2 : fails 2 ↔ ∃ g ∈ segs, g.count = 0 ∨ 4896 < g.count)
    (f3 : fails 3 ↔ ∃ g ∈ segs, 4895 < g.start ∨ 4896 < g.start + g.count)
    (f4 : fails 4 ↔ ¬ segs.Pairwise (fun a b => a.start + a.count ≤ b.start))
    (f5 : fails 5 ↔ bs.length ≠ 12 + 4 * n + 3 * (segs.map (·.count)).sum)
    (f6 : fails 6 ↔ wordAt bs 0 ∉ [120, 144, 180, 240, 360])
    (f7 : fails 7 ↔ 2 < byteAt bs 8 ∨ 2 < byteAt bs 9 ∨ byteAt bs 11 ∉ [0, 1, 255])
    (f8 : fails 8 ↔ 153 < (segs.map (fun g => (g.count + 31) / 32)).sum) : LowestFrom fails 0 (lineCheck bs) := by
  have table : segmentsOf bs (wordAt bs 6) = segs := by rw [hs, hn]; rfl
  unfold lineCheck
  dsimp only
  rw [table, ← hn]
  refine .check f0.symm (by decide) fun _ => .check f1.symm (by decide) fun _ =>
    .check (Iff.trans ?_ f2.symm) (by decide) fun counts => .check (Iff.trans ?_ f3.symm) (by decide) fun _ =>
    .check (Iff.trans ?_ f4.symm) (by decide) fun _ => .check f5.symm (by decide) fun _ =>
    .check ((densityOf_isNone _).trans f6.symm) (by decide) fun _ => .check (Iff.trans ?_ f7.symm) (by decide) fun _ =>
    .check f8.symm (by decide) fun _ => .end fails
  · simp
  · simp only [List.any_eq_true, Bool.or_eq_true, decide_eq_true_eq]
    refine exists_congr fun g => and_congr_right fun _ => or_congr_right ?_
    omega
  · have nonzero : ∀ g ∈ segs, g.count ≠ 0 := fun g hg zero => counts (f2.mpr ⟨g, hg, .inl zero⟩)
    rw [← segmentsAscend_iff nonzero, Bool.not_eq_true', Bool.not_eq_true]
  · rw [Bool.or_eq_true, Bool.or_eq_true, dirRequestOf_isNone, ceilingOf_isNone, tallyHoldOf_isNone, or_assoc]

/-! ## PUT LINE (R18, R19, R28, R33, R179) -/

section
variable {s : State}

/-- An entry HELD for an input is found (R179). -/
theorem State.oldestHeld_isSome {l : Link} {e : Entry} {i : Fin 2} (he : e ∈ (s.store.get l).queue)
    (held : e.heldFor i = true) : (s.oldestHeld i).isSome = true := by
  have own : (s.oldestHeldOf i l).isSome = true := List.find?_isSome.mpr ⟨e, he, held⟩
  obtain ⟨d, found⟩ := Option.isSome_iff_exists.mp own
  unfold State.oldestHeld
  cases l with
  | job =>
    rw [found]
    cases s.oldestHeldOf i .console with
    | none => rfl
    | some b => dsimp only; split <;> rfl
  | console =>
    rw [found]
    cases s.oldestHeldOf i .job with
    | none => rfl
    | some a => dsimp only; split <;> rfl

/-- The latch release that the acceptance of a line leads to: with the latch ready, that of a HELD record, which the
accepted line is itself (R33, R179). -/
theorem State.acceptLatch_accept (l : Link) (g : LineFields) (n : Nat) {v : State}
    (free : g.tallyHold = none → v = s.accept l (.line g) n g.entryState)
    (shut : ∀ i, g.tallyHold = some i → (s.tallyUnit i).latchReady = false → v = s.accept l (.line g) n g.entryState)
    (ready : ∀ i, g.tallyHold = some i → (s.tallyUnit i).latchReady = true →
      v = ((s.accept l (.line g) n g.entryState).modifyTally i (fun t => { t with latch := false })).release i .latch) :
    (s.accept l (.line g) n g.entryState).acceptLatch g = v := by
  unfold State.acceptLatch
  cases hold : g.tallyHold with
  | none => exact (free hold).symm
  | some i =>
    have unit : (s.accept l (.line g) n g.entryState).tallyUnit i = s.tallyUnit i := by rw [State.accept_frame]; rfl
    dsimp only
    unfold State.latchRelease
    rw [unit]
    cases latch : (s.tallyUnit i).latchReady with
    | false => rw [if_neg fun both => Bool.false_ne_true both.1]; exact (shut i hold latch).symm
    | true =>
      have held : ((s.accept l (.line g) n g.entryState).oldestHeld i).isSome = true := by
        refine State.oldestHeld_isSome (l := l) (e := ⟨(s.store.get l).nextSeq, g.entryState, n, .line g, {},
          s.acceptCount⟩) ?_ ?_
        · rw [State.accept_queue, if_pos rfl]; simp
        · exact (Entry.heldFor_iff _ i).mpr ⟨by simp [LineFields.entryState, hold], g, rfl, hold⟩
      rw [if_pos ⟨rfl, held⟩]
      exact (ready i hold latch).symm

end

theorem fits_eq_false {t : PerLink LinkStore} {l : Link} {n : Nat}
    (h : availableBlocks t l < n ∨ availableDescs t l < 1) : fits t l n = false := by
  rw [Bool.eq_false_iff, ne_eq, fits_iff]
  omega

/-- Settles O16: the checks by `lineCheck_lowest`, the latch by `acceptLatch_accept`, and the answers read off. -/
theorem putLineAnswered : Obligations.PutLineAnswered := by
  unfold Obligations.PutLineAnswered
  refine ⟨fun bs n segs fails hn hs f0 f1 f2 f3 f4 f5 f6 f7 f8 => ?_, fun l bytes s f hf hk => ?_⟩
  · obtain ⟨lowest, none⟩ := lineCheck_lowest hn hs f0 f1 f2 f3 f4 f5 f6 f7 f8
    refine ⟨fun k e => ?_, fun e k => none e k (Nat.zero_le k)⟩
    obtain ⟨-, le, fail, before⟩ := lowest k e
    exact ⟨le, fail, fun j => before j (Nat.zero_le j)⟩
  · have run : exec (.putLine l bytes) s = .next ((s.heard l bytes).takePutLine l f) :=
      congrArg _ (State.request_of_frameOf State.takePutLine hf hk)
    rw [run]
    refine ⟨fun n fail => ?_, fun n pass need short => ?_, fun u v g n pass need blocks descs hg hu free shut ready => ?_⟩
    · rw [State.takePutLine, fail]
      simp only [State.respond, Frame.answer, hk]
      rfl
    · have full : fits (s.heard l bytes).store l n = false := fits_eq_false short
      rw [State.takePutLine, pass]
      dsimp only
      rw [← need, full]
      simp only [State.respond, Frame.answer, hk]
      rfl
    · have fit : fits (s.heard l bytes).store l n = true := (fits_iff l _ n).mpr ⟨blocks, descs⟩
      have state : (if g.tallyHold = none then EntryState.queued else .held) = g.entryState := by
        unfold LineFields.entryState
        cases g.tallyHold <;> rfl
      rw [state] at hu
      subst hu
      have latch : ((s.heard l bytes).accept l (.line g) n g.entryState).acceptLatch g = v :=
        State.acceptLatch_accept l g n free shut ready
      rw [State.takePutLine, pass]
      dsimp only
      rw [← need, fit]
      have fields : lineFieldsOf l f.payload (freeBlockNumbers (s.heard l bytes).store) = g := hg.symm
      rw [if_pos rfl, fields, latch]
      simp only [State.respond, Frame.answer, hk, State.acceptedBytes, LineFields.storedBytes, List.append_assoc]
      rfl

end Sys2Proof.Machine

namespace Sys2Proof.Machine

/-! ## PUT MOTION (R22, R24, R28, R192) -/

/-- The kind is one that Console alone may send (R22). -/
theorem consoleKind_eq_true {bs : List Byte} :
    consoleKind bs = true ↔ ∃ b rest, bs = b :: rest ∧ 6 ≤ b.toNat ∧ b.toNat ≤ 9 := by
  cases bs with
  | nil => simp [consoleKind]
  | cons b rest => simp [consoleKind, byteAt]

theorem consoleKind_of_motionOf {bs : List Byte} {k : MotionKind} (h : motionOf bs = some k) :
    consoleKind bs = true ↔ 6 ≤ k.code := by
  obtain ⟨b, rest, rfl, code, -⟩ := motionOf_shape h
  have most : k.code ≤ 9 := by cases k <;> exact Nat.le_of_ble_eq_true rfl
  rw [consoleKind_eq_true]
  constructor
  · rintro ⟨c, _, e, low, -⟩
    cases e
    omega
  · exact fun low => ⟨b, rest, rfl, by omega, by omega⟩

/-- A PATH payload names the tractor or the sheet (R22). -/
theorem motionOf_path (b : Byte) : motionOf [8, b] =
    if b.toNat = 0 then some (.path .tractor) else if b.toNat = 1 then some (.path .sheet) else none := by
  rcases Nat.lt_or_ge b.toNat 2 with low | high
  · have : b = 0 ∨ b = 1 := by bv_omega
    rcases this with rfl | rfl <;> rfl
  · rw [if_neg (by omega), if_neg (by omega)]
    change (match b.toNat with | 0 => some (MotionKind.path .tractor) | 1 => some (.path .sheet) | _ => none) = none
    split
    · omega
    · omega
    · rfl

/-- A COIL TEST payload names a pin or all of them (R22). -/
theorem motionOf_coilTest (b : Byte) : motionOf [9, b] =
    if h : b.toNat < 18 then some (.coilTest (some ⟨b.toNat, h⟩)) else if b.toNat = 255 then some (.coilTest none)
    else none := rfl

section
variable {s : State} {l : Link} {f : Frame}

/-- The request is allowed to its link: a Console kind is Console's (R22). -/
theorem motionAllowed_of_kind {k : MotionKind} {bs : List Byte} (read : motionOf bs = some k)
    (own : l = .console ∨ k.code < 6) : ¬ (l = .job ∧ consoleKind bs = true) := by
  rintro ⟨rfl, kind⟩
  have := (consoleKind_of_motionOf read).mp kind
  rcases own with own | own
  · cases own
  · omega

theorem motionAllowed_of_byte {bs : List Byte}
    (own : l = .job → ∀ b rest, bs = b :: rest → b.toNat < 6 ∨ 9 < b.toNat) : ¬ (l = .job ∧ consoleKind bs = true) := by
  rintro ⟨job, kind⟩
  obtain ⟨b, rest, shape, low, high⟩ := consoleKind_eq_true.mp kind
  have := own job b rest shape
  omega

end

/-- Settles O17: the four answers by the branches of `takePutMotion`, the payloads and parameters read off. -/
theorem putMotionAnswered : Obligations.PutMotionAnswered := by
  unfold Obligations.PutMotionAnswered
  refine ⟨fun l bytes s f hf hk => ?_, fun lo hi => ⟨?_, ?_⟩, rfl, rfl, rfl, rfl, rfl, rfl, rfl, by decide, rfl,
    fun b high => ?_, fun b high other => ?_, fun bs k => motionOf_shape, fun n small => ⟨rfl, rfl⟩, rfl, rfl,
    fun p => rfl, rfl, rfl⟩
  · have run : exec (.putMotion l bytes) s = .next ((s.heard l bytes).takePutMotion l f) :=
      congrArg _ (State.request_of_frameOf State.takePutMotion hf hk)
    rw [run, State.takePutMotion]
    refine ⟨fun job kind => ?_, fun own bad => ?_, fun k own read short => ?_, fun k u own read room hu => ?_⟩
    · rw [if_pos ⟨job, consoleKind_eq_true.mpr kind⟩]
      simp only [State.respond, Frame.answer, hk]
      rfl
    · rw [if_neg (motionAllowed_of_byte own), bad]
      simp only [State.respond, Frame.answer, hk]
      rfl
    · have full : fits (s.heard l bytes).store l 0 = false := fits_eq_false (.inr short)
      rw [if_neg (motionAllowed_of_kind read own), read]
      dsimp only
      rw [full]
      simp only [State.respond, Frame.answer, hk]
      rfl
    · have fit : fits (s.heard l bytes).store l 0 = true := (fits_iff l _ 0).mpr ⟨Nat.zero_le _, room⟩
      subst hu
      rw [if_neg (motionAllowed_of_kind read own), read]
      dsimp only
      rw [if_pos fit]
      simp only [State.respond, Frame.answer, hk, State.acceptedBytes]
      rfl
  · rfl
  · rfl
  · rw [motionOf_path, if_neg (by omega), if_neg (by omega)]
  · rw [motionOf_coilTest, dif_neg (by omega), if_neg other]

end Sys2Proof.Machine

namespace Sys2Proof.Machine

/-! ## Numbers, flags and optional fields in bytes (R192) -/

@[simp] theorem u8_length (n : Nat) : (u8 n).length = 1 := rfl
@[simp] theorem u16_length (n : Nat) : (u16 n).length = 2 := rfl
@[simp] theorem u32_length (n : Nat) : (u32 n).length = 4 := rfl
@[simp] theorem i8_length (x : Int) : (i8 x).length = 1 := rfl
@[simp] theorem i16_length (x : Int) : (i16 x).length = 2 := rfl
@[simp] theorem flagByte_length (b : Bool) : (flagByte b).length = 1 := rfl

/-- A 2-byte number is read back modulo its range. -/
theorem wordAt_append_mod (n : Nat) (rest : List Byte) : wordAt (u16 n ++ rest) 0 = n % 65536 := by
  change n % 256 + 256 * (n / 256 % 256) = n % 65536
  omega

theorem wordAt_append {n : Nat} (h : n < 65536) (rest : List Byte) : wordAt (u16 n ++ rest) 0 = n := by
  rw [wordAt_append_mod, Nat.mod_eq_of_lt h]

theorem toInt_ofInt_of_mem (w : Nat) {x : Int} (low : -(2 ^ w : Nat) ≤ 2 * x) (high : 2 * x < (2 ^ w : Nat)) :
    (BitVec.ofInt w x).toInt = x := by
  rw [BitVec.toInt_ofInt]
  exact Int.bmod_eq_of_le_mul_two (by omega) (by omega)

/-- Bit `i` of a flag set is its flag `i` (R192). -/
theorem flagSet_testBit (bs : List Bool) (i : Nat) : (flagSet bs).testBit i = bs.getD i false := by
  induction bs generalizing i with
  | nil => simp [flagSet]
  | cons b bs ih =>
    cases i with
    | zero => cases b <;> simp [flagSet, Nat.testBit_zero]
    | succ i =>
      have half : ((if b then 1 else 0) + 2 * flagSet bs) / 2 = flagSet bs := by split <;> omega
      rw [flagSet, Nat.testBit_succ, half, ih, List.getD_cons_succ]

/-- An optional field occupies its width and a byte, present or absent (R192). -/
theorem optional_length {w : Nat} {o : Option (List Byte)} (h : ∀ bs, o = some bs → bs.length = w) :
    (optional w o).length = w + 1 := by
  cases o with
  | none => simp [optional]
  | some bs => simp [optional, h bs rfl]

/-! ## Posting (R186) -/

theorem State.post_get_self (s : State) (l : Link) (n : Notice) : (s.post l n).port.get l = (s.port.get l).post n := by
  simp

theorem State.post_get_other (s : State) {l k : Link} (n : Notice) (h : k ≠ l) :
    (s.post l n).port.get k = s.port.get k := by
  simp [h]

theorem LinkPort.attn_iff (p : LinkPort) : p.attn = true ↔ p.notices ≠ [] := by
  simp [LinkPort.attn]

/-! ## Each notice in bytes (R192) -/

/-- The kind code, the length of the body, and the body. -/
theorem Notice.bytes_eq {n : Notice} {len : Nat} (h : n.body.length = len) :
    n.bytes = [BitVec.ofNat 8 n.code, BitVec.ofNat 8 len] ++ n.body := by
  rw [Notice.bytes, h]
  rfl

section
variable (l : Link) (q : SeqNo) (form : BitVec 16) (off : Nat)

theorem Notice.moveDone_body_length (k : MotionKind) (o : MoveOutcome) (reason : Option NotMadeReason) (d : Option Nat)
    (m back : Int) (st : Nat) (paper : PaperState) (tear : TearState) (path : PaperPath) (trusted : Bool) :
    (Notice.moveDone l q k o reason d m back st form off paper tear path trusted).body.length = 23 := by
  have hr : (optional 1 (reason.map (fun x => u8 x.code))).length = 2 := optional_length (by simp)
  have hd : (optional 2 (d.map u16)).length = 3 := optional_length (by simp)
  simp [Notice.body, hr, hd]

end

/-- Settles O13: posting by the two cases of `LinkPort.post`, the numbers by their lemmas, codes and notices by
computation. -/
theorem postedNoticeJoinsOrIsLost : Obligations.PostedNoticeJoinsOrIsLost := by
  unfold Obligations.PostedNoticeJoinsOrIsLost
  refine ⟨fun s n l => ?_, ?_, ?_, ?_⟩
  · refine ⟨fun h => ?_, fun h => ?_, fun k other => s.post_get_other n other, fun k => ?_, LinkPort.attn_iff _⟩
    · rw [State.post_get_self, LinkPort.post, if_neg (by omega)]
    · rw [State.post_get_self, LinkPort.post, if_pos h]
    · rw [State.post_get_self, State.postBoth_get]
  · refine ⟨fun n => rfl, fun n h => ⟨rfl, ?_⟩, fun n h => ⟨rfl, ?_⟩, fun x low high => ?_, fun x low high => ⟨rfl, ?_⟩,
      rfl, rfl, flagSet_testBit, fun w => rfl, fun w bs => rfl⟩
    · exact wordAt_append h []
    · have lowWord : wordAt (u32 n) 0 = n % 65536 := wordAt_append_mod n _
      have highWord : wordAt (u32 n) 2 = n / 65536 % 65536 := wordAt_append_mod (n / 65536) []
      omega
    · refine ⟨BitVec.ofInt 8 x, ?_, toInt_ofInt_of_mem 8 (by omega) (by omega)⟩
      rw [i8_eq]
    · have word : wordAt (i16 x) 0 = (BitVec.ofInt 16 x).toNat := wordAt_append (BitVec.isLt _) []
      rw [word, BitVec.ofNat_toNat, BitVec.setWidth_eq]
      exact toInt_ofInt_of_mem 16 (by omega) (by omega)
  · refine ⟨rfl, rfl, fun n => rfl, fun p => rfl, fun p => rfl, fun f => rfl, fun k => rfl, rfl, rfl, rfl, rfl,
      fun t c => rfl, rfl, rfl, rfl, rfl, fun h => rfl, rfl, rfl, fun a d => rfl, rfl, rfl, rfl, rfl, rfl,
      fun n => rfl, fun n => rfl, rfl, rfl⟩
  · rintro l q form off _ _ rfl rfl
    refine ⟨fun r => rfl, fun k o reason d m back st paper tear path trusted => ?_, fun n g => ?_,
      fun p o supply health faults final => ?_, fun n d trusted => rfl, fun d src => ?_, fun d => rfl,
      fun src k d m => ?_, fun p c => rfl, fun now before h t n p reading => ?_, fun f n => rfl,
      fun n m k x => rfl, fun n x => rfl, rfl, fun i src => rfl, fun c n st => rfl⟩
    · rw [Notice.bytes_eq (Notice.moveDone_body_length ..)]
      simp only [Notice.body, List.append_assoc]
      rfl
    · cases g <;> rfl
    · cases o <;> rfl
    · cases src <;> rfl
    · cases src <;> rfl
    · cases reading <;> rfl

end Sys2Proof.Machine

namespace Sys2Proof.Machine

/-! ## CANCEL (R36, R58, R173) -/

section
variable {s : State} {l : Link}

/-- The first of a list changed, written by position. -/
theorem mapIdx_first {α : Type} (f : α → α) (xs : List α) :
    xs.mapIdx (fun j x => if j = 0 then f x else x) = xs.modify 0 f := by
  refine List.ext_getElem? fun i => ?_
  rw [List.getElem?_mapIdx, List.getElem?_modify]
  cases i with
  | zero => rfl
  | succ i => cases xs[i + 1]? <;> rfl

/-- The line of a link marked cancelled, with IMPERFECT in the result of the head entry (R58). -/
def State.cancelMarked (s : State) (c : LineContext) : State :=
  { s with
    line := some { c with cancelled := true }
    store := s.store.set c.link { s.store.get c.link with queue := (s.store.get c.link).queue.mapIdx (fun j e =>
      if j = 0 then { e with result := { e.result with imperfect := true } } else e) } }

theorem State.markImperfect_cancelled {c : LineContext} (line : s.line = some c) :
    s.markImperfect.modifyLine (fun c => { c with cancelled := true }) = s.cancelMarked c := by
  have queue := mapIdx_first (fun e : Entry => { e with result := { e.result with imperfect := true } })
    (s.store.get c.link).queue
  rw [State.cancelMarked, queue, State.markImperfect, line]
  dsimp only [State.modifyLine, State.modifyResult, State.modifyHead, State.modifyStore]
  rw [line]
  cases (s.store.get c.link).queue <;> rfl

/-- A cancel by the stage of the line in flight (R58). -/
theorem State.cancelLine_eq {c : LineContext} (line : s.line = some c) :
    ((∃ p, c.stage = .planDue p ∨ c.stage = .planned p) → s.cancelLine = (s.cancelMarked c).dropPhases) ∧
    ((∃ p, c.stage = .striking p) →
      s.cancelLine = (s.cancelMarked c).dropPlan.modifyLine (fun c => { c with oddPlanned := false })) ∧
    ((c.stage = .returning ∨ (∃ k, c.stage = .subMove k) ∨ c.stage = .feeding ∨ c.stage = .jammed ∨ c.stage = .held) →
      s.cancelLine = s.cancelMarked c) := by
  rw [State.cancelLine, line]
  dsimp only
  rw [State.markImperfect_cancelled line]
  refine ⟨?_, ?_, ?_⟩
  · rintro ⟨p, stage | stage⟩ <;> rw [stage]
  · rintro ⟨p, stage⟩
    rw [stage]
  · rintro (stage | ⟨k, stage⟩ | stage | stage | stage) <;> rw [stage]

/-- The sequence number of a link's GRANTED entry, or none (R173). -/
theorem State.grantedSeq_eq {g : Option SeqNo} (own : ∀ q, s.arb.granted = some ⟨l, q⟩ → g = some q)
    (none : (∀ q, s.arb.granted ≠ some ⟨l, q⟩) → g = .none) : s.grantedSeq l = g := by
  unfold State.grantedSeq
  cases granted : s.arb.granted with
  | none => exact (none fun q e => by rw [granted] at e; cases e).symm
  | some a =>
    by_cases link : a.link = l
    · subst link
      exact (if_pos rfl).trans (own a.seq granted).symm
    · refine (if_neg link).trans (none fun q e => ?_).symm
      rw [granted] at e
      cases e
      exact link rfl

/-- The answer to CANCEL, over what becomes of the line in flight (R36, R173). -/
theorem State.takeCancel_eq {bytes : List Byte} {f : Frame} {n : Nat} {g : Option SeqNo} {hold : State → State}
    (hk : f.kind = .cancel) (hn : n = ((s.store.get l).queue.filter (fun e => e.state ≠ .granted)).length)
    (hg : s.grantedSeq l = g)
    (job : l = .job → ∀ w, hold w = { w with arb := { w.arb with hold := false, idleTimer := none } })
    (console : l = .console → ∀ w, hold w = w) {v : State} (hv : ((s.heard l bytes).purge l).cancelGranted l = v) :
    (s.heard l bytes).takeCancel l f =
      (((hold v).post l (.cancelled n g)).answered l ⟨0x88, f.tag, .ok, u8 n⟩).settle := by
  have released : (if l = .job then v.releaseHold else v) = hold v := by
    cases l with
    | job => exact (job rfl v).symm
    | console => exact (console rfl v).symm
  have purged : ((s.heard l bytes).store.get l).purgeable = n := hn.symm
  have granted : (s.heard l bytes).grantedSeq l = g := hg
  rw [State.takeCancel, hv, released, purged, granted]
  simp only [State.respond, Frame.answer, hk]
  rfl

end

/-- Settles O23: `takeCancel_eq` with the stages of `cancelLine_eq`. -/
theorem cancelPurgesTheQueue : Obligations.CancelPurgesTheQueue := by
  unfold Obligations.CancelPurgesTheQueue
  intro l bytes s u f n g hold hf hk hn own none hu job console
  have run : exec (.cancel l bytes) s = .next ((s.heard l bytes).takeCancel l f) :=
    congrArg _ (State.request_of_frameOf State.takeCancel hf hk)
  have answer : ∀ v, u.cancelGranted l = v → exec (.cancel l bytes) s =
      .next ((((hold v).post l (.cancelled n g)).answered l ⟨0x88, f.tag, .ok, u8 n⟩).settle) := fun v hv =>
    run.trans (congrArg _ (State.takeCancel_eq hk hn (State.grantedSeq_eq own none) job console (hu ▸ hv)))
  have lineU : u.line = s.line := by rw [hu]; rfl
  have listsU : u.lists = s.lists := by rw [hu]; rfl
  refine ⟨fun other => answer u ?_, fun c w v line link hw stage => answer v ?_⟩
  · unfold State.cancelGranted
    rw [lineU]
    cases line : s.line with
    | none => rfl
    | some c => exact if_neg (other c line)
  · have line : u.line = some c := lineU.trans line
    subst link
    have marked : w = u.cancelMarked c := hw
    obtain ⟨plan, strike, rest⟩ := State.cancelLine_eq line
    rw [State.cancelGranted, line]
    dsimp only
    rw [if_pos rfl]
    obtain ⟨stage, rfl⟩ | ⟨stage, rfl⟩ | ⟨stage, rfl⟩ := stage
    · rw [plan stage, marked]
    · rw [strike stage, marked, ← listsU]
      rfl
    · rw [rest stage, marked]

end Sys2Proof.Machine

namespace Sys2Proof.Machine

/-! ## Sets of dots (R41) -/

theorem dotsAt_dotsInter {d : DotSet} (h : (d.map (·.1)).Nodup) (e : DotSet) (k : Nat) :
    dotsAt (dotsInter d e) k = dotsAt d k &&& dotsAt e k := dotsAt_dotsMap (by simp) h k

theorem dotsAt_dotsDiff {d : DotSet} (h : (d.map (·.1)).Nodup) (e : DotSet) (k : Nat) :
    dotsAt (dotsDiff d e) k = dotsAt d k &&& ~~~(dotsAt e k) := dotsAt_dotsMap (by simp) h k

theorem dotsAt_dotsInRows {d : DotSet} (h : (d.map (·.1)).Nodup) (m : Rows) (k : Nat) :
    dotsAt (dotsInRows m d) k = dotsAt d k &&& m := dotsAt_dotsMap (by simp) h k

/-- With one entry a column, the rows of a column are those of its entry. -/
theorem dotsAt_of_mem {d : DotSet} (h : (d.map (·.1)).Nodup) {x : Nat × Rows} (hx : x ∈ d) : dotsAt d x.1 = x.2 := by
  induction d with
  | nil => cases hx
  | cons y d ih =>
    obtain ⟨c, m⟩ := y
    obtain ⟨fresh, nodup⟩ := List.nodup_cons.mp h
    rw [dotsAt_cons]
    rcases List.mem_cons.mp hx with rfl | hx
    · exact if_pos rfl
    · have other : x.1 ≠ c := fun same => fresh (List.mem_map.mpr ⟨x, hx, same⟩)
      rw [if_neg other, ih nodup hx]

theorem dotsInter_self {d : DotSet} (h : (d.map (·.1)).Nodup) (full : ∀ x ∈ d, x.2 ≠ 0) : dotsInter d d = d := by
  unfold dotsInter dotsMap
  refine (List.filterMap_congr fun x hx => ?_).trans List.filterMap_some
  have all : x.2 &&& dotsAt d x.1 = x.2 := by rw [dotsAt_of_mem h hx, BitVec.and_self]
  have some : ¬ x.2 &&& dotsAt d x.1 = 0 := by rw [all]; exact full x hx
  exact (if_neg some).trans (by simp only [all])

theorem dotsDiff_self {d : DotSet} (h : (d.map (·.1)).Nodup) : dotsDiff d d = [] := by
  unfold dotsDiff dotsMap
  refine List.filterMap_eq_nil_iff.mpr fun x hx => ?_
  have none : x.2 &&& ~~~(dotsAt d x.1) = 0 := by rw [dotsAt_of_mem h hx, BitVec.and_not_self]
  exact if_pos none

/-- The rows set, counted over the pins. -/
theorem rowsCount_eq (m : Rows) : rowsCount m = ((List.finRange 18).filter (fun r : Pin => m.getLsbD r.val)).length := by
  have range : List.range 18 = (List.finRange 18).map (·.val) := rfl
  rw [rowsCount, range, List.filter_map, List.length_map]
  rfl

/-! ## The rows of FAILED pins (R55) -/

section
variable {s : State}

theorem State.failedPins_getLsbD (p : Pin) : s.failedPins.getLsbD p.val = s.isFailed p := by
  simp [State.failedPins]

theorem rows_ext {a b : Rows} (h : ∀ p : Pin, a.getLsbD p.val = b.getLsbD p.val) : a = b :=
  BitVec.eq_of_getLsbD_eq fun i hi => h ⟨i, hi⟩

theorem upRows_getLsbD (m : Rows) (p : Pin) :
    (upRows m).getLsbD p.val = (m.getLsbD p.val && decide (1 ≤ p.val) && !m.getLsbD (p.val - 1)) := by
  have low : decide (p.val < 18) = true := decide_eq_true p.isLt
  have one : (1#18).getLsbD p.val = decide (p.val < 1) := by revert p; decide
  have most : decide (1 ≤ p.val) = !decide (p.val < 1) := by rw [← decide_not, decide_eq_decide]; omega
  rw [upRows, BitVec.getLsbD_and, BitVec.getLsbD_and, BitVec.getLsbD_not, BitVec.getLsbD_not, BitVec.getLsbD_shiftLeft, low,
    one, most]
  cases m.getLsbD p.val <;> cases decide (p.val < 1) <;> simp

theorem downRows_getLsbD (m : Rows) (p : Pin) :
    (downRows m).getLsbD p.val =
      (m.getLsbD p.val && !(upRows m).getLsbD p.val && decide (p.val ≤ 16) && !m.getLsbD (p.val + 1)) := by
  have low : decide (p.val < 18) = true := decide_eq_true p.isLt
  have last : (pinBit 17).getLsbD p.val = decide (p.val = 17) := by revert p; decide
  have most : decide (p.val ≤ 16) = !decide (p.val = 17) := by rw [← decide_not, decide_eq_decide]; omega
  rw [downRows, BitVec.getLsbD_and, BitVec.getLsbD_and, BitVec.getLsbD_and, BitVec.getLsbD_not, BitVec.getLsbD_not,
    BitVec.getLsbD_not, BitVec.getLsbD_ushiftRight, low, last, most, Nat.add_comm 1]
  simp only [Bool.true_and, Bool.and_assoc, Bool.and_comm (!decide (p.val = 17))]

/-! ## What the phases of a line make (R41, R53 to R58) -/

variable {c : LineContext}

/-- A loss of dots: counted in the result of the head entry, with the flag asked for (R41). -/
theorem State.loseDots_eq {e : Entry} {es : List Entry} (line : s.line = some c)
    (queue : (s.store.get c.link).queue = e :: es) (d : DotSet) (degraded : Bool) {gone : DotSet} {n : Nat}
    (hgone : gone = dotsInter c.unstruck d) (hn : n = dotsCount gone) :
    s.loseDots d degraded = { s with
      line := some { c with unstruck := dotsDiff c.unstruck gone }
      store := s.store.set c.link { s.store.get c.link with queue := { e with
        result := { e.result with
          lost := e.result.lost + n
          degraded := e.result.degraded || (degraded && n != 0)
          imperfect := e.result.imperfect || (!degraded && n != 0) } } :: es } } := by
  have result : e.result.lose n degraded = { e.result with
      lost := e.result.lost + n
      degraded := e.result.degraded || (degraded && n != 0)
      imperfect := e.result.imperfect || (!degraded && n != 0) } := by
    unfold LineResult.lose
    split
    · next none => simp [none]
    · next some => cases degraded <;> simp [some]
  rw [← result, hn, hgone, State.loseDots, line]
  dsimp only [State.modifyLine, State.modifyResult, State.modifyHead, State.modifyStore]
  rw [line, queue]
  rfl

theorem State.loseDots_line (line : s.line = some c) (d : DotSet) (degraded : Bool) :
    (s.loseDots d degraded).line = some { c with unstruck := dotsDiff c.unstruck (dotsInter c.unstruck d) } := by
  rw [State.loseDots, line]
  dsimp only [State.modifyLine, State.modifyResult, State.modifyHead, State.modifyStore]
  rw [line]
  rfl

theorem State.lineFields_eq {e : Entry} {es : List Entry} {g : LineFields} (line : s.line = some c)
    (queue : (s.store.get c.link).queue = e :: es) (record : e.record = .line g) : s.lineFields = some g := by
  rw [State.lineFields, line]
  dsimp only [State.headEntry]
  rw [queue]
  dsimp only [List.head?]
  rw [record]

theorem HaltSet.isEmpty_iff (h : HaltSet) : h.isEmpty = true ↔ h = ⟨false, false, false, false⟩ := by
  obtain ⟨jam, paperOut, noPaper, carriage⟩ := h
  simp [HaltSet.isEmpty, and_assoc]

/-- The trailing feed by the sign of what is left to the feed of the line (R57). -/
theorem State.startFeed_eq {g : LineFields} (line : s.line = some c) (fields : s.lineFields = some g) :
    (c.netOffset < g.trailingFeed → s.startFeed =
      (s.setStage .feeding).setDue (some ⟨.line, .trailing ((g.trailingFeed : Int) - c.netOffset).toNat⟩)) ∧
    ((g.trailingFeed : Int) < c.netOffset → s.startFeed =
      (s.setStage .feeding).setDue (some ⟨.line, .trailingReverse (c.netOffset - g.trailingFeed).toNat⟩)) ∧
    ((g.trailingFeed : Int) = c.netOffset → s.startFeed = s.finishLine) := by
  rw [State.startFeed, line, fields]
  dsimp only
  refine ⟨fun h => ?_, fun h => ?_, fun h => ?_⟩
  · rw [if_pos (by omega)]
  · rw [if_neg (by omega), if_pos (by omega), Int.neg_sub]
  · rw [if_neg (by omega), if_neg (by omega)]

theorem State.finishLine_of_clear (clear : s.arb.halt = ⟨false, false, false, false⟩) : s.finishLine = s.completeLine :=
  if_pos ((HaltSet.isEmpty_iff _).mpr clear)

theorem State.finishLine_of_halted (halted : s.arb.halt ≠ ⟨false, false, false, false⟩) :
    s.finishLine = s.setStage .held := if_neg fun h => halted ((HaltSet.isEmpty_iff _).mp h)

theorem State.startDown_of_empty (line : s.line = some c) (none : c.downGroup = []) : s.startDown = s.startFeed := by
  rw [State.startDown, line]
  dsimp only
  rw [none]
  rfl

theorem State.startDown_of_dots (line : s.line = some c) (some : c.downGroup ≠ []) : s.startDown =
    (s.setStage (.subMove .down)).setDue (.some ⟨.line, .subReverse (c.netOffset + 2).toNat⟩) := by
  rw [State.startDown, line]
  exact if_neg (by simpa using some)

theorem State.startUp_of_empty (line : s.line = some c) (none : c.upGroup = []) : s.startUp = s.startDown := by
  rw [State.startUp, line]
  dsimp only
  rw [none]
  rfl

theorem State.startUp_of_dots (line : s.line = some c) (some : c.upGroup ≠ []) : s.startUp =
    (s.setStage (.subMove .up)).setDue (.some ⟨.line, .subForward 2⟩) := by
  rw [State.startUp, line]
  exact if_neg (by simpa using some)

/-- The phases dropped: the dots unstruck lost with IMPERFECT, the plan gone, and what the trailing feed makes (R57, R58). -/
theorem State.dropPhases_eq {e d : Entry} {es : List Entry} (line : s.line = some c)
    (queue : (s.store.get c.link).queue = e :: es) (hd : d = { e with
      result := { e.result with
        lost := e.result.lost + dotsCount c.unstruck
        imperfect := e.result.imperfect || (dotsCount c.unstruck != 0) } })
    (nodup : (c.unstruck.map (·.1)).Nodup) (full : ∀ x ∈ c.unstruck, x.2 ≠ 0) :
    s.dropPhases = ({ s with
      line := some { c with unstruck := [] }
      store := s.store.set c.link { s.store.get c.link with queue := d :: es }
      lists := s.lists.map (fun x => if x.isWaiting then .free else x)
      dwell := .none } : State).startFeed := by
  have lost := State.loseDots_eq line queue c.unstruck false (dotsInter_self nodup full).symm rfl
  have entry : d = { e with result := { e.result with
      lost := e.result.lost + dotsCount c.unstruck
      degraded := e.result.degraded || (false && dotsCount c.unstruck != 0)
      imperfect := e.result.imperfect || (!false && dotsCount c.unstruck != 0) } } := by
    rw [hd, Bool.false_and, Bool.or_false, Bool.not_false, Bool.true_and]
  rw [dotsDiff_self nodup, ← entry] at lost
  rw [State.dropPhases, State.loseAll, line]
  dsimp only
  rw [lost]
  rfl

theorem State.completeEntry_eq {l : Link} {e : Entry} {es : List Entry} {u : State}
    (queue : (s.store.get l).queue = e :: es)
    (hu : u = ({ s with store := s.store.set l { s.store.get l with queue := es } }).reflow) :
    s.completeEntry l = { u with arb := { s.arb with
      granted := none
      hold := s.arb.hold && !(l == .job && s.form.offset == 0)
      idleTimer := if l = .job ∧ s.form.offset = 0 then none else s.arb.idleTimer } } := by
  have released : s.releaseHead l = u := by
    rw [hu, State.releaseHead]
    dsimp only [State.modifyStore]
    rw [queue]
    rfl
  have arb : u.arb = s.arb := by rw [hu]; rfl
  have form : u.form = s.form := by rw [hu]; rfl
  rw [State.completeEntry, released]
  dsimp only
  rw [form, arb]
  by_cases boundary : l = .job ∧ s.form.offset = 0
  · obtain ⟨rfl, zero⟩ := boundary
    rw [if_pos ⟨rfl, zero⟩, if_pos ⟨rfl, zero⟩, zero]
    simp [State.releaseHold]
  · rw [if_neg boundary, if_neg boundary]
    have away : (l == .job && s.form.offset == 0) = false := by simpa using boundary
    rw [away, Bool.not_false, Bool.and_true]

end

/-! ## What follows a pass and a move of the line -/

section
variable {s : State} {c : LineContext}

/-- After a pass of a line that is not cancelled, with its second half planned (R46). -/
theorem State.afterEven_of_planned (line : s.line = some c) (planned : c.oddPlanned = true) (odd : PassId)
    (otherwise : State → State) : s.afterEven odd otherwise =
      ({ s with line := some { c with oddPlanned := false, stage := .planned odd } } : State).beginDwell := by
  rw [State.afterEven, line]
  dsimp only
  rw [if_pos planned]
  dsimp only [State.setStage, State.modifyLine]
  rw [line]
  rfl

theorem State.afterEven_of_unplanned (line : s.line = some c) (none : c.oddPlanned = false) (odd : PassId)
    (otherwise : State → State) : s.afterEven odd otherwise = otherwise s := by
  rw [State.afterEven, line]
  exact if_neg (by simp [none])

theorem State.afterPass_of_cancelled (line : s.line = some c) (gone : c.cancelled = true) (p : PassId) :
    s.afterPass p = s.dropPhases := by
  unfold State.afterPass
  rw [line]
  exact if_pos gone

/-- After an even half of a line that is not cancelled (R46). -/
theorem State.afterPass_even (line : s.line = some c) (live : c.cancelled = false) :
    s.afterPass (.main .even) = s.afterEven (.main .odd) State.afterMain ∧
    s.afterPass (.up .even) = s.afterEven (.up .odd) State.startDown ∧
    s.afterPass (.down .even) = s.afterEven (.down .odd) State.startFeed := by
  unfold State.afterPass
  rw [line]
  dsimp only
  rw [live]
  exact ⟨rfl, rfl, rfl⟩

theorem State.afterPass_repair (line : s.line = some c) (live : c.cancelled = false) :
    s.afterPass .repair = s.assignSubstitutes := by
  unfold State.afterPass
  rw [line]
  dsimp only
  rw [live]
  rfl

/-- After a pass with no second half planned, a group's phase or the feed follows (R53 to R57). -/
theorem State.afterPass_of_last (line : s.line = some c) (live : c.cancelled = false) {h : Half}
    (last : h = .even → c.oddPlanned = false) :
    s.afterPass (.main h) = s.afterMain ∧ s.afterPass (.up h) = s.startDown ∧ s.afterPass (.down h) = s.startFeed := by
  cases h with
  | even =>
    obtain ⟨main, up, down⟩ := State.afterPass_even line live
    rw [main, up, down]
    iterate 3 rw [afterEven_of_unplanned line (last rfl)]
    exact ⟨rfl, rfl, rfl⟩
  | whole | odd =>
    unfold State.afterPass
    rw [line]
    dsimp only
    rw [live]
    exact ⟨rfl, rfl, rfl⟩

theorem State.afterMain_eq (line : s.line = some c) :
    (dotsInRows (~~~s.failedPins) (dotsInter c.repairs c.unstruck) ≠ [] →
      s.afterMain = { s with line := some { c with stage := .planDue .repair } }) ∧
    (dotsInRows (~~~s.failedPins) (dotsInter c.repairs c.unstruck) = [] → s.afterMain = s.assignSubstitutes) := by
  have taken : s.dotsTaken c .repair = dotsInRows (~~~s.failedPins) (dotsInter c.repairs c.unstruck) := rfl
  rw [State.afterMain, line]
  dsimp only
  rw [taken]
  refine ⟨fun some => ?_, fun none => ?_⟩
  · rw [if_neg (by simpa using some)]
    dsimp only [State.setStage, State.modifyLine]
    rw [line]
    rfl
  · rw [none]
    rfl

/-- Without substitution the dots of FAILED pins are lost, and the feed follows (R55). -/
theorem State.assignSubstitutes_off (line : s.line = some c) (up : c.upGroup = []) (down : c.downGroup = [])
    (off : s.arb.head.substitution = false ∨ s.form.path = .sheet) :
    s.assignSubstitutes = (s.loseDots (dotsInRows s.failedPins c.unstruck) true).startFeed := by
  have after := State.loseDots_line line (dotsInRows s.failedPins c.unstruck) true
  rw [State.assignSubstitutes, line]
  dsimp only
  rw [if_pos (by rcases off with off | off <;> simp [off]), State.startUp_of_empty after up,
    State.startDown_of_empty after down]

/-- With substitution the dots of FAILED pins go to the two groups, the rest of them are lost, and the first group with
dots moves first (R55, R56). -/
theorem State.assignSubstitutes_on {w : State} {x y : DotSet} (line : s.line = some c)
    (on : s.arb.head.substitution = true) (tractor : s.form.path = .tractor)
    (hx : x = dotsInRows (upRows s.failedPins) c.unstruck) (hy : y = dotsInRows (downRows s.failedPins) c.unstruck)
    (hw : w = (s.loseDots (dotsInRows (~~~(upRows s.failedPins ||| downRows s.failedPins))
      (dotsInRows s.failedPins c.unstruck)) true).modifyLine (fun b => { b with upGroup := x, downGroup := y })) :
    (x ≠ [] → s.assignSubstitutes = (w.setStage (.subMove .up)).setDue (some ⟨.line, .subForward 2⟩)) ∧
    (x = [] → y ≠ [] → s.assignSubstitutes =
      (w.setStage (.subMove .down)).setDue (some ⟨.line, .subReverse (c.netOffset + 2).toNat⟩)) ∧
    (x = [] → y = [] → s.assignSubstitutes = w.startFeed) := by
  have start : s.assignSubstitutes = w.startUp := by
    rw [State.assignSubstitutes, line]
    dsimp only
    rw [if_neg (by simp [on, tractor]), hw, hx, hy]
  obtain ⟨unstruck, lineW⟩ :
      ∃ z, w.line = some { c with unstruck := z, upGroup := x, downGroup := y } := by
    rw [hw]
    exact ⟨_, congrArg (Option.map _) (State.loseDots_line line _ _)⟩
  rw [start]
  refine ⟨fun some => ?_, fun none some => ?_, fun none none' => ?_⟩
  · exact State.startUp_of_dots lineW some
  · rw [State.startUp_of_empty lineW none]
    have move := State.startDown_of_dots lineW some
    exact move
  · rw [State.startUp_of_empty lineW none, State.startDown_of_empty lineW none']

/-- After a move of the line, by the stage (R56, R58, R161). -/
theorem State.lineMoveDone_eq (line : s.line = some c) :
    (c.stage = .returning → s.lineMoveDone =
      (if c.cancelled then s.dropPhases else { s with line := some { c with stage := .planDue (.main .whole) } })) ∧
    (c.stage = .subMove .up → s.lineMoveDone = (if c.cancelled then
      ({ s with line := some { c with netOffset := 2 } } : State).dropPhases
      else { s with line := some { c with netOffset := 2, stage := .planDue (.up .whole) } })) ∧
    (c.stage = .subMove .down → s.lineMoveDone = (if c.cancelled then
      ({ s with line := some { c with netOffset := -2 } } : State).dropPhases
      else { s with line := some { c with netOffset := -2, stage := .planDue (.down .whole) } })) ∧
    (c.stage = .feeding → s.lineMoveDone = s.completeLine) := by
  have moved : ∀ f : LineContext → LineContext, s.modifyLine f = { s with line := some (f c) } := fun f => by
    rw [State.modifyLine, line]; rfl
  rw [State.lineMoveDone, line]
  dsimp only
  refine ⟨fun stage => ?_, fun stage => ?_, fun stage => ?_, fun stage => ?_⟩
  · rw [stage]
    dsimp only
    rw [State.setStage, moved]
  · rw [stage]
    dsimp only
    rw [moved, ← stage]
    rfl
  · rw [stage]
    dsimp only
    rw [moved, ← stage]
    rfl
  · rw [stage]

end

/-- Settles O24, from the equations of `loseDots`, `dropPhases`, `completeEntry`, `afterPass`, `assignSubstitutes` and
`lineMoveDone`. -/
theorem droppedPhasesLeaveTheFeed : Obligations.DroppedPhasesLeaveTheFeed := by
  unfold Obligations.DroppedPhasesLeaveTheFeed
  refine ⟨fun s c e d es g u line queue record hd hu nodup full => ?_,
    fun s c e es d gone degraded n line queue hgone hn => State.loseDots_eq line queue d degraded hgone hn,
    fun s c e line head => ?_, fun s u l e es queue hu => State.completeEntry_eq queue hu,
    fun d e m k nodup => ⟨dotsAt_dotsInter nodup e k, dotsAt_dotsDiff nodup e k, dotsAt_dotsInRows nodup m k⟩,
    fun d => by simp only [dotsCount, rowsCount_eq], fun s c line => ?_⟩
  · have dropped := State.dropPhases_eq line queue hd nodup full
    obtain ⟨w, hw⟩ : ∃ w : State, w = { s with
      line := some { c with unstruck := [] }
      store := s.store.set c.link { s.store.get c.link with queue := d :: es }
      lists := s.lists.map (fun x => if x.isWaiting then .free else x)
      dwell := .none } := ⟨_, rfl⟩
    rw [← hw] at dropped
    have lineW : w.line = some { c with unstruck := [] } := by rw [hw]
    have queueW : (w.store.get c.link).queue = d :: es := by rw [hw]; simp
    have fields : w.lineFields = some g := State.lineFields_eq lineW queueW (by rw [hd]; exact record)
    have halt : w.arb.halt = s.arb.halt := by rw [hw]
    obtain ⟨forward, reverse, level⟩ := State.startFeed_eq lineW fields
    rw [dropped]
    refine ⟨fun h => ?_, fun h => ?_, fun h clear => ?_, fun h halted => ?_⟩
    · rw [forward h, hw, hu]; rfl
    · rw [reverse h, hw, hu]; rfl
    · rw [level h, State.finishLine_of_clear (halt.trans clear), hw, hu]
    · rw [level h, State.finishLine_of_halted (halt ▸ halted), hw, hu]; rfl
  · rw [State.completeLine, line]
    dsimp only
    rw [head]
    rfl
  · refine ⟨fun gone p => ?_, fun p odd live planned pass => ?_, fun h live last => ?_, fun live => ?_,
      State.assignSubstitutes_off line, fun u d x y w on tractor hu hd hx hy hw => ?_, State.lineMoveDone_eq line⟩
    · exact State.afterPass_of_cancelled line gone p
    · obtain ⟨main, up, down⟩ := State.afterPass_even line live
      obtain ⟨rfl, rfl⟩ | ⟨rfl, rfl⟩ | ⟨rfl, rfl⟩ := pass
      · exact main.trans (State.afterEven_of_planned line planned _ _)
      · exact up.trans (State.afterEven_of_planned line planned _ _)
      · exact down.trans (State.afterEven_of_planned line planned _ _)
    · obtain ⟨main, up, down⟩ := State.afterPass_of_last line live last
      obtain ⟨repair, none⟩ := State.afterMain_eq line
      rw [main, up, down]
      refine ⟨repair, none, fun empty => none (by rw [empty]; rfl), fun some => ?_, State.startDown_of_empty line, rfl⟩
      rw [State.startDown_of_dots line some, State.setStage, State.modifyLine, line]
      rfl
    · exact State.afterPass_repair line live
    · have up : u = upRows s.failedPins := rows_ext fun p => by
        rw [upRows_getLsbD, hu, State.failedPins_getLsbD]
      have down : d = downRows s.failedPins := rows_ext fun p => by
        rw [downRows_getLsbD, hd, State.failedPins_getLsbD, up]
      subst up down
      exact State.assignSubstitutes_on line on tractor hx hy hw

end Sys2Proof.Machine

namespace Sys2Proof.Machine

/-! ## Fields in the bytes of a report -/

/-- The bytes `c` stand in `r` from byte `a` on. -/
def StandsAt (r : List Byte) (a : Nat) (c : List Byte) : Prop := ∃ pre post, r = pre ++ c ++ post ∧ pre.length = a

section
variable {r p q : List Byte} {a b i : Nat}

theorem StandsAt.slice (h : StandsAt r a p) (hn : p.length = i) : (r.drop a).take i = p := by
  obtain ⟨pre, post, rfl, rfl⟩ := h
  rw [List.append_assoc, List.drop_left, ← hn, List.take_left]

theorem StandsAt.getElem? (h : StandsAt r a p) (hi : i < p.length) : r[a + i]? = p[i]? := by
  obtain ⟨pre, post, rfl, rfl⟩ := h
  rw [List.append_assoc, List.getElem?_append_right (Nat.le_add_right _ _), Nat.add_sub_cancel_left,
    List.getElem?_append_left hi]

theorem StandsAt.byte (h : StandsAt r a p) (hi : i < p.length) : byteAt r (a + i) = byteAt p i := by
  rw [byteAt, byteAt, h.getElem? hi]

theorem StandsAt.word (h : StandsAt r a p) (hi : i + 1 < p.length) : wordAt r (a + i) = wordAt p i := by
  rw [wordAt, wordAt, h.byte (by omega), Nat.add_assoc, h.byte hi]

theorem StandsAt.within (h : StandsAt r a p) (inner : StandsAt p b q) : StandsAt r (a + b) q := by
  obtain ⟨pre, post, rfl, rfl⟩ := h
  obtain ⟨pre', post', rfl, rfl⟩ := inner
  exact ⟨pre ++ pre', post' ++ post, by simp, by simp⟩

/-- Each of a list of pieces stands behind the pieces before it. -/
theorem standsAt_flatten {chunks : List (List Byte)} (hc : chunks[i]? = some p) :
    StandsAt chunks.flatten ((chunks.map List.length).take i).sum p := by
  induction chunks generalizing i with
  | nil => cases hc
  | cons x chunks ih =>
    cases i with
    | zero =>
      cases hc
      exact ⟨[], chunks.flatten, rfl, rfl⟩
    | succ i =>
      obtain ⟨pre, post, whole, len⟩ := ih hc
      exact ⟨x ++ pre, post, by rw [List.flatten_cons, whole]; simp, by simp [len]⟩

/-- A piece by the table of the pieces' lengths. -/
theorem StandsAt.ofLengths {chunks : List (List Byte)} {lens : List Nat} (hr : r = chunks.flatten)
    (hl : chunks.map List.length = lens) (hc : chunks[i]? = some p) (ha : (lens.take i).sum = a) : StandsAt r a p := by
  subst hr hl ha
  exact standsAt_flatten hc

/-- A piece among pieces of one length. -/
theorem StandsAt.ofWidth {chunks : List (List Byte)} {w : Nat} (hw : ∀ x ∈ chunks, x.length = w)
    (hc : chunks[i]? = some p) : StandsAt chunks.flatten (w * i) p := by
  refine .ofLengths rfl (List.eq_replicate_of_mem (a := w) fun n hn => ?_) hc ?_
  · obtain ⟨x, hx, rfl⟩ := List.mem_map.mp hn
    exact hw x hx
  · obtain ⟨hi, -⟩ := List.getElem?_eq_some_iff.mp hc
    rw [List.length_map, List.take_replicate, List.sum_replicate_nat, Nat.min_eq_left (Nat.le_of_lt hi), Nat.mul_comm]

theorem flatten_length {chunks : List (List Byte)} {w : Nat} (hw : ∀ x ∈ chunks, x.length = w) :
    chunks.flatten.length = w * chunks.length := by
  have all : chunks.map List.length = List.replicate chunks.length w := by
    rw [← List.map_const']
    exact List.map_congr_left hw
  rw [List.length_flatten, all, List.sum_replicate_nat, Nat.mul_comm]

/-- The one number of a field. -/
theorem StandsAt.readByte {n : Nat} (h : StandsAt r a (u8 n)) (small : n < 256) : byteAt r a = n := by
  have first : byteAt (u8 n) 0 = n % 256 := rfl
  rw [← Nat.add_zero a, h.byte (by simp), first, Nat.mod_eq_of_lt small]

theorem StandsAt.readFlag {f : Bool} (h : StandsAt r a (flagByte f)) : byteAt r a = if f then 1 else 0 := by
  cases f with
  | false => exact h.readByte (by decide)
  | true => exact h.readByte (by decide)

theorem StandsAt.readWord {n : Nat} (h : StandsAt r a (u16 n)) (small : n < 65536) : wordAt r a = n := by
  have word := wordAt_append small []
  rw [List.append_nil] at word
  rw [← Nat.add_zero a, h.word (by simp), word]

theorem StandsAt.readDouble {n : Nat} (h : StandsAt r a (u32 n)) (small : n < 4294967296) :
    wordAt r a + 65536 * wordAt r (a + 2) = n := by
  have low : wordAt (u32 n) 0 = n % 65536 := wordAt_append_mod n _
  have high : wordAt (u32 n) 2 = n / 65536 % 65536 := wordAt_append_mod (n / 65536) []
  rw [h.word (i := 2) (by simp), high, ← Nat.add_zero a, h.word (by simp), low]
  omega

theorem StandsAt.readNone {w : Nat} (h : StandsAt r a (optional w none)) : byteAt r a = 0 := by
  rw [← Nat.add_zero a, h.byte (by simp [optional])]
  rfl

theorem StandsAt.readSome {n : Nat} (h : StandsAt r a (optional 2 (some (u16 n)))) (small : n < 65536) :
    byteAt r a = 1 ∧ wordAt r (a + 1) = n := by
  refine ⟨?_, ?_⟩
  · rw [← Nat.add_zero a, h.byte (by simp [optional])]
    rfl
  · have inner : StandsAt (optional 2 (some (u16 n))) 1 (u16 n) := ⟨[1], [], by simp [optional], rfl⟩
    exact (h.within inner).readWord small

end

/-! ## The lengths of the pieces of the reports -/

theorem optional_map_length {α : Type} {w : Nat} {f : α → List Byte} (h : ∀ x, (f x).length = w) (o : Option α) :
    (optional w (o.map f)).length = w + 1 :=
  optional_length fun bs e => by
    obtain ⟨x, -, rfl⟩ := Option.map_eq_some_iff.mp e
    exact h x

@[simp] theorem optional_byte_length {α : Type} (f : α → Nat) (o : Option α) :
    (optional 1 (o.map (fun x => u8 (f x)))).length = 2 := optional_map_length (fun _ => by rfl) o

@[simp] theorem optional_word_length (o : Option Nat) : (optional 2 (o.map u16)).length = 3 :=
  optional_map_length (fun _ => by rfl) o

@[simp] theorem optional_signed_length (o : Option Int) : (optional 2 (o.map i16)).length = 3 :=
  optional_map_length (fun _ => by rfl) o

@[simp] theorem PinRecord.bytes_length (r : PinRecord) : r.bytes.length = 6 := by
  simp [PinRecord.bytes]

@[simp] theorem MoveSource.bytes_length (m : MoveSource) : m.bytes.length = 4 := by
  cases m <;> rfl

@[simp] theorem TallyUnit.bytes_length (t : TallyUnit) : t.bytes.length = 12 := by
  unfold TallyUnit.bytes
  cases t.qual <;> rfl

section
variable (s : State)

@[simp] theorem State.grantedReport_length : s.grantedReport.length = 5 := optional_map_length (fun _ => by rfl) _

@[simp] theorem State.linkStoreReport_length (l : Link) : (s.linkStoreReport l).length = 15 := by
  unfold State.linkStoreReport
  simp only [List.length_append, u8_length, u16_length, flagByte_length]
  rw [optional_map_length fun _ => by rfl]

@[simp] theorem State.dwellReport_length : s.dwellReport.length = 2 := by
  unfold State.dwellReport
  split
  · exact optional_map_length (fun _ => by rfl) _
  · rfl

/-- The pieces of the state report, in their order (R185). -/
def State.stateChunks : List (List Byte) :=
  [s.strapReport,
    u8 s.engine.code ++ optional 1 (s.waitState.map (fun w => u8 w.code)) ++ s.arb.halt.bytes,
    s.grantedReport,
    u8 (if s.arb.hold then 0 else 1),
    optional 1 (s.arb.idleTimer.map (fun t => u8 (ticksIn 1000000 t))) ++
      optional 1 (s.arb.autoTimer.map (fun t => u8 (ticksIn 1000000 t))),
    s.arb.head.bytes,
    u16 (freeBlocks s.store) ++ u8 (freeDescs s.store) ++ u8 (sharedFreeBlocks s.store) ++ u8 (sharedFreeDescs s.store),
    s.linkStoreReport .job, s.linkStoreReport .console, s.port.job.noticeReport, s.port.console.noticeReport,
    s.healthReport, (s.heat.acc.toList.map u16).flatten,
    optional 2 (s.heat.temperature.map i16) ++ optional 2 (s.heat.supply.map u16),
    u8 s.heat.heatState.code ++ u8 s.heat.tempState.code ++ u8 s.heat.thermal.code ++ flagByte s.heat.lowSupply,
    optional 1 (s.waitState.map (fun w => u8 w.code)), s.dwellReport, s.carriageReport, u8 s.drive.state.code,
    optional 10 (s.drive.move.map (fun m => m.source.bytes ++ u8 m.kind.code ++ u16 m.distance ++ i16 m.net ++ u8 m.stalls)),
    (s.tallyUnit 0).bytes, (s.tallyUnit 1).bytes]

theorem State.stateReport_eq : s.stateReport = s.stateChunks.flatten := by
  simp only [State.stateReport, State.engineReport, State.storeReport, State.heatReport, State.driveReport,
    State.stateChunks, List.flatten_cons, List.flatten_nil, List.append_nil, List.append_assoc]

/-- The lengths of the pieces of the state report. -/
def stateLengths : List Nat := [2, 4, 5, 1, 4, 6, 5, 15, 15, 3, 3, 108, 36, 6, 4, 2, 2, 3, 1, 11, 12, 12]

theorem State.stateChunks_lengths : s.stateChunks.map List.length = stateLengths := by
  have health : s.healthReport.length = 108 := by
    rw [State.healthReport, flatten_length (w := 6) (by simp)]
    simp
  have acc : ((s.heat.acc.toList.map u16).flatten).length = 36 := by
    rw [flatten_length (w := 2) (by simp)]
    simp
  simp only [State.stateChunks, List.map_cons, List.map_nil, List.length_append, health, acc, State.strapReport,
    HaltSet.bytes, HeadSettings.bytes, LinkPort.noticeReport, State.carriageReport, u8_length, u16_length, i8_length,
    i16_length, flagByte_length, optional_byte_length, optional_word_length, optional_signed_length,
    State.grantedReport_length, State.linkStoreReport_length, State.dwellReport_length, TallyUnit.bytes_length]
  rw [optional_map_length fun m => by simp]
  rfl

end

end Sys2Proof.Machine

namespace Sys2Proof.Machine

/-! ## The state report (R185) -/

section
variable {s : State}

/-- A piece of the state report, read by its place in the list of pieces. -/
theorem State.stateField {a n i : Nat} {c : List Byte} (hc : s.stateChunks[i]? = some c)
    (ha : (stateLengths.take i).sum = a) (hn : stateLengths[i]? = some n) : (s.stateReport.drop a).take n = c := by
  have len : c.length = n := by
    rw [← s.stateChunks_lengths, List.getElem?_map, hc] at hn
    exact Option.some.inj hn
  exact (StandsAt.ofLengths s.stateReport_eq s.stateChunks_lengths hc ha).slice len

theorem State.pinField (p : Pin) : (s.stateReport.drop (63 + 6 * p.val)).take 6 = (s.pinRecord p).bytes := by
  have group := StandsAt.ofLengths (i := 11) (a := 63) s.stateReport_eq s.stateChunks_lengths rfl rfl
  have record : (s.health.toList.map PinRecord.bytes)[p.val]? = some (s.pinRecord p).bytes := by
    simp [State.pinRecord]
  exact (group.within (StandsAt.ofWidth (by simp) record)).slice (PinRecord.bytes_length _)

theorem State.heatField (p : Pin) : (s.stateReport.drop (171 + 2 * p.val)).take 2 = u16 (s.heatOf p) := by
  have group := StandsAt.ofLengths (i := 12) (a := 171) s.stateReport_eq s.stateChunks_lengths rfl rfl
  have heat : (s.heat.acc.toList.map u16)[p.val]? = some (u16 (s.heatOf p)) := by
    simp [State.heatOf]
  exact (group.within (StandsAt.ofWidth (by simp) heat)).slice rfl

end

/-- Each field of the bytes of a tally unit (R177). -/
theorem TallyUnit.bytes_fields (t : TallyUnit) {b : List Byte} (hb : b = t.bytes) : b.length = 12 ∧
    byteAt b 0 = (match t.mode with | .off => 0 | .edge => 1 | .count => 2) ∧ wordAt b 1 = t.setValue.toNat ∧
    wordAt b 3 = t.armed.toNat ∧ wordAt b 5 = t.present.toNat ∧ byteAt b 7 = (if t.unmasked then 1 else 0) ∧
    byteAt b 8 = (if t.latch then 1 else 0) ∧ byteAt b 9 = (match t.qual with | .low => 0 | .rising _ => 1 | .high => 2) ∧
    (∀ n, t.qual = .rising n → n < 65536 → wordAt b 10 = n) ∧ (t.qual = .low ∨ t.qual = .high → wordAt b 10 = 0) := by
  have chunks : b = [u8 t.mode.code, u16 t.setValue.toNat, u16 t.armed.toNat, u16 t.present.toNat, flagByte t.unmasked,
      flagByte t.latch, u8 (match t.qual with | .low => 0 | .rising _ => 1 | .high => 2),
      u16 (match t.qual with | .low => 0 | .rising e => e | .high => 0)].flatten := by
    rw [hb, TallyUnit.bytes]
    cases t.qual <;> simp
  have field {i : Nat} {a : Nat} {c : List Byte} := StandsAt.ofLengths (i := i) (a := a) (p := c) (lens := [1, 2, 2, 2, 1, 1, 1, 2])
    chunks rfl
  refine ⟨by rw [hb]; exact t.bytes_length, ?_, (field (i := 1) rfl rfl).readWord (BitVec.isLt _),
    (field (i := 2) rfl rfl).readWord (BitVec.isLt _), (field (i := 3) rfl rfl).readWord (BitVec.isLt _),
    (field (i := 4) rfl rfl).readFlag, (field (i := 5) rfl rfl).readFlag, ?_, fun n rising small => ?_, fun still => ?_⟩
  · have mode : t.mode.code < 256 := by cases t.mode <;> decide
    rw [(field (i := 0) (a := 0) rfl rfl).readByte mode]
    cases t.mode <;> rfl
  · refine (field (i := 6) rfl rfl).readByte ?_
    split <;> decide
  · have count := field (i := 7) (a := 10) rfl rfl
    simp only [rising] at count
    exact count.readWord small
  · have count := field (i := 7) (a := 10) rfl rfl
    rcases still with still | still <;> simp only [still] at count <;> exact count.readWord (by decide)

/-! ## The position snapshot (R143) -/

section
variable {s : State}

/-- The pieces of the position snapshot before the stops list (R143). -/
def State.snapshotHead (s : State) : List (List Byte) :=
  [u16 s.form.form.toNat, u16 s.form.offset, u16 s.map.len, u16 s.map.programmed, optional 2 (s.map.learned.map u16),
    u8 s.form.edge.code, optional 2 (s.form.candidate.map u16), optional 2 (s.form.lastCorrection.map i16),
    flagByte s.form.pendingCorrection.isSome, u32 s.form.odometer.toNat, u8 s.form.path.code, u8 s.form.paper.code,
    optional 2 (s.form.paper.tailDistance.map i16), u8 s.form.tear.code, flagByte s.form.trusted, u16 s.map.tof,
    i8 s.map.trim, u16 s.map.skip, u8 s.map.stops.length]

/-- The pieces of the position snapshot from the stops list on (R143). -/
def State.snapshotTail (s : State) : List (List Byte) :=
  [(s.map.stops.map u16).flatten, flagByte s.map.lock, i16 s.car.counter, u8 s.car.state.name.code]

/-- The lengths of the pieces of the position snapshot before the stops list. -/
def snapshotLengths : List Nat := [2, 2, 2, 2, 3, 1, 3, 3, 1, 4, 1, 1, 3, 1, 1, 2, 1, 2, 1]

theorem State.positionReport_eq : s.positionReport = s.snapshotHead.flatten ++ s.snapshotTail.flatten := by
  unfold State.positionReport State.snapshotHead State.snapshotTail stopBytes Machine.counted
  dsimp only
  rw [List.length_map]
  simp only [List.flatten_cons, List.flatten_nil, List.append_nil, List.append_assoc]

theorem State.snapshotHead_lengths : s.snapshotHead.map List.length = snapshotLengths := by
  simp [State.snapshotHead, snapshotLengths]

theorem State.snapshotHead_length : s.snapshotHead.flatten.length = 36 := by
  rw [List.length_flatten, State.snapshotHead_lengths]
  rfl

theorem State.snapshotTail_lengths : s.snapshotTail.map List.length = [2 * s.map.stops.length, 1, 2, 1] := by
  have stops : ((s.map.stops.map u16).flatten).length = 2 * s.map.stops.length := by
    rw [flatten_length (w := 2) (by simp), List.length_map]
  simp [State.snapshotTail, stops]

theorem State.positionReport_length : s.positionReport.length = 36 + 2 * s.map.stops.length + 4 := by
  rw [State.positionReport_eq, List.length_append, State.snapshotHead_length, List.length_flatten,
    State.snapshotTail_lengths]
  simp [Nat.add_assoc]

/-- A piece of the snapshot before the stops list, by its place in the list of pieces. -/
theorem State.snapshotField {a i : Nat} {c : List Byte} (hc : s.snapshotHead[i]? = some c)
    (ha : (snapshotLengths.take i).sum = a) : StandsAt s.positionReport a c := by
  have head : StandsAt s.positionReport 0 s.snapshotHead.flatten := ⟨[], _, State.positionReport_eq, rfl⟩
  rw [← Nat.zero_add a]
  exact head.within (.ofLengths rfl State.snapshotHead_lengths hc ha)

/-- A piece of the snapshot from the stops list on, by its place behind the head. -/
theorem State.snapshotTailField {b i : Nat} {c : List Byte} (hc : s.snapshotTail[i]? = some c)
    (hb : ([2 * s.map.stops.length, 1, 2, 1].take i).sum = b) : StandsAt s.positionReport (36 + b) c := by
  have tail : StandsAt s.positionReport 36 s.snapshotTail.flatten :=
    ⟨s.snapshotHead.flatten, [], by rw [List.append_nil, State.positionReport_eq], State.snapshotHead_length⟩
  exact tail.within (.ofLengths rfl State.snapshotTail_lengths hc hb)

/-- An optional field of 2 bytes in the snapshot. -/
theorem StandsAt.readOptional {α : Type} {r : List Byte} {a : Nat} {o : Option α} {f : α → Nat}
    (h : StandsAt r a (optional 2 (o.map (fun x => u16 (f x))))) (small : ∀ x, o = some x → f x < 65536) :
    (o = none → byteAt r a = 0) ∧ ∀ x, o = some x → byteAt r a = 1 ∧ wordAt r (a + 1) = f x := by
  refine ⟨fun absent => ?_, fun x present => ?_⟩
  · rw [absent] at h
    exact h.readNone
  · rw [present] at h
    exact h.readSome (small x present)

end

end Sys2Proof.Machine

namespace Sys2Proof.Machine

section
variable {s : State}

theorem FormMap.Legal.len_le {m : FormMap} (h : m.Legal) : m.len ≤ 8640 := by
  unfold FormMap.len
  cases learned : m.learned with
  | none => exact h.programmed.2
  | some n => exact (h.learned n learned).2

/-- The fields of the snapshot before the tail distance (R126, R127, R143). -/
theorem State.FormSound.snapshot_position (sound : s.FormSound) {r : List Byte} (hr : r = s.positionReport) :
    wordAt r 0 = s.form.form.toNat ∧ wordAt r 2 = s.form.offset ∧ wordAt r 4 = s.map.len ∧
    wordAt r 6 = s.map.programmed ∧
    (match s.map.learned with | none => byteAt r 8 = 0 | some n => byteAt r 8 = 1 ∧ wordAt r 9 = n) ∧
    byteAt r 11 = s.form.edge.code ∧
    (match s.form.candidate with | none => byteAt r 12 = 0 | some n => byteAt r 12 = 1 ∧ wordAt r 13 = n) ∧
    (match s.form.lastCorrection with
      | none => byteAt r 15 = 0
      | some d => byteAt r 15 = 1 ∧ wordAt r 16 = (BitVec.ofInt 16 d).toNat) ∧
    byteAt r 18 = (if s.form.pendingCorrection.isSome then 1 else 0) ∧
    wordAt r 19 + 65536 * wordAt r 21 = s.form.odometer.toNat ∧ byteAt r 23 = s.form.path.code ∧
    byteAt r 24 = s.form.paper.code := by
  have field {i a : Nat} {c : List Byte} (hc : s.snapshotHead[i]? = some c) (ha : (snapshotLengths.take i).sum = a) :
      StandsAt r a c := by rw [hr]; exact snapshotField hc ha
  have len := sound.map.len_le
  have offset := sound.offset
  have programmed := sound.map.programmed.2
  have edge : s.form.edge.code < 256 := by cases s.form.edge <;> decide
  have path : s.form.path.code < 256 := by cases s.form.path <;> decide
  have paper : s.form.paper.code < 256 := by cases s.form.paper <;> exact Nat.le_of_ble_eq_true rfl
  refine ⟨(field (i := 0) rfl (by decide)).readWord (BitVec.isLt _), (field (i := 1) rfl (by decide)).readWord (by omega),
    (field (i := 2) rfl (by decide)).readWord (by omega), (field (i := 3) rfl (by decide)).readWord (by omega), ?_,
    (field (i := 5) rfl (by decide)).readByte edge, ?_, ?_, (field (i := 8) rfl (by decide)).readFlag,
    (field (i := 9) rfl (by decide)).readDouble (BitVec.isLt _), (field (i := 10) rfl (by decide)).readByte path,
    (field (i := 11) rfl (by decide)).readByte paper⟩
  · obtain ⟨absent, present⟩ := (field (i := 4) (a := 8) rfl (by decide)).readOptional (f := id) fun n e => by
      have := (sound.map.learned n e).2
      exact Nat.lt_of_le_of_lt this (by decide)
    cases learned : s.map.learned with
    | none => exact absent learned
    | some n => exact present n learned
  · obtain ⟨absent, present⟩ := (field (i := 6) (a := 12) rfl (by decide)).readOptional (f := id) fun n e => by
      have := (sound.candidate n e).2
      exact Nat.lt_of_le_of_lt this (by decide)
    cases candidate : s.form.candidate with
    | none => exact absent candidate
    | some n => exact present n candidate
  · obtain ⟨absent, present⟩ := (field (i := 7) (a := 15) rfl (by decide)).readOptional
      (f := fun d => (BitVec.ofInt 16 d).toNat) fun _ _ => BitVec.isLt _
    cases correction : s.form.lastCorrection with
    | none => exact absent correction
    | some d => exact present d correction

/-- The fields of the snapshot from the tail distance on (R126, R129, R143). -/
theorem State.FormSound.snapshot_map (sound : s.FormSound) {r : List Byte} {k : Nat} (hr : r = s.positionReport)
    (hk : k = 36 + 2 * s.map.stops.length) :
    (match s.form.paper with
      | .tail d => byteAt r 25 = 1 ∧ wordAt r 26 = (BitVec.ofInt 16 d).toNat
      | _ => byteAt r 25 = 0) ∧
    byteAt r 28 = s.form.tear.code ∧ byteAt r 29 = (if s.form.trusted then 1 else 0) ∧ wordAt r 30 = s.map.tof ∧
    byteAt r 32 = (BitVec.ofInt 8 s.map.trim).toNat ∧ wordAt r 33 = s.map.skip ∧ byteAt r 35 = s.map.stops.length ∧
    (∀ i x, s.map.stops[i]? = some x → wordAt r (36 + 2 * i) = x) ∧ byteAt r k = (if s.map.lock then 1 else 0) ∧
    wordAt r (k + 1) = (BitVec.ofInt 16 s.car.counter).toNat ∧ byteAt r (k + 3) = s.car.state.name.code := by
  have field {i a : Nat} {c : List Byte} (hc : s.snapshotHead[i]? = some c) (ha : (snapshotLengths.take i).sum = a) :
      StandsAt r a c := by rw [hr]; exact snapshotField hc ha
  have tailField {i b : Nat} {c : List Byte} (hc : s.snapshotTail[i]? = some c)
      (hb : ([2 * s.map.stops.length, 1, 2, 1].take i).sum = b) : StandsAt r (36 + b) c := by
    rw [hr]; exact snapshotTailField hc hb
  have len := sound.map.len_le
  have tof := sound.map.tof
  have skip := sound.map.skip
  have few := sound.map.few
  have tear : s.form.tear.code < 256 := by cases s.form.tear <;> decide
  have state : s.car.state.name.code < 256 := by cases s.car.state.name <;> decide
  refine ⟨?_, (field (i := 13) rfl (by decide)).readByte tear, (field (i := 14) rfl (by decide)).readFlag,
    (field (i := 15) rfl (by decide)).readWord (by omega), (field (i := 16) rfl (by decide)).readByte (BitVec.isLt _),
    (field (i := 17) rfl (by decide)).readWord (by omega), (field (i := 18) rfl (by decide)).readByte (by omega),
    fun i x hx => ?_, ?_, ?_, ?_⟩
  · have tail := field (i := 12) (a := 25) rfl (by decide)
    cases paper : s.form.paper with
    | tail d =>
      rw [paper] at tail
      exact tail.readSome (BitVec.isLt _)
    | none | loading | present | parked =>
      rw [paper] at tail
      exact tail.readNone
  · have list := tailField (i := 0) rfl rfl
    have stop : (s.map.stops.map u16)[i]? = some (u16 x) := by rw [List.getElem?_map, hx]; rfl
    have below := sound.map.below x (List.mem_of_getElem? hx)
    exact (list.within (StandsAt.ofWidth (by simp) stop)).readWord (by omega)
  · exact hk ▸ (tailField (i := 1) rfl (by simp)).readFlag
  · exact hk ▸ (tailField (i := 2) rfl (by simp; rfl)).readWord (BitVec.isLt _)
  · exact hk ▸ (tailField (i := 3) rfl (by simp; rfl)).readByte state

/-! ## The engine state and its sub-state (R125, R163) -/

theorem State.engine_of_halted (halted : s.arb.halt ≠ ⟨false, false, false, false⟩) : s.engine = .halted := by
  refine if_pos ?_
  rw [Bool.not_eq_true', Bool.eq_false_iff]
  exact fun h => halted ((HaltSet.isEmpty_iff _).mp h)

theorem Drive.autoInFlight_iff (d : Drive) : d.autoInFlight = true ↔
    (∃ m, d.move = some m ∧ m.source = .auto) ∨ ∃ m, d.due = some m ∧ m.source = .auto := by
  unfold Drive.autoInFlight
  cases d.move <;> cases d.due <;> simp

/-- The engine state while the halt set is empty and no entry is granted (R163, R175). -/
theorem State.engine_of_free (clear : s.arb.halt = ⟨false, false, false, false⟩) (free : s.arb.granted = none) :
    s.engine = if s.drive.autoInFlight = true then .move else if s.car.state = .stopped then .idle else .unready := by
  rw [State.engine, clear, free]
  rfl

/-- The engine state while the halt set is empty and an entry is granted (R163). -/
theorem State.engine_of_granted (clear : s.arb.halt = ⟨false, false, false, false⟩) (busy : s.arb.granted ≠ none) :
    (∀ c, s.line = some c → s.engine = c.stage.engine) ∧
    (s.line = none → s.engine = if s.test.isSome then .coilTest else .move) := by
  have granted : s.arb.granted.isSome = true := Option.isSome_iff_ne_none.mpr busy
  rw [State.engine, clear, granted]
  refine ⟨fun c line => ?_, fun line => ?_⟩
  · rw [line]
    rfl
  · rw [line]
    cases s.test <;> rfl

theorem PassId.waitingEngine_eq (p : PassId) :
    p.waitingEngine = if p = .main .odd ∨ p = .up .odd ∨ p = .down .odd then .pass else .planning := by
  cases p with
  | main h | up h | down h => cases h <;> rfl
  | repair => rfl

/-- The sub-state of a line (R120, R121). -/
theorem State.waitState_eq {c : LineContext} (line : s.line = some c) :
    (∀ p, c.stage = .planDue p → s.waitState = (if s.heat.thermal = .limit then some .waitThermal
      else if s.heat.lowSupply then some .waitSupply else none)) ∧
    ((∀ p, c.stage ≠ .planDue p) → (s.waitState = some .dwell ↔ ∃ n, s.dwell = .running n) ∧
      (s.waitState = none ↔ ∀ n, s.dwell ≠ .running n)) := by
  rw [State.waitState, line]
  dsimp only
  refine ⟨fun p stage => by rw [stage], fun other => ?_⟩
  cases stage : c.stage with
  | planDue p => exact absurd stage (other p)
  | returning | planned | striking | subMove | feeding | jammed | held =>
    cases s.dwell <;> simp

end

/-! ## The answers (R182, R185, R187) -/

section
variable {s : State} {l : Link} {bytes : List Byte}

theorem State.heard_port : (s.heard l bytes).port.get l =
    { s.port.get l with rx := .discard none, position := (s.port.get l).position + bytes.length } := by
  simp [State.heard, State.receive]

/-- The bytes of the request change no field of the report. -/
theorem State.stateReport_heard : (s.heard l bytes).stateReport = s.stateReport := by
  have job : (s.heard l bytes).port.job.noticeReport = s.port.job.noticeReport := by cases l <;> rfl
  have console : (s.heard l bytes).port.console.noticeReport = s.port.console.noticeReport := by cases l <;> rfl
  rw [State.stateReport, job, console]
  rfl

/-- The notices taken are answered, with LOST as read and the number left (R187). -/
theorem State.takeTakeNotice_eq {f : Frame} {b : Byte} (hk : f.kind = .takeNotice) (hb : f.payload = [b]) :
    (s.heard l bytes).takeTakeNotice l f =
      ((s.heard l bytes).modifyPort l
        (fun p => { p with notices := p.notices.drop (max 1 (min 8 b.toNat)), lost := false })).answered l
        ⟨0x87, f.tag, .ok,
          [BitVec.ofNat 8 (min (max 1 (min 8 b.toNat)) (s.port.get l).notices.length),
            if (s.port.get l).lost then 1 else 0,
            BitVec.ofNat 8 ((s.port.get l).notices.length - max 1 (min 8 b.toNat))] ++
          (((s.port.get l).notices.take (max 1 (min 8 b.toNat))).map Notice.bytes).flatten⟩ := by
  have count : noticeCountOf f.payload = max 1 (min 8 b.toNat) := by rw [hb]; rfl
  have flag : flagByte (s.port.get l).lost = [if (s.port.get l).lost then 1 else 0] := by
    cases (s.port.get l).lost <;> rfl
  rw [State.takeTakeNotice, count]
  simp only [State.heard_port, flag, State.respond, Frame.answer, hk, List.length_take, List.length_drop, State.modifyPort,
    State.answered, PerLink.get_set_same]
  rfl

end

/-- The granted entry in the report (R163). -/
theorem State.grantedReport_eq {s : State} : (s.arb.granted = none → s.grantedReport = [0, 0, 0, 0, 0]) ∧
    (∀ g e, s.arb.granted = some g → s.headEntry g.link = some e →
      s.grantedReport = [1] ++ u8 (linkCode g.link) ++ u16 e.seq.toNat ++ u8 e.record.code) := by
  unfold State.grantedReport State.grantedEntry
  refine ⟨fun free => ?_, fun g e granted head => ?_⟩
  · rw [free]
    rfl
  · rw [granted]
    dsimp only
    rw [head]
    rfl

/-- The dwell in the report: its time left while DWELL is shown (R125). -/
theorem State.dwellReport_eq {s : State} : (s.waitState ≠ some .dwell → s.dwellReport = [0, 0]) ∧
    (∀ n, s.waitState = some .dwell → s.dwell = .running n → s.dwellReport = [1] ++ u8 ((n + 9999) / 10000)) := by
  unfold State.dwellReport
  refine ⟨fun other => ?_, fun n shown running => ?_⟩
  · rw [if_neg other]
    rfl
  · rw [if_pos shown, running]
    rfl

/-- Settles O12: the answers by the requests' definitions, the fields of the reports by their places in the lists of pieces,
and the engine state by its branches. -/
theorem readsAndNoticesAreAnswered : Obligations.ReadsAndNoticesAreAnswered := by
  unfold Obligations.ReadsAndNoticesAreAnswered
  refine ⟨fun l bytes s f hf => ⟨fun hk => ?_, fun hk => ?_, fun hk => ?_, fun b hk hb => ⟨_, rfl, ?_⟩⟩,
    fun s r k sound hr hk => ?_, fun s r at_ hr hat => ?_, fun t b hb => t.bytes_fields hb, fun l q => ?_, rfl, rfl,
    fun s auto hauto => ?_⟩
  · have run : exec (.noOp l bytes) s = .next ((s.heard l bytes).takeNoOp l f) :=
      congrArg _ (State.request_of_frameOf State.takeNoOp hf hk)
    rw [run, State.takeNoOp]
    simp only [State.respond, Frame.answer, hk]
    rfl
  · have run : exec (.readState l bytes) s = .next ((s.heard l bytes).takeReadState l f) :=
      congrArg _ (State.request_of_frameOf State.takeReadState hf hk)
    rw [run, State.takeReadState]
    simp only [State.respond, Frame.answer, hk, State.stateReport_heard]
    rfl
  · have run : exec (.readPosition l bytes) s = .next ((s.heard l bytes).takeReadPosition l f) :=
      congrArg _ (State.request_of_frameOf State.takeReadPosition hf hk)
    rw [run, State.takeReadPosition]
    simp only [State.respond, Frame.answer, hk]
    rfl
  · have run : exec (.takeNotice l bytes) s = .next ((s.heard l bytes).takeTakeNotice l f) :=
      congrArg _ (State.request_of_frameOf State.takeTakeNotice hf hk)
    rw [run, State.takeTakeNotice_eq hk hb]
  · subst hk
    obtain ⟨form, offset, len, programmed, learned, edge, candidate, correction, pending, odometer, path, paper⟩ :=
      sound.snapshot_position hr
    exact ⟨hr ▸ State.positionReport_length, form, offset, len, programmed, learned, edge, candidate, correction, pending,
      odometer, path, paper, sound.snapshot_map hr rfl⟩
  · subst hr
    have field {i a n : Nat} {c : List Byte} (hc : s.stateChunks[i]? = some c) (ha : (stateLengths.take i).sum = a)
        (hn : stateLengths[i]? = some n) : at_ a n = c := (hat a n).trans (State.stateField hc ha hn)
    have granted : at_ 6 5 = s.grantedReport := field (i := 2) rfl rfl rfl
    have dwell : at_ 219 2 = s.dwellReport := field (i := 16) rfl rfl rfl
    obtain ⟨free, busy⟩ := s.grantedReport_eq
    obtain ⟨other, running⟩ := s.dwellReport_eq
    refine ⟨?_, field (i := 0) rfl rfl rfl, field (i := 1) rfl rfl rfl, fun none => granted.trans (free none),
      fun g e some head => granted.trans (busy g e some head), ?_, field (i := 4) rfl rfl rfl, field (i := 5) rfl rfl rfl,
      field (i := 6) rfl rfl rfl, fun l => ?_, fun l => ?_, fun p => (hat _ _).trans (State.pinField p),
      fun p => (hat _ _).trans (State.heatField p), field (i := 13) rfl rfl rfl, field (i := 14) rfl rfl rfl,
      field (i := 15) rfl rfl rfl, fun none => dwell.trans (other none),
      fun n shown some => dwell.trans (running n shown some), field (i := 17) rfl rfl rfl, field (i := 18) rfl rfl rfl,
      field (i := 19) rfl rfl rfl, fun i => ?_⟩
    · rw [State.stateReport_eq, List.length_flatten, State.stateChunks_lengths]
      rfl
    · rw [field (i := 3) (a := 11) (n := 1) rfl rfl rfl]
      cases s.arb.hold <;> rfl
    · cases l with
      | job => exact field (i := 7) rfl rfl rfl
      | console => exact field (i := 8) rfl rfl rfl
    · cases l with
      | job => exact field (i := 9) rfl rfl rfl
      | console => exact field (i := 10) rfl rfl rfl
    · match i with
      | 0 => exact field (i := 20) rfl rfl rfl
      | 1 => exact field (i := 21) rfl rfl rfl
  · cases l <;> rfl
  · refine ⟨State.engine_of_halted, fun clear => ⟨fun free moving => ?_, fun free still => ?_, fun busy => ?_⟩, fun line => ?_,
      fun c line => State.waitState_eq line⟩
    · rw [State.engine_of_free clear free, if_pos ((Drive.autoInFlight_iff _).mpr (hauto.mp moving))]
    · rw [State.engine_of_free clear free, if_neg fun h => still (hauto.mpr ((Drive.autoInFlight_iff _).mp h))]
    · obtain ⟨inLine, noLine⟩ := State.engine_of_granted clear busy
      refine ⟨fun c line => ?_, noLine⟩
      rw [inLine c line]
      cases c.stage with
      | planDue p | planned p => exact p.waitingEngine_eq
      | returning | striking | subMove | feeding | jammed | held => rfl
    · rw [State.waitState, line]

end Sys2Proof.Machine

namespace Sys2Proof.Machine

/-! ## The chain of a line (R18, R20) -/

theorem layChain_cols {ns : List Nat} {runs : List (List Rows)} (room : runs.length ≤ ns.length) :
    (layChain ns runs).map (·.cols) = runs := by
  induction ns generalizing runs with
  | nil => rw [List.length_eq_zero_iff.mp (Nat.le_zero.mp room)]; rfl
  | cons n ns ih =>
    cases runs with
    | nil => rfl
    | cons r runs => simpa [layChain] using ih (Nat.le_of_succ_le_succ room)

/-- The first `k` runs of 32 columns, together. -/
theorem runs_flatten (cols : List Rows) (k : Nat) :
    ((List.range k).map (fun i => (cols.drop (32 * i)).take 32)).flatten = cols.take (32 * k) := by
  induction k with
  | zero => rfl
  | succ k ih =>
    rw [List.range_succ, List.map_append, List.flatten_append, ih, Nat.mul_succ, List.take_add]
    simp

theorem cutBlocks_flatten (cols : List Rows) : (cutBlocks cols).flatten = cols := by
  rw [cutBlocks, runs_flatten, List.take_of_length_le]
  unfold blocksFor
  omega

theorem mem_cutBlocks {cols run : List Rows} (h : run ∈ cutBlocks cols) : 1 ≤ run.length ∧ run.length ≤ 32 := by
  obtain ⟨i, hi, rfl⟩ := List.mem_map.mp h
  have := List.mem_range.mp hi
  unfold blocksFor at this
  rw [List.length_take, List.length_drop]
  omega

/-- The segment of a start and its columns. -/
def segmentOf (g : Nat × List Rows) : Segment := ⟨g.1, g.2.length⟩

/-- A chain that holds the runs of the segments' columns is read back column by column (R20). -/
theorem readChain_of_runs {gs : List (Nat × List Rows)} {chain : List Block}
    (h : chain.map (·.cols) = chainRuns (gs.map (·.2))) :
    readChain (gs.map segmentOf) chain = (gs.map (fun g => (g.2.zipIdx g.1).map (fun y => (y.2, y.1)))).flatten := by
  induction gs generalizing chain with
  | nil => rfl
  | cons g gs ih =>
    have runs : chainRuns ((g :: gs).map (·.2)) = cutBlocks g.2 ++ chainRuns (gs.map (·.2)) := rfl
    have own : chainColumns (chain.take (blocksFor g.2.length)) = g.2 := by
      rw [chainColumns, List.map_take, h, runs, ← cutBlocks_length, List.take_left, cutBlocks_flatten]
    have rest : (chain.drop (blocksFor g.2.length)).map (·.cols) = chainRuns (gs.map (·.2)) := by
      rw [List.map_drop, h, runs, ← cutBlocks_length, List.drop_left]
    change ((chainColumns (chain.take (blocksFor g.2.length))).zipIdx g.1).map (fun x => (x.2, x.1)) ++
      readChain (gs.map segmentOf) (chain.drop (blocksFor g.2.length)) = _
    rw [own, ih rest]
    rfl

/-! ## The columns of a payload (R192) -/

theorem columnBytes_length (m : Rows) : (columnBytes m).length = 3 := rfl

theorem StandsAt.readColumn {r : List Byte} {a : Nat} {m : Rows} (h : StandsAt r a (columnBytes m)) : columnAt r a = m := by
  have first : byteAt r a = m.toNat % 256 := h.byte (i := 0) (by simp [columnBytes])
  have second : byteAt r (a + 1) = m.toNat / 256 % 256 := h.byte (by simp [columnBytes])
  have third : byteAt r (a + 2) = m.toNat / 65536 % 256 := h.byte (by simp [columnBytes])
  have bound := m.isLt
  have whole : byteAt r a + 256 * byteAt r (a + 1) + 65536 * byteAt r (a + 2) = m.toNat := by omega
  rw [columnAt, whole, BitVec.ofNat_toNat, BitVec.setWidth_eq]

theorem StandsAt.readColumns {r : List Byte} {a : Nat} {cols : List Rows}
    (h : StandsAt r a (cols.map columnBytes).flatten) :
    (List.range cols.length).map (fun i => columnAt r (a + 3 * i)) = cols := by
  refine List.ext_getElem (by simp) fun i hi hc => ?_
  have piece : (cols.map columnBytes)[i]? = some (columnBytes cols[i]) := by
    rw [List.getElem?_map, List.getElem?_eq_getElem hc]; rfl
  have column := h.within (StandsAt.ofWidth (w := 3) (by simp [columnBytes_length]) piece)
  simpa using column.readColumn

theorem StandsAt.left {r p q : List Byte} {a : Nat} (h : StandsAt r a (p ++ q)) : StandsAt r a p :=
  h.within ⟨[], q, rfl, rfl⟩

theorem StandsAt.right {r p q : List Byte} {a : Nat} (h : StandsAt r a (p ++ q)) : StandsAt r (a + p.length) q :=
  h.within ⟨p, [], by simp, rfl⟩

/-- The columns of all segments are read back (R192). -/
theorem StandsAt.readSegments {r : List Byte} {a : Nat} {gs : List (Nat × List Rows)}
    (h : StandsAt r a (gs.map (fun g => (g.2.map columnBytes).flatten)).flatten) :
    segmentColumns r a (gs.map segmentOf) = gs.map (·.2) := by
  induction gs generalizing a with
  | nil => rfl
  | cons g gs ih =>
    rw [List.map_cons, List.flatten_cons] at h
    have len : ((g.2.map columnBytes).flatten).length = 3 * g.2.length := by
      rw [flatten_length (w := 3) (by simp [columnBytes_length]), List.length_map]
    have rest := h.right
    rw [len] at rest
    rw [List.map_cons, List.map_cons, ← ih rest, segmentColumns]
    exact congrArg (· :: _) h.left.readColumns

/-! ## The fields of a line payload (R23, R192) -/

section
variable {x : LineText}

/-- The byte of a tally hold (R192). -/
def holdCode : Option (Fin 2) → Nat
  | none => 255
  | some u => u.val

/-- The entry of a segment in the table (R192). -/
def tableEntry (g : Nat × List Rows) : List Byte := u16 g.1 ++ u16 g.2.length

theorem tableEntries_width (gs : List (Nat × List Rows)) : ∀ y ∈ gs.map tableEntry, y.length = 4 := fun y hy => by
  obtain ⟨g, -, rfl⟩ := List.mem_map.mp hy
  rfl

/-- The fields of a PUT LINE payload before the segment table. -/
def LineText.head (x : LineText) : List (List Byte) :=
  [u16 x.density.dpi, u16 (x.origin.getD 0), u16 x.feed, u16 x.segments.length, u8 x.dirRequest.code, u8 x.ceiling.rank,
    u8 (flagSet [x.urgent, x.unidirAlign, x.origin.isSome]), u8 (holdCode x.hold)]

theorem LineText.bytes_eq (x : LineText) : x.bytes = x.head.flatten ++
    (x.segments.map tableEntry).flatten ++
    (x.segments.map (fun g => (g.2.map columnBytes).flatten)).flatten := by
  simp only [LineText.bytes, LineText.head, List.flatten_cons, List.flatten_nil, List.append_nil, List.append_assoc]
  rfl

theorem LineText.head_lengths (x : LineText) : x.head.map List.length = [2, 2, 2, 2, 1, 1, 1, 1] := rfl

theorem LineText.head_length (x : LineText) : x.head.flatten.length = 12 := by
  rw [List.length_flatten, LineText.head_lengths]
  rfl

theorem LineText.table_length (x : LineText) :
    ((x.segments.map tableEntry).flatten).length = 4 * x.segments.length := by
  rw [flatten_length (tableEntries_width x.segments), List.length_map]

theorem LineText.field {i a : Nat} {c : List Byte} (hc : x.head[i]? = some c)
    (ha : (([2, 2, 2, 2, 1, 1, 1, 1] : List Nat).take i).sum = a) : StandsAt x.bytes a c := by
  have head : StandsAt x.bytes 0 x.head.flatten := ⟨[], _, by rw [LineText.bytes_eq, List.append_assoc]; rfl, rfl⟩
  rw [← Nat.zero_add a]
  exact head.within (.ofLengths rfl x.head_lengths hc ha)

theorem LineText.table (x : LineText) :
    StandsAt x.bytes 12 (x.segments.map tableEntry).flatten :=
  ⟨x.head.flatten, _, x.bytes_eq, x.head_length⟩

theorem LineText.columnsAt (x : LineText) : StandsAt x.bytes (12 + 4 * x.segments.length)
    (x.segments.map (fun g => (g.2.map columnBytes).flatten)).flatten :=
  ⟨_, [], by rw [List.append_nil]; exact x.bytes_eq, by rw [List.length_append, x.head_length, x.table_length]⟩

theorem LineText.bytes_length (x : LineText) :
    x.bytes.length = 12 + 4 * x.segments.length + 3 * totalColumns (x.segments.map segmentOf) := by
  have columns : ((x.segments.map (fun g => (g.2.map columnBytes).flatten)).flatten).length =
      3 * totalColumns (x.segments.map segmentOf) := by
    rw [List.length_flatten, List.map_map, totalColumns, List.map_map, ← List.sum_map_mul_left]
    refine congrArg List.sum (List.map_congr_left fun g _ => ?_)
    change ((g.2.map columnBytes).flatten).length = 3 * g.2.length
    rw [flatten_length (w := 3) (by simp [columnBytes_length]), List.length_map]
  rw [LineText.bytes_eq, List.length_append, List.length_append, x.head_length, x.table_length, columns]

theorem LineText.Legal.count (h : x.Legal) : wordAt x.bytes 6 = x.segments.length := by
  have few := h.few
  exact (x.field (i := 3) rfl (by decide)).readWord (by omega)

/-- The segment table is read back (R192). -/
theorem LineText.Legal.segmentsOf_eq (h : x.Legal) :
    segmentsOf x.bytes (wordAt x.bytes 6) = x.segments.map segmentOf := by
  rw [h.count]
  refine List.ext_getElem (by simp [segmentsOf]) fun i hi hg => ?_
  have hi : i < x.segments.length := by simpa using hg
  obtain ⟨some, most⟩ := h.columns x.segments[i] (List.getElem_mem hi)
  have piece : (x.segments.map tableEntry)[i]? =
      Option.some (tableEntry x.segments[i]) := by
    rw [List.getElem?_map, List.getElem?_eq_getElem hi]; rfl
  have entry := x.table.within (StandsAt.ofWidth (tableEntries_width x.segments) piece)
  have start : wordAt x.bytes (12 + 4 * i) = x.segments[i].1 := entry.left.readWord (by omega)
  have count : wordAt x.bytes (14 + 4 * i) = x.segments[i].2.length := by
    have place : 14 + 4 * i = 12 + 4 * i + 2 := by omega
    rw [place]
    exact entry.right.readWord (by omega)
  simp [segmentsOf, segmentOf, start, count]

theorem LineText.blocksNeeded_eq (x : LineText) :
    blocksNeeded (x.segments.map segmentOf) = (x.segments.map (fun g => (g.2.length + 31) / 32)).sum := by
  rw [blocksNeeded, List.map_map]
  rfl

theorem densityOf_dpi (d : Density) : densityOf d.dpi = some d := by cases d <;> rfl

theorem dirRequestOf_code (d : DirRequest) : dirRequestOf d.code = some d := by cases d <;> rfl

theorem LineText.Legal.ceilingOf_rank (h : x.Legal) : ceilingOf x.ceiling.rank = some x.ceiling := by
  have other := h.ceiling
  cases hc : x.ceiling with
  | creep => exact absurd hc other
  | draft | normal | heavy => rfl

/-- The code of a tally hold (R192). -/
theorem tallyHoldOf_code (u : Option (Fin 2)) : tallyHoldOf (holdCode u) = some u := by
  match u with
  | none => rfl
  | some 0 => rfl
  | some 1 => rfl

/-- The fixed fields are read back (R192). -/
theorem LineText.Legal.fixedFields (h : x.Legal) :
    densityOf (wordAt x.bytes 0) = some x.density ∧ wordAt x.bytes 2 = x.origin.getD 0 ∧ wordAt x.bytes 4 = x.feed ∧
    dirRequestOf (byteAt x.bytes 8) = some x.dirRequest ∧ ceilingOf (byteAt x.bytes 9) = some x.ceiling ∧
    (∀ n, bitAt x.bytes 10 n = [x.urgent, x.unidirAlign, x.origin.isSome].getD n false) ∧
    tallyHoldOf (byteAt x.bytes 11) = some x.hold := by
  have dpi : x.density.dpi < 65536 := by cases x.density <;> decide
  have dir : x.dirRequest.code < 256 := by cases x.dirRequest <;> decide
  have rank : x.ceiling.rank < 256 := by cases x.ceiling <;> decide
  have flags : flagSet [x.urgent, x.unidirAlign, x.origin.isSome] < 256 := by
    cases x.urgent <;> cases x.unidirAlign <;> cases x.origin.isSome <;> decide
  have origin : x.origin.getD 0 < 65536 := by
    cases ho : x.origin with
    | none => decide
    | some n => exact h.origin n ho
  have hold : holdCode x.hold < 256 := by
    cases x.hold with
    | none => decide
    | some u => exact Nat.lt_of_lt_of_le u.isLt (by decide)
  refine ⟨?_, (x.field (i := 1) rfl (by decide)).readWord origin, (x.field (i := 2) rfl (by decide)).readWord h.feed,
    ?_, ?_, fun n => ?_, ?_⟩
  · rw [(x.field (i := 0) (a := 0) rfl (by decide)).readWord dpi, densityOf_dpi]
  · rw [(x.field (i := 4) (a := 8) rfl (by decide)).readByte dir, dirRequestOf_code]
  · rw [(x.field (i := 5) (a := 9) rfl (by decide)).readByte rank, h.ceilingOf_rank]
  · have bits : bitAt x.bytes 10 n = (byteAt x.bytes 10).testBit n := rfl
    rw [bits, (x.field (i := 6) (a := 10) rfl (by decide)).readByte flags, flagSet_testBit]
  · rw [(x.field (i := 7) (a := 11) rfl (by decide)).readByte hold, tallyHoldOf_code]

/-- A legal payload passes every check of R23. -/
theorem LineText.Legal.lineCheck_eq (h : x.Legal) : lineCheck x.bytes = none := by
  obtain ⟨density, -, -, dir, ceiling, -, hold⟩ := h.fixedFields
  obtain ⟨one, few⟩ := h.few
  have length := x.bytes_length
  have each : ∀ g ∈ x.segments.map segmentOf, 1 ≤ g.count ∧ g.start + g.count ≤ 4896 := fun g hg => by
    obtain ⟨p, hp, rfl⟩ := List.mem_map.mp hg
    exact h.columns p hp
  have ascend : segmentsAscend (x.segments.map segmentOf) = true :=
    (segmentsAscend_iff fun g hg zero => by have := each g hg; omega).mpr (List.pairwise_map.mpr h.ascend)
  have blocks := h.blocks
  unfold lineCheck
  dsimp only
  rw [h.segmentsOf_eq, h.count, if_neg (by omega), if_neg (by omega), if_neg, if_neg, if_neg (by simp [ascend]),
    if_neg (by omega), if_neg (by simp [density]), if_neg (by simp [dir, ceiling, hold]),
    if_neg (by rw [x.blocksNeeded_eq]; omega)]
  · rw [List.any_eq_true]
    rintro ⟨g, hg, out⟩
    have := each g hg
    simp at out
    omega
  · rw [List.any_eq_true]
    rintro ⟨g, hg, out⟩
    have := each g hg
    simp at out
    omega

end

/-- Settles O18: the fields by their places, the columns by `readSegments`, the chain by `readChain_of_runs`. -/
theorem linePayloadIsReadBack : Obligations.LinePayloadIsReadBack := by
  unfold Obligations.LinePayloadIsReadBack
  intro x h
  refine ⟨h.lineCheck_eq, by rw [h.segmentsOf_eq, x.blocksNeeded_eq], fun l free room => ⟨_, rfl, ?_⟩⟩
  obtain ⟨density, origin, feed, dir, ceiling, flags, hold⟩ := h.fixedFields
  have runs : segmentColumns x.bytes (12 + 4 * (x.segments.map segmentOf).length) (x.segments.map segmentOf) =
      x.segments.map (·.2) := by
    rw [List.length_map]
    exact x.columnsAt.readSegments
  have total : (chainRuns (x.segments.map (·.2))).length = (x.segments.map (fun g => (g.2.length + 31) / 32)).sum := by
    rw [← runs, chainRuns_length, x.blocksNeeded_eq]
  have cols := layChain_cols (ns := free) (runs := chainRuns (x.segments.map (·.2))) (total ▸ room)
  unfold lineFieldsOf
  dsimp only
  rw [h.segmentsOf_eq, runs, density, dir, ceiling, hold, feed, flags, flags]
  refine ⟨rfl, ?_, rfl, rfl, ?_, rfl, rfl, rfl, rfl, readChain_of_runs cols, fun b hb => ?_, ?_⟩
  · rw [originOf, flags, origin]
    cases x.origin <;> rfl
  · cases l <;> simp
  · have run : b.cols ∈ chainRuns (x.segments.map (·.2)) := cols ▸ List.mem_map_of_mem hb
    obtain ⟨cut, hcut, hrun⟩ := List.mem_flatten.mp run
    obtain ⟨g, -, rfl⟩ := List.mem_map.mp hcut
    exact mem_cutBlocks hrun
  · rw [layChain_numbers, total]

end Sys2Proof.Machine

namespace Sys2Proof.Machine

/-! ## A plan in its parts (R42 to R46)

`State.planPass` is, for the line in flight, the losses of a substitution pass followed by a plan from the dots taken. -/

/-- The dots that a substitution pass cannot strike are lost when it is planned (R44). -/
def State.planLosses (s : State) (p : PassId) (d : DotSet) : State :=
  match p with
  | .up _ => s.loseDots d true
  | .down _ => s.loseDots d true
  | _ => s

/-- The plan of a pass from the dots that it takes (R44, R46, R53). -/
def State.planWith (s : State) (i : PlanInputs) (c : LineContext) (f : LineFields) (p : PassId) (taken : DotSet) :
    State × Option PassId :=
  let ps := protosOf f p taken
  if ps.isEmpty then (s, none)
  else if p = .repair then
    let sorted := sortProtos (c.lastMainDir.getD .right) ps
    let kept := protoDots p (sorted.take listCapacity)
    ((s.loseDots (protoDots p (sorted.drop listCapacity)) false).putPlan
      (makePlan i f p (some (c.lastMainDir.getD .right)) (protosOf f p kept)), some p)
  else
    let q := if p.half = .whole ∧ listCapacity < ps.length then p.withHalf .even else p
    let ps := if q.half = p.half then ps else protosOf f q (dotsOfHalf .even taken)
    (s.putPlan (makePlan i f q none ps), some q)

theorem State.planPass_eq {s : State} {c : LineContext} {f : LineFields} (line : s.line = some c)
    (fields : s.lineFields = some f) (p : PassId) (x : Int) :
    s.planPass p x = ((if s.heat.supply.isNone then s.useFree else s).planLosses p
      (dotsInRows (p.blockedRows s.failedPins) (c.dotsFor p))).planWith (s.planInputs x) c f p (s.dotsTaken c p) := by
  unfold State.planPass
  rw [line, fields]
  cases p <;> rfl

/-! ## What the work of a line leaves (R40 to R60) -/

/-- `t` differs from `s` at most in what the work of a line changes: the notices posted, the queues, the grant with the
hold and the timers, the line with its lists, its dwell and its due move, and the use of free values. -/
structure State.LineOnly (s t : State) : Prop where
  frame : t = { s with
    port := t.port, store := t.store, arb := t.arb, line := t.line, lists := t.lists, dwell := t.dwell
    drive := { s.drive with due := t.drive.due }, freeIndex := t.freeIndex }
  halt : t.arb.halt = s.arb.halt
  head : t.arb.head = s.arb.head
  nextSeq : ∀ l, (t.store.get l).nextSeq = (s.store.get l).nextSeq
  ports : s.PortsLater t

theorem State.LineOnly.refl (s : State) : s.LineOnly s := ⟨rfl, rfl, rfl, fun _ => rfl, .refl s⟩

theorem State.LineOnly.trans {s t u : State} (a : s.LineOnly t) (b : t.LineOnly u) : s.LineOnly u where
  frame := by
    have at_t := a.frame
    have at_u := b.frame
    rw [at_t] at at_u
    exact at_u
  halt := b.halt.trans a.halt
  head := b.head.trans a.head
  nextSeq l := (b.nextSeq l).trans (a.nextSeq l)
  ports := a.ports.trans b.ports

theorem State.LineOnly.ite {s t u : State} {p : Prop} [Decidable p] (a : s.LineOnly t) (b : s.LineOnly u) :
    s.LineOnly (if p then t else u) := by
  split
  · exact a
  · exact b

/-- An update of the line, its lists, its dwell, its due move and the free values alone. -/
theorem State.LineOnly.update (s : State) (line : Option LineContext) (lists : Vector StrikeList 2) (dwell : Dwell)
    (due : Option DueMove) (n : Nat) :
    s.LineOnly { s with
      line := line, lists := lists, dwell := dwell, drive := { s.drive with due := due }, freeIndex := n } :=
  ⟨rfl, rfl, rfl, fun _ => rfl, .of_eq rfl⟩

section
variable (s : State)

theorem State.post_lineOnly (l : Link) (n : Notice) : s.LineOnly (s.post l n) :=
  ⟨rfl, rfl, rfl, fun _ => rfl, .post s l n⟩

theorem State.modifyResult_lineOnly (l : Link) (f : LineResult → LineResult) : s.LineOnly (s.modifyResult l f) :=
  ⟨rfl, rfl, rfl, fun k => s.modifyHead_nextSeq l k _, .of_eq rfl⟩

theorem State.completeEntry_lineOnly (l : Link) : s.LineOnly (s.completeEntry l) where
  frame := by rw [State.completeEntry_frame]
  halt := s.completeEntry_halt l
  head := by rw [State.completeEntry_frame]; dsimp only; split <;> rfl
  nextSeq k := s.completeEntry_nextSeq l k
  ports := .of_eq (by rw [State.completeEntry_frame])

theorem State.modifyLine_lineOnly (f : LineContext → LineContext) : s.LineOnly (s.modifyLine f) :=
  .update s _ s.lists s.dwell s.drive.due s.freeIndex

theorem State.setStage_lineOnly (g : LineStage) : s.LineOnly (s.setStage g) := s.modifyLine_lineOnly _

theorem State.setDue_lineOnly (d : Option DueMove) : s.LineOnly (s.setDue d) :=
  .update s s.line s.lists s.dwell d s.freeIndex

theorem State.setLists_lineOnly (x : Vector StrikeList 2) (d : Dwell) : s.LineOnly { s with lists := x, dwell := d } :=
  .update s s.line x d s.drive.due s.freeIndex

/-- A stage with its due move (R146). -/
theorem State.setStageDue_lineOnly (g : LineStage) (d : Option DueMove) : s.LineOnly ((s.setStage g).setDue d) :=
  (s.setStage_lineOnly g).trans (State.setDue_lineOnly _ d)

theorem State.loseDots_lineOnly (d : DotSet) (degraded : Bool) : s.LineOnly (s.loseDots d degraded) := by
  unfold State.loseDots
  split
  · exact .refl s
  · exact (s.modifyResult_lineOnly _ _).trans (State.modifyLine_lineOnly _ _)

theorem State.loseAll_lineOnly : s.LineOnly s.loseAll := by
  unfold State.loseAll
  split
  · exact .refl s
  · exact s.loseDots_lineOnly _ _

theorem State.completeLine_lineOnly : s.LineOnly s.completeLine := by
  cases hl : s.line with
  | none => rw [State.completeLine, hl]; exact .refl s
  | some c =>
    have closed : ∀ t : State, s.LineOnly t →
        s.LineOnly ((({ t with line := none } : State).freeLists).completeEntry c.link) := fun t h =>
      (h.trans (.update t none _ .none t.drive.due t.freeIndex)).trans (State.completeEntry_lineOnly _ _)
    rw [State.completeLine, hl]
    dsimp only
    split
    · exact closed _ (s.post_lineOnly _ _)
    · exact closed _ (.refl s)

theorem State.finishLine_lineOnly : s.LineOnly s.finishLine := by
  obtain ⟨-, e⟩ | ⟨-, e⟩ := s.finishLine_cases <;> rw [e]
  · exact s.completeLine_lineOnly
  · exact s.setStage_lineOnly _

theorem State.startFeed_lineOnly : s.LineOnly s.startFeed := by
  unfold State.startFeed
  split
  · exact .ite (s.setStageDue_lineOnly _ _) (.ite (s.setStageDue_lineOnly _ _) s.finishLine_lineOnly)
  · exact s.finishLine_lineOnly

theorem State.dropPlan_lineOnly : s.LineOnly s.dropPlan := s.setLists_lineOnly _ _

theorem State.dropPhases_lineOnly : s.LineOnly s.dropPhases :=
  (s.loseAll_lineOnly.trans (State.dropPlan_lineOnly _)).trans (State.startFeed_lineOnly _)

theorem State.startDown_lineOnly : s.LineOnly s.startDown := by
  unfold State.startDown
  split
  · exact .refl s
  · exact .ite s.startFeed_lineOnly (s.setStageDue_lineOnly _ _)

theorem State.startUp_lineOnly : s.LineOnly s.startUp := by
  unfold State.startUp
  split
  · exact .refl s
  · exact .ite s.startDown_lineOnly (s.setStageDue_lineOnly _ _)

theorem State.assignSubstitutes_lineOnly : s.LineOnly s.assignSubstitutes := by
  unfold State.assignSubstitutes
  split
  · exact .refl s
  · exact .ite ((s.loseDots_lineOnly _ _).trans (State.startUp_lineOnly _))
      (((s.loseDots_lineOnly _ _).trans (State.modifyLine_lineOnly _ _)).trans (State.startUp_lineOnly _))

theorem State.afterMain_lineOnly : s.LineOnly s.afterMain := by
  unfold State.afterMain
  split
  · exact .refl s
  · exact .ite s.assignSubstitutes_lineOnly (s.setStage_lineOnly _)

theorem State.beginDwell_lineOnly : s.LineOnly s.beginDwell := .ite (s.setLists_lineOnly s.lists _) (.refl s)

theorem State.afterEven_lineOnly (odd : PassId) {otherwise : State → State} (h : s.LineOnly (otherwise s)) :
    s.LineOnly (s.afterEven odd otherwise) := by
  unfold State.afterEven
  split
  · exact .refl s
  · exact .ite (((s.modifyLine_lineOnly _).trans (State.setStage_lineOnly _ _)).trans (State.beginDwell_lineOnly _)) h

theorem State.afterPass_lineOnly (p : PassId) : s.LineOnly (s.afterPass p) := by
  unfold State.afterPass
  split
  · exact .refl s
  · refine .ite s.dropPhases_lineOnly ?_
    split
    · exact s.afterEven_lineOnly _ s.afterMain_lineOnly
    · exact s.afterMain_lineOnly
    · exact s.assignSubstitutes_lineOnly
    · exact s.afterEven_lineOnly _ s.startDown_lineOnly
    · exact s.startDown_lineOnly
    · exact s.afterEven_lineOnly _ s.startFeed_lineOnly
    · exact s.startFeed_lineOnly

theorem State.putPlan_lineOnly (q : PassPlan) : s.LineOnly (s.putPlan q) := s.setLists_lineOnly _ _

theorem State.useFree_lineOnly : s.LineOnly s.useFree := .update s s.line s.lists s.dwell s.drive.due _

theorem State.planLosses_lineOnly (p : PassId) (d : DotSet) : s.LineOnly (s.planLosses p d) := by
  cases p with
  | main _ | repair => exact .refl s
  | up _ | down _ => exact s.loseDots_lineOnly d true

theorem State.planWith_lineOnly (i : PlanInputs) (c : LineContext) (f : LineFields) (p : PassId) (taken : DotSet) :
    s.LineOnly (s.planWith i c f p taken).1 := by
  unfold State.planWith
  dsimp only
  split
  · exact .refl s
  · split
    · exact (s.loseDots_lineOnly _ _).trans (State.putPlan_lineOnly _ _)
    · exact s.putPlan_lineOnly _

theorem State.planPass_lineOnly (p : PassId) (x : Int) : s.LineOnly (s.planPass p x).1 := by
  have free : s.LineOnly (if s.heat.supply.isNone then s.useFree else s) := .ite s.useFree_lineOnly (.refl s)
  cases line : s.line with
  | none => rw [State.planPass, line]; exact .refl s
  | some c =>
    cases fields : s.lineFields with
    | none => rw [State.planPass, line, fields]; exact .refl s
    | some f =>
      rw [State.planPass_eq line fields]
      exact (free.trans (State.planLosses_lineOnly _ _ _)).trans (State.planWith_lineOnly _ _ _ _ _ _)

theorem State.planNow_lineOnly (p : PassId) : s.LineOnly (s.planNow p) := by
  have plan := s.planPass_lineOnly p s.planPosition
  unfold State.planNow
  split
  · next h => rw [h] at plan; exact plan.trans (State.setStage_lineOnly _ _)
  · next h => rw [h] at plan; exact plan.trans (State.afterPass_lineOnly _ _)

theorem State.countStruck_lineOnly (q : PassPlan) : s.LineOnly (s.countStruck q) := by
  unfold State.countStruck
  split
  · exact .refl s
  · exact .ite ((s.modifyLine_lineOnly _).trans (State.modifyResult_lineOnly _ _ _)) (s.modifyLine_lineOnly _)

theorem State.disposeMisses_lineOnly (q : PassPlan) : s.LineOnly (s.disposeMisses q) := by
  unfold State.disposeMisses
  dsimp only
  split
  · exact .ite ((s.modifyLine_lineOnly _).trans (State.loseDots_lineOnly _ _ _)) (s.modifyLine_lineOnly _)
  · exact (s.loseDots_lineOnly _ _).trans (State.modifyLine_lineOnly _ _)
  · exact s.loseDots_lineOnly _ _
  · exact s.loseDots_lineOnly _ _

theorem State.freeStriking_lineOnly : s.LineOnly s.freeStriking := s.setLists_lineOnly _ s.dwell

theorem State.endPass_lineOnly : s.LineOnly s.endPass := by
  unfold State.endPass
  split
  · exact .refl s
  · exact (((s.countStruck_lineOnly _).trans (State.disposeMisses_lineOnly _ _)).trans
      (State.freeStriking_lineOnly _)).trans (State.afterPass_lineOnly _ _)

theorem State.markImperfect_lineOnly : s.LineOnly s.markImperfect := by
  unfold State.markImperfect
  split
  · exact .refl s
  · exact s.modifyResult_lineOnly _ _

theorem State.abandonPass_lineOnly : s.LineOnly s.abandonPass := by
  unfold State.abandonPass
  split
  · exact .refl s
  · exact (((s.countStruck_lineOnly _).trans (State.freeStriking_lineOnly _)).trans
      (State.markImperfect_lineOnly _)).trans (State.dropPhases_lineOnly _)

end

end Sys2Proof.Machine

namespace Sys2Proof.Machine

/-! ## What an event leaves, whatever it brings with it (R165, R168) -/

/-- `t` differs from `s` at most in what plans, grants, coil tests and motion entries change without paper motion. While
the carriage is not STOPPED no pulse begins. -/
structure State.Settling (s t : State) : Prop where
  frame : t = { s with
    port := t.port, store := t.store, arb := t.arb, line := t.line, lists := t.lists, dwell := t.dwell
    channels := t.channels, health := t.health, test := t.test, heat := { s.heat with acc := t.heat.acc }
    form := { t.form with
      odometer := s.form.odometer, form := s.form.form, forwardMark := s.form.forwardMark }
    map := t.map, drive := { t.drive with state := s.drive.state, move := s.drive.move }, freeIndex := t.freeIndex }
  head : t.arb.head = s.arb.head
  nextSeq : ∀ l, (t.store.get l).nextSeq = (s.store.get l).nextSeq
  ports : s.PortsLater t
  channels : s.car.state ≠ .stopped → t.channels = s.channels

theorem State.Settling.refl (s : State) : s.Settling s := ⟨rfl, rfl, fun _ => rfl, .refl s, fun _ => rfl⟩

theorem State.Settling.car {s t : State} (h : s.Settling t) : t.car = s.car := by rw [h.frame]

theorem State.Settling.sequ {s t : State} (h : s.Settling t) : t.sequ = s.sequ := by rw [h.frame]

theorem State.Settling.trans {s t u : State} (a : s.Settling t) (b : t.Settling u) : s.Settling u where
  frame := by
    have at_t := a.frame
    have at_u := b.frame
    rw [at_t] at at_u
    exact at_u
  head := b.head.trans a.head
  nextSeq l := (b.nextSeq l).trans (a.nextSeq l)
  ports := a.ports.trans b.ports
  channels away := (b.channels (a.car ▸ away)).trans (a.channels away)

theorem State.Settling.ite {s t u : State} {p : Prop} [Decidable p] (a : s.Settling t) (b : s.Settling u) :
    s.Settling (if p then t else u) := by
  split
  · exact a
  · exact b

theorem State.LineOnly.settling {s t : State} (h : s.LineOnly t) : s.Settling t where
  frame := by rw [h.frame]
  head := h.head
  nextSeq := h.nextSeq
  ports := h.ports
  channels _ := by rw [h.frame]

section
variable (s : State)

/-! ### Coil tests (R102 to R107) -/

theorem State.setTest_settling (c : Option TestContext) : s.Settling (s.setTest c) :=
  ⟨rfl, rfl, fun _ => rfl, .of_eq rfl, fun _ => rfl⟩

theorem State.setPinRecord_settling (p : Pin) (r : PinRecord) : s.Settling (s.setPinRecord p r) :=
  ⟨rfl, rfl, fun _ => rfl, .of_eq rfl, fun _ => rfl⟩

theorem State.postBoth_settling (n : Notice) : s.Settling (s.postBoth n) :=
  ⟨rfl, rfl, fun _ => rfl, .postBoth s n, fun _ => rfl⟩

theorem State.post_settling (l : Link) (n : Notice) : s.Settling (s.post l n) := (s.post_lineOnly l n).settling

theorem State.completeEntry_settling (l : Link) : s.Settling (s.completeEntry l) :=
  (s.completeEntry_lineOnly l).settling

theorem State.testAdvance_settling (c : TestContext) : s.Settling (s.testAdvance c) := by
  unfold State.testAdvance
  split
  · exact (s.setTest_settling _).trans (State.completeEntry_settling _ _)
  · exact s.setTest_settling _

theorem State.postPinFailed_settling (p : Pin) (h : Health) (o : CoilOutcome) : s.Settling (s.postPinFailed p h o) := by
  unfold State.postPinFailed
  split
  · exact .ite (.refl s) (s.postBoth_settling _)
  · exact .refl s

theorem State.testResult_settling (c : TestContext) (p : Pin) (o : CoilOutcome) : s.Settling (s.testResult c p o) :=
  (((s.setPinRecord_settling _ _).trans (State.post_settling _ _ _)).trans (State.postPinFailed_settling _ _ _ _)).trans
    (State.testAdvance_settling _ _)

/-- A test pulse begins with the carriage STOPPED alone (R103). -/
theorem State.stopped_of_testBar {s : State} (h : s.testBar = none) : s.car.state = .stopped := by
  unfold State.testBar at h
  by_contra away
  rw [if_pos away] at h
  split at h
  · cases h
  · split at h <;> cases h

theorem State.testPulse_settling {s : State} (h : s.car.state = .stopped) (c : TestContext) (p : Pin) :
    s.Settling (s.testPulse c p) :=
  ⟨rfl, rfl, fun _ => rfl, .of_eq rfl, fun away => absurd h away⟩

theorem State.testGo_settling (fuel : Nat) : s.Settling (s.testGo fuel) := by
  induction fuel generalizing s with
  | zero => exact .refl s
  | succ fuel ih =>
    have free : s.Settling (if s.heat.supply.isNone then s.useFree else s) :=
      .ite s.useFree_lineOnly.settling (.refl s)
    unfold State.testGo
    split
    · exact .refl s
    · split
      · refine .ite ?_ (.refl s)
        dsimp only
        split
        · exact (free.trans (State.testResult_settling _ _ _ _)).trans (ih _)
        · next bar => exact free.trans (State.testPulse_settling (State.stopped_of_testBar bar) _ _)
      · exact .refl s

theorem State.testProceed_settling : s.Settling s.testProceed := s.testGo_settling 19

theorem State.openTest_settling (n : SeqNo) (x : Option Pin) : s.Settling (s.openTest n x) :=
  (s.testAdvance_settling _).trans (State.testProceed_settling _)

theorem State.testCut_settling : s.Settling s.testCut := by
  unfold State.testCut
  split
  · split
    · exact (s.testResult_settling _ _ _).trans (State.testProceed_settling _)
    · exact .refl s
  · exact .refl s

/-! ### Motion entries (R152 to R160) -/

/-- A change of path moves the form position record within the form: neither the odometer nor the form number (R159). -/
theorem State.changePath_settling (p : PaperPath) : s.Settling (s.changePath p) := by
  cases p with
  | tractor => exact ⟨rfl, rfl, fun _ => rfl, .of_eq rfl, fun _ => rfl⟩
  | sheet =>
    have off : ∀ t : State, t.Settling t.edgeOff := fun t => by
      unfold State.edgeOff
      dsimp only
      split <;> exact ⟨rfl, rfl, fun _ => rfl, .of_eq rfl, fun _ => rfl⟩
    have path : s.Settling (s.modifyForm (fun f => { f with path := .sheet })) :=
      ⟨rfl, rfl, fun _ => rfl, .of_eq rfl, fun _ => rfl⟩
    exact path.trans (off _)

/-- An update of the due move and of the motion entry's report. -/
theorem State.setRun_settling (r : Option MotionRun) (d : Option DueMove) :
    s.Settling { s with drive := { s.drive with run := r, due := d } } :=
  ⟨rfl, rfl, fun _ => rfl, .of_eq rfl, fun _ => rfl⟩

theorem State.completeRun_settling (r : MotionRun) (o : MoveOutcome) (x : Option NotMadeReason) :
    s.Settling (s.completeRun r o x) :=
  ((s.post_settling _ _).trans (State.setRun_settling _ none s.drive.due)).trans (State.completeEntry_settling _ _)

theorem State.runMove_settling (r : MotionRun) (k : MoveKind) : s.Settling (s.runMove r k) := s.setRun_settling _ _

theorem State.judgeRun_settling (r : MotionRun) : s.Settling (s.judgeRun r) := by
  have ends := s.completeRun_settling r
  have moves := s.runMove_settling r
  unfold State.judgeRun
  dsimp only
  split
  · exact .ite (ends _ _) (moves _)
  · exact .ite (ends _ _) (moves _)
  · exact .ite (ends _ _) (moves _)
  · exact .ite (ends _ _) (.ite (ends _ _) (moves _))
  · exact .ite (ends _ _) (.ite (ends _ _) (.ite (ends _ _) (.ite (moves _) (moves _))))
  · exact .ite (ends _ _) (.ite (moves _) (moves _))
  · exact .ite (ends _ _) (.ite (moves _) (ends _ _))
  · exact .ite (ends _ _) (.ite (moves _) ((s.changePath_settling _).trans (State.completeRun_settling _ _ _ _)))
  · exact ends _ _

theorem State.startRun_settling (l : Link) (n : SeqNo) (k : MotionKind) : s.Settling (s.startRun l n k) :=
  .ite (s.runMove_settling _ _) (s.judgeRun_settling _)

/-! ### Grants, and the whole event -/

theorem State.openLine_settling (l : Link) (f : LineFields) : s.Settling (s.openLine l f) := by
  have opened : ∀ c : LineContext, ∀ g, s.LineOnly { s.modifyResult l g with line := some c } := fun c g =>
    (s.modifyResult_lineOnly l g).trans (.update _ (some c) s.lists s.dwell s.drive.due s.freeIndex)
  exact .ite ((opened _ _).trans (State.setDue_lineOnly _ _)).settling (opened _ _).settling

/-- An update of the Arbiter that leaves the head settings. -/
theorem State.modifyArb_settling {f : Arbiter → Arbiter} (h : (f s.arb).head = s.arb.head) : s.Settling (s.modifyArb f) :=
  ⟨rfl, h, fun _ => rfl, .of_eq rfl, fun _ => rfl⟩

theorem State.modifyHead_settling (l : Link) (f : Entry → Entry) : s.Settling (s.modifyHead l f) :=
  ⟨rfl, rfl, fun k => s.modifyHead_nextSeq l k f, .of_eq rfl, fun _ => rfl⟩

theorem State.modifyHalt_settling (f : HaltSet → HaltSet) : s.Settling (s.modifyHalt f) :=
  ⟨rfl, rfl, fun _ => rfl, .of_eq rfl, fun _ => rfl⟩

theorem State.grant_settling (l : Link) (e : Entry) : s.Settling (s.grant l e) := by
  have granted := (s.modifyHead_settling l (fun e => { e with state := .granted })).trans
    (State.modifyArb_settling _ (f := fun a => { a with granted := some { link := l, seq := e.seq }, autoTimer := none }) rfl)
  unfold State.grant
  dsimp only
  split
  · refine (granted.trans (u := if l = .job then _ else _) (.ite (State.modifyArb_settling _ rfl) (.refl _))).trans
      (State.openLine_settling _ _ _)
  · exact granted.trans (State.openTest_settling _ _ _)
  · exact (granted.trans (State.modifyHalt_settling _ _)).trans (State.startRun_settling _ _ _ _)
  · exact granted.trans (State.startRun_settling _ _ _ _)

theorem State.judgeHead_settling (l : Link) : s.Settling (s.judgeHead l) := by
  obtain ⟨-, e⟩ | ⟨_, -, -, e⟩ | ⟨_, -, -, e⟩ | ⟨_, -, -, e⟩ := s.judgeHead_cases l <;> rw [e]
  · exact .refl s
  · exact s.grant_settling _ _
  · exact s.modifyHalt_settling _
  · exact s.modifyHalt_settling _

theorem State.judgeTimers_settling : s.Settling s.judgeTimers := by
  rw [State.judgeTimers_frame]
  exact s.modifyArb_settling (f := fun a => { a with
    idleTimer := s.judgeTimers.arb.idleTimer, autoTimer := s.judgeTimers.arb.autoTimer }) rfl

theorem State.settle_settling : s.Settling s.settle := by
  refine State.settle_rel State.Settling State.Settling.refl State.Settling.trans (fun {s t} h => ?_)
    State.judgeTimers_settling s
  obtain ⟨p, -, rfl⟩ | ⟨e, -, -, rfl⟩ | ⟨l, -, -, -, -, rfl⟩ := State.settleOnce_cases h
  · exact (s.planNow_lineOnly p).settling
  · exact s.grant_settling _ _
  · exact s.judgeHead_settling _

end

/-! ## When nothing is left to plan or grant -/

section
variable {s : State}

theorem State.not_isIdle_of_granted (busy : s.arb.granted ≠ none) : s.isIdle = false := by
  cases h : s.isIdle with
  | false => rfl
  | true =>
    obtain ⟨-, free, -⟩ := State.isIdle_spec h
    exact absurd free busy

/-- With an entry granted an event brings at most a plan (R165, R171). -/
theorem State.settleOnce_of_granted (busy : s.arb.granted ≠ none) : s.settleOnce = s.planDue.map s.planNow := by
  have load : s.loadReady = none := by
    cases h : s.loadReady with
    | none => rfl
    | some e =>
      obtain ⟨-, -, -, free, -⟩ := State.loadReady_spec h
      exact absurd free busy
  unfold State.settleOnce
  cases h : s.planDue with
  | some p => rfl
  | none => simp [load, State.not_isIdle_of_granted busy]

/-- With an entry granted and no pass due, an event only judges the timers. -/
theorem State.settle_of_granted (busy : s.arb.granted ≠ none) (none : s.planDue = none) : s.settle = s.judgeTimers := by
  unfold State.settle
  rw [State.settleLoop_stop]
  rw [State.settleOnce_of_granted busy, none]
  rfl

/-- With an entry granted the idle-release timer is not started, and the auto-tear timer is stopped (R168, R170, R175). -/
theorem State.judgeTimers_of_granted (busy : s.arb.granted ≠ none) :
    s.judgeTimers = { s with arb := { s.arb with autoTimer := none } } := by
  have idle : s.judgeIdleTimer = s := if_neg fun ⟨_, _, free, _⟩ => busy free
  have tear : s.tearCondition = false := by simp [State.tearCondition, State.not_isIdle_of_granted busy]
  rw [State.judgeTimers, idle, State.judgeTearTimer, if_neg (by simp [tear])]
  rfl

theorem State.planDue_of_line_none (line : s.line = none) : s.planDue = none := by rw [State.planDue, line]

theorem State.planDue_of_stage {c : LineContext} (line : s.line = some c) (other : ∀ p, c.stage ≠ .planDue p) :
    s.planDue = none := by
  rw [State.planDue, line]
  dsimp only
  split
  · next p h => exact absurd h (other p)
  · rfl

theorem State.planDue_of_open {c : LineContext} {p : PassId} (line : s.line = some c) (stage : c.stage = .planDue p)
    (gates : s.heat.thermal ≠ .limit) (supply : s.heat.lowSupply = false) : s.planDue = some p := by
  rw [State.planDue, line]
  simp [stage, State.gatesOpen, gates, supply]

theorem State.planDue_of_closed (closed : s.heat.thermal = .limit ∨ s.heat.lowSupply = true) : s.planDue = none := by
  have shut : s.gatesOpen = false := by
    obtain h | h := closed <;> simp [State.gatesOpen, h]
  unfold State.planDue
  split
  · split
    · rw [shut]; rfl
    · rfl
  · rfl

end

end Sys2Proof.Machine

namespace Sys2Proof.Machine

/-! ## CLEAR (R59, R75, R150, R160, R171, R172, R173) -/

section
variable {s : State}

theorem State.leaveJam_of_clear (clear : s.arb.halt.jam = false) : s.leaveJam = s := if_neg (by simp [clear])

theorem State.leaveJam_of_jam {u : State} (jam : s.arb.halt.jam = true)
    (hu : u = { s with arb := { s.arb with halt := { s.arb.halt with jam := false } } }) : s.leaveJam = u.clearJam := by
  rw [State.leaveJam, if_pos jam, hu]
  rfl

theorem State.leaveCarriage_of_clear (clear : s.arb.halt.carriage = false) : s.leaveCarriage = s := if_neg (by simp [clear])

theorem State.leaveCarriage_of_unhomed (fault : s.arb.halt.carriage = true) (unhomed : s.car.state = .unhomed) :
    s.leaveCarriage = { s with
      arb := { s.arb with halt := { s.arb.halt with carriage := false } }
      car := { s.car with state := .homing .rest, motion := none, suspended := false, indexArmed := false } } := by
  rw [State.leaveCarriage, if_pos fault]
  exact if_pos unhomed

theorem State.takeUpLine_of_not_held (h : ∀ c, s.line = some c → c.stage ≠ .held) : s.takeUpLine = s := by
  obtain ⟨e, -⟩ | ⟨c, line, -, held, -⟩ := s.takeUpLine_cases
  · exact e
  · exact absurd held (h c line)

/-- The motion entry whose move jammed completes SHORT (R150, R160). -/
theorem State.clearJam_of_run {r : MotionRun} (run : s.drive.run = some r) (jammed : r.jammed = true) :
    s.clearJam = (({ s with drive := { s.drive with run := none } } : State).post r.link (.moveDone r.link r.seq r.kind .short
      none (if r.kind.noDistance then none else some r.distance) r.moved r.back r.stalls s.form.form s.form.offset
      s.form.paper s.form.tear s.form.path s.form.trusted)).completeEntry r.link := by
  rw [State.clearJam, run]
  exact if_pos jammed

/-- The line whose move jammed completes (R59). -/
theorem State.clearJam_of_line {c : LineContext} (run : s.drive.run = none) (line : s.line = some c)
    (jammed : c.stage = .jammed) : s.clearJam = s.completeLine := by
  rw [State.clearJam, run, line]
  exact if_pos jammed

theorem State.clearJam_of_none (run : s.drive.run = none) (line : s.line = none) : s.clearJam = s := by
  rw [State.clearJam, run, line]

/-- The completion of a line: LINE DONE with its result, and the lists FREE (R40, R60). -/
theorem State.completeLine_of_head {c : LineContext} {e : Entry} (line : s.line = some c) (head : s.headEntry c.link = some e) :
    s.completeLine = (({ s with line := none, lists := #v[.free, .free], dwell := .none } : State).post c.link
      (.lineDone c.link e.seq e.result)).completeEntry c.link := by
  rw [State.completeLine, line]
  dsimp only
  rw [head]
  rfl

theorem State.completeLine_line : s.completeLine.line = none := by
  cases line : s.line with
  | none => rw [State.completeLine, line]; exact line
  | some c =>
    obtain ⟨p, e⟩ := State.completeLine_eq line
    rw [e, State.completeEntry_frame]
    rfl

end

section
variable {l : Link} {bytes : List Byte} {s : State} {f : Frame}

/-- CLEAR from Console is answered with the set left (R172). -/
theorem execClear_console (frame : s.frameOf .console bytes = some f) (kind : f.kind = .clear) {x : State}
    (hx : (s.heard .console bytes).leaveJam.leaveCarriage.takeUpLine = x)
    (halt : x.arb.halt = ⟨false, s.arb.halt.paperOut, s.arb.halt.noPaper, false⟩) :
    exec (.clear .console bytes) s = .next ((x.answered .console ⟨0x8D, f.tag, .ok,
      u8 (flagSet [false, s.arb.halt.paperOut, s.arb.halt.noPaper, false])⟩).settle) := by
  have answer : f.answer .ok x.arb.halt.bytes = ⟨0x8D, f.tag, .ok,
      u8 (flagSet [false, s.arb.halt.paperOut, s.arb.halt.noPaper, false])⟩ := by
    rw [Frame.answer, kind, halt]
    rfl
  have taken : (s.heard .console bytes).takeClear .console f = (x.respond .console f .ok x.arb.halt.bytes).settle := by
    rw [← hx]
    rfl
  show Host.Outcome.next (s.request .clear .console bytes State.takeClear) = _
  rw [State.request_of_frameOf _ frame kind, taken, State.respond, answer]
  rfl

end

/-- Settles O25: step by step, JAM with the entry that it held up, CARRIAGE with the homing, and the line that was held. -/
theorem clearLeavesTheHalts : Obligations.ClearLeavesTheHalts := by
  unfold Obligations.ClearLeavesTheHalts
  intro l bytes s f home ok frame kind hhome hok
  refine ⟨?job, ?console, ?held⟩
  case job =>
    rintro rfl
    have answer : f.answer .notAllowed [] = ⟨0x8D, f.tag, .notAllowed, []⟩ := by rw [Frame.answer, kind]; rfl
    show Host.Outcome.next (s.request .clear .job bytes State.takeClear) = _
    rw [State.request_of_frameOf _ frame kind, State.takeClear, if_pos rfl, State.respond, answer]
    rfl
  case console =>
    rintro rfl live
    have free : ∀ x : State, x.line = s.line ∨ x.line = none → x.takeUpLine = x := fun x line =>
      State.takeUpLine_of_not_held fun c hc => by
        obtain line | line := line
        · exact live c (line ▸ hc)
        · rw [line] at hc; cases hc
    refine ⟨fun jam fault => ?_, fun jam fault unhomed => ?_, fun u v w jam hu clear homed => ?_⟩
    · have left : (s.heard .console bytes).leaveJam = s.heard .console bytes := State.leaveJam_of_clear jam
      have left' : (s.heard .console bytes).leaveCarriage = s.heard .console bytes := State.leaveCarriage_of_clear fault
      rw [hok]
      refine execClear_console frame kind (by rw [left, left', free (s.heard .console bytes) (.inl rfl)]) ?_
      show s.arb.halt = _
      exact congrArg₂ (HaltSet.mk · s.arb.halt.paperOut s.arb.halt.noPaper ·) jam fault
    · have left : (s.heard .console bytes).leaveJam = s.heard .console bytes := State.leaveJam_of_clear jam
      have left' : (s.heard .console bytes).leaveCarriage = home (s.heard .console bytes) := by
        rw [hhome]
        exact State.leaveCarriage_of_unhomed fault unhomed
      rw [hok]
      refine execClear_console frame kind (by rw [left, left', free _ (.inl (by rw [hhome]; rfl))]) ?_
      rw [hhome]
      exact congrArg (HaltSet.mk · s.arb.halt.paperOut s.arb.halt.noPaper false) jam
    · have jammed : (s.heard .console bytes).leaveJam = u.clearJam := State.leaveJam_of_jam jam hu
      have step : u.clearJam = v → v.arb.halt = u.arb.halt → v.car = u.car → v.line = s.line ∨ v.line = none →
          exec (.clear .console bytes) s = ok w := by
        intro left halt car line
        rw [hok]
        cases fault : s.arb.halt.carriage with
        | false =>
          obtain rfl := clear fault
          have stays : w.leaveCarriage = w := State.leaveCarriage_of_clear (by rw [halt, hu]; exact fault)
          refine execClear_console frame kind (by rw [jammed, left, stays, free _ line]) ?_
          rw [halt, hu]
          exact congrArg (HaltSet.mk false s.arb.halt.paperOut s.arb.halt.noPaper ·) fault
        | true =>
          obtain ⟨unhomed, rfl⟩ := homed fault
          have goes : v.leaveCarriage = home v := by
            rw [hhome]
            exact State.leaveCarriage_of_unhomed (by rw [halt, hu]; exact fault) (by rw [car, hu]; exact unhomed)
          refine execClear_console frame kind (by rw [jammed, left, goes, free _ (by rw [hhome]; exact line)]) ?_
          rw [hhome]
          dsimp only
          rw [halt, hu]
      refine ⟨fun r run stop hv => ?_, fun c e run line stop head hv => ?_, fun run line hv => ?_⟩
      · have left : u.clearJam = v := by
          rw [State.clearJam_of_run (r := r) (by rw [hu]; exact run) stop, hv, hu]
          rfl
        refine step left ?_ ?_ (.inl ?_)
        · rw [hv, State.completeEntry_halt]; rfl
        · rw [hv, State.completeEntry_frame]; rfl
        · rw [hv, State.completeEntry_frame, hu]; rfl
      · have left : u.clearJam = v := by
          rw [State.clearJam_of_line (c := c) (by rw [hu]; exact run) (by rw [hu]; exact line) stop,
            State.completeLine_of_head (e := e) (by rw [hu]; exact line) (by rw [hu]; exact head), hv]
        refine step left ?_ ?_ (.inr ?_)
        · rw [hv, State.completeEntry_halt]; rfl
        · rw [hv, State.completeEntry_frame]; rfl
        · rw [hv, State.completeEntry_frame]; rfl
      · obtain rfl := hv
        exact step (State.clearJam_of_none (by rw [hu]; exact run) (by rw [hu]; exact line)) rfl rfl (.inl (by rw [hu]; rfl))
  case held =>
    rintro c rfl line held halt unhomed
    have jam : (s.heard .console bytes).leaveJam = s.heard .console bytes :=
      State.leaveJam_of_clear (by show s.arb.halt.jam = false; rw [halt])
    have fault : (s.heard .console bytes).leaveCarriage = home (s.heard .console bytes) := by
      rw [hhome]
      exact State.leaveCarriage_of_unhomed (by show s.arb.halt.carriage = true; rw [halt]) unhomed
    have empty : (home (s.heard .console bytes)).arb.halt = ⟨false, false, false, false⟩ := by
      rw [hhome]
      show { s.arb.halt with carriage := false } = _
      rw [halt]
    have lineH : (home (s.heard .console bytes)).line = some c := by rw [hhome]; exact line
    have up : (home (s.heard .console bytes)).takeUpLine = (home (s.heard .console bytes)).completeLine := by
      rw [State.takeUpLine, lineH]
      exact if_pos ⟨(HaltSet.isEmpty_iff _).mpr empty, held⟩
    rw [hok]
    refine execClear_console frame kind (by rw [jam, fault, up]) ?_
    rw [(State.completeLine_lineOnly _).halt, empty, halt]

end Sys2Proof.Machine

namespace Sys2Proof.Machine

/-! ## The two strike lists (R52) -/

section
variable {s : State}

/-- A list is READY. -/
def StrikeList.isReady : StrikeList → Bool
  | .ready _ => true
  | _ => false

theorem StrikeList.isReady_iff (x : StrikeList) : x.isReady = true ↔ ∃ q, x = .ready q := by
  cases x <;> simp [StrikeList.isReady]

theorem StrikeList.isStriking_iff (x : StrikeList) : x.isStriking = true ↔ ∃ q, x = .striking q := by
  cases x <;> simp [StrikeList.isStriking]

theorem StrikeList.isFree_iff (x : StrikeList) : x.isFree = true ↔ x = .free := by
  cases x <;> simp [StrikeList.isFree]

/-- The list found is the first that meets the condition. -/
theorem State.findList_eq {p : StrikeList → Bool} {i : Fin 2} (found : p s.lists[i.val] = true)
    (first : i = 1 → p s.lists[0] = false) : s.findList p = some i := by
  match i with
  | 0 => exact if_pos found
  | 1 =>
    have zero : ¬ p s.lists[0] = true := by simp [first rfl]
    have one : p s.lists[1] = true := found
    rw [State.findList, if_neg zero, if_pos one]

theorem State.findList_isSome {p : StrikeList → Bool} : (s.findList p).isSome = true ↔ ∃ i : Fin 2, p s.lists[i.val] = true := by
  rw [Fin.exists_fin_two]
  unfold State.findList
  split
  · next h => exact ⟨fun _ => .inl h, fun _ => rfl⟩
  · next h =>
    split
    · next h' => exact ⟨fun _ => .inr h', fun _ => rfl⟩
    · next h' => simpa [h] using h'

theorem State.findList_eq_none {p : StrikeList → Bool} (none : ∀ i : Fin 2, p s.lists[i.val] = false) :
    s.findList p = .none := by
  rw [← Option.not_isSome_iff_eq_none, State.findList_isSome]
  exact fun ⟨i, h⟩ => by rw [none i] at h; cases h

/-- The only list that meets the condition is the one found. -/
theorem State.findList_only {p : StrikeList → Bool} {i : Fin 2} (found : p s.lists[i.val] = true)
    (others : ∀ j : Fin 2, j ≠ i → p s.lists[j.val] = false) : s.findList p = some i :=
  State.findList_eq found fun one => others 0 (by rw [one]; decide)

theorem getElem_setList_other (v : Vector StrikeList 2) {i j : Fin 2} (x : StrikeList) (h : j ≠ i) :
    (v.set i.val x)[j.val] = v[j.val] :=
  Vector.getElem_set_ne i.isLt j.isLt fun same => h (Fin.ext same.symm)

/-- A map that changes one list alone sets that list. -/
theorem mapLists_eq_set {f : StrikeList → StrikeList} {v : Vector StrikeList 2} {i : Fin 2} {y : StrikeList}
    (at_i : f v[i.val] = y) (others : ∀ j : Fin 2, j ≠ i → f v[j.val] = v[j.val]) : v.map f = v.set i.val y := by
  ext j hj
  rw [Vector.getElem_map, Vector.getElem_set]
  split
  · next h => subst h; exact at_i
  · next h => exact others ⟨j, hj⟩ fun same => h (congrArg Fin.val same).symm

/-! ## The dwell, and the completion of a plan (R42, R52, R120) -/

theorem State.beginDwell_eq : s.beginDwell =
    if s.dwell = .waiting ∧ (s.findList StrikeList.isReady).isSome ∧ (s.findList (·.isStriking)).isNone then
      { s with dwell := .running 500000 }
    else s := rfl

theorem State.beginDwell_begins (waiting : s.dwell = .waiting) {i : Fin 2} {q : PassPlan} (ready : s.lists[i.val] = .ready q)
    (calm : ∀ (j : Fin 2) x, s.lists[j.val] ≠ .striking x) : s.beginDwell = { s with dwell := .running 500000 } := by
  have none : s.findList (·.isStriking) = .none := State.findList_eq_none fun j => by
    rw [Bool.eq_false_iff, Ne, StrikeList.isStriking_iff]
    exact fun ⟨x, h⟩ => calm j x h
  refine if_pos ⟨waiting, State.findList_isSome.mpr ⟨i, ?_⟩, by rw [none]; rfl⟩
  rw [ready]

theorem State.beginDwell_stays (h : s.dwell ≠ .waiting ∨ (∃ (j : Fin 2) (x : PassPlan), s.lists[j.val] = .striking x) ∨
    ∀ (j : Fin 2) (x : PassPlan), s.lists[j.val] ≠ .ready x) : s.beginDwell = s := by
  refine if_neg fun ⟨waiting, ready, calm⟩ => ?_
  obtain h | ⟨j, x, h⟩ | h := h
  · exact h waiting
  · have some : (s.findList (·.isStriking)).isSome = true := State.findList_isSome.mpr ⟨j, by rw [h]; rfl⟩
    rw [Option.isNone_iff_eq_none] at calm
    rw [calm] at some
    cases some
  · obtain ⟨j, hj⟩ := State.findList_isSome.mp ready
    obtain ⟨x, hx⟩ := (StrikeList.isReady_iff _).mp hj
    exact h j x hx

/-- The lists after PLAN_COMPLETE (R52). -/
theorem completeLists_eq {v : Vector StrikeList 2} {i : Fin 2} {q : PassPlan} (building : v[i.val] = .building q)
    (others : ∀ j : Fin 2, j ≠ i → ∀ x, v[j.val] ≠ .building x) : v.map StrikeList.complete = v.set i.val (.ready q) := by
  refine mapLists_eq_set (by rw [building]; rfl) fun j hj => ?_
  cases h : v[j.val] with
  | building x => exact absurd h (others j hj x)
  | free | ready _ | striking _ => rfl

/-! ## The plan of a pass (R42 to R46, R52, R53) -/

theorem State.loseDots_lists (d : DotSet) (degraded : Bool) : (s.loseDots d degraded).lists = s.lists := by
  unfold State.loseDots
  split <;> rfl

/-- A plan takes the first FREE list (R52, R120). -/
theorem State.putPlan_eq {i : Fin 2} (free : s.lists[i.val] = .free) (first : i = 1 → s.lists[0] ≠ .free) (q : PassPlan) :
    s.putPlan q = { s with
      lists := s.lists.set i.val (.building q), dwell := if q.hot then .waiting else .none } := by
  have found : s.findList (·.isFree) = some i := State.findList_eq ((StrikeList.isFree_iff _).mpr free) fun one => by
    rw [Bool.eq_false_iff, Ne, StrikeList.isFree_iff]
    exact first one
  rw [State.putPlan, found]
  rfl

section
variable {i : PlanInputs} {c : LineContext} {f : LineFields} {p : PassId} {taken : DotSet}

theorem State.planWith_of_none (none : protosOf f p taken = []) : s.planWith i c f p taken = (s, .none) := by
  rw [State.planWith, none]
  rfl

/-- A pass of at most 5 120 entries, or of a half, is planned as it is (R46). -/
theorem State.planWith_of_fit (some : protosOf f p taken ≠ []) (other : p ≠ .repair)
    (fit : p.half ≠ .whole ∨ (protosOf f p taken).length ≤ 5120) :
    s.planWith i c f p taken = (s.putPlan (makePlan i f p none (protosOf f p taken)), .some p) := by
  have keep : ¬ (p.half = .whole ∧ listCapacity < (protosOf f p taken).length) := fun ⟨whole, more⟩ => by
    obtain half | few := fit
    · exact half whole
    · exact absurd more (Nat.not_lt.mpr few)
  unfold State.planWith
  dsimp only
  rw [if_neg (by simpa using some), if_neg other, if_neg keep, if_pos rfl]

/-- A whole pass of more entries becomes its even half (R46). -/
theorem State.planWith_of_split (other : p ≠ .repair) (whole : p.half = .whole)
    (more : 5120 < (protosOf f p taken).length) :
    s.planWith i c f p taken = (s.putPlan (makePlan i f (p.withHalf .even) none
      (protosOf f (p.withHalf .even) (dotsOfHalf .even taken))), .some (p.withHalf .even)) := by
  have some : ¬ (protosOf f p taken).isEmpty = true := by
    rw [List.isEmpty_iff_length_eq_zero]
    omega
  have half : ¬ (p.withHalf .even).half = p.half := by
    rw [whole]
    cases p with
    | repair => exact absurd rfl other
    | main _ | up _ | down _ => simp [PassId.withHalf, PassId.half]
  unfold State.planWith
  dsimp only
  rw [if_neg some, if_neg other, if_pos ⟨whole, more⟩, if_neg half]

/-- A repair pass takes its first 5 120 entries, and the dots of the others are lost (R53). -/
theorem State.planWith_repair (some : protosOf f .repair taken ≠ []) {d : Dir} (dir : c.lastMainDir = .some d)
    {sorted : List Proto} (hs : sorted = sortProtos d (protosOf f .repair taken)) :
    s.planWith i c f .repair taken = ((s.loseDots (protoDots .repair (sorted.drop 5120)) false).putPlan
      (makePlan i f .repair (.some d) (protosOf f .repair (protoDots .repair (sorted.take 5120)))), .some .repair) := by
  unfold State.planWith
  dsimp only
  rw [if_neg (by simpa using some), if_pos rfl, dir, hs]
  rfl

end

/-! ## The dots of a half and of entries (R46, R51) -/

theorem dotsAt_filter (keep : Nat → Bool) (d : DotSet) (k : Nat) :
    dotsAt (d.filter (fun x => keep x.1)) k = if keep k = true then dotsAt d k else 0 := by
  induction d with
  | nil => simp
  | cons x d ih =>
    obtain ⟨c, m⟩ := x
    rw [List.filter_cons]
    by_cases same : k = c
    · subst same
      cases hk : keep k with
      | false => rw [if_neg (by simp), ih, hk]; rfl
      | true => rw [if_pos rfl, dotsAt_cons, dotsAt_cons, if_pos rfl, if_pos rfl, if_pos rfl]
    · split
      · rw [dotsAt_cons, if_neg same, ih, dotsAt_cons, if_neg same]
      · rw [ih, dotsAt_cons, if_neg same]

theorem dotsAt_dotsOfHalf (h : Half) (d : DotSet) (k : Nat) : dotsAt (dotsOfHalf h d) k =
    if h = .whole ∨ (h = .even ∧ k % 2 = 0) ∨ (h = .odd ∧ k % 2 = 1) then dotsAt d k else 0 := by
  cases h with
  | whole => simp [dotsOfHalf]
  | even => rw [dotsOfHalf, dotsAt_filter (fun c => decide (c % 2 = 0))]; simp
  | odd => rw [dotsOfHalf, dotsAt_filter (fun c => decide (c % 2 = 1))]; simp

/-- The dots that one more column at a time gathers: each item adds the rows `rows x` to the column `column x`. -/
theorem dotsAt_foldr_insert {α : Type} (column : α → Nat) (rows : α → Rows) (xs : List α) {d : DotSet} (h : ascending d) :
    ascending (xs.foldr (fun x d => dotsInsert (column x) (rows x) d) d) ∧
    ∀ (k : Nat) (r : Pin), (dotsAt (xs.foldr (fun x d => dotsInsert (column x) (rows x) d) d) k).getLsbD r.val = true ↔
      (dotsAt d k).getLsbD r.val = true ∨ ∃ x ∈ xs, column x = k ∧ (rows x).getLsbD r.val = true := by
  induction xs with
  | nil => exact ⟨h, fun k r => by simp⟩
  | cons x xs ih =>
    obtain ⟨order, dots⟩ := ih
    obtain ⟨order', dots'⟩ := dotsInsert_spec (column x) (rows x) order
    refine ⟨order', fun k r => ?_⟩
    rw [List.foldr_cons, dots', BitVec.getLsbD_or, Bool.or_eq_true, dots, List.exists_mem_cons_iff]
    by_cases same : k = column x
    · rw [if_pos same, or_assoc, eq_comm (a := column x), and_iff_right same]
      exact or_congr_right or_comm
    · rw [if_neg same, eq_comm (a := column x)]
      simp [same]

theorem ascending_nil : ascending [] := List.Pairwise.nil

theorem dotsAt_protoDots (p : PassId) (ps : List Proto) (k : Nat) (r : Pin) :
    (dotsAt (protoDots p ps) k).getLsbD r.val = true ↔
      ∃ x ∈ ps, x.column = k ∧ ∃ i : Pin, x.pins.getLsbD i.val = true ∧ (r.val : Int) = i.val + p.rowShift := by
  obtain ⟨-, dots⟩ := dotsAt_foldr_insert (·.column) (fun x : Proto => p.rowsOfPins x.pins) ps ascending_nil
  have empty : ¬ (dotsAt [] k).getLsbD r.val = true := by simp
  rw [protoDots, dots, or_iff_right empty]
  simp only [PassId.getLsbD_rowsOfPins]

/-! ## What a plan reads (R40, R43, R95) -/

theorem State.isFailed_iff (p : Pin) : s.isFailed p = true ↔ (s.pinRecord p).health = .failed := by
  rw [State.isFailed, decide_eq_true_eq]

theorem State.lineFields_iff (f : LineFields) :
    s.lineFields = some f ↔ ∃ c e, s.line = some c ∧ s.headEntry c.link = some e ∧ e.record = .line f := by
  unfold State.lineFields
  cases line : s.line with
  | none => simp
  | some c =>
    dsimp only
    cases head : s.headEntry c.link with
    | none => simp [head]
    | some e =>
      dsimp only
      cases record : e.record with
      | line g => simp [head, record]
      | motion k => simp [head, record]

end

/-- Settles O35: the lists by `completeLists_eq`, each plan by `planPass_eq` and the cases of `planWith`, the sets of dots
column by column. -/
theorem planCompletesAndDwells : Obligations.PlanCompletesAndDwells := by
  unfold Obligations.PlanCompletesAndDwells
  refine ⟨fun s i q building others => ?complete, fun s n running => ?dwell, fun s t p q pos => ?now,
    fun s c f pos x i inputs put line fields supply free first hinputs hput => ?plan,
    fun s p => ⟨s.isFailed_iff p, s.failedPins_getLsbD p, rfl⟩, dotsAt_dotsOfHalf,
    fun p ps k r => by cases p <;> exact dotsAt_protoDots _ ps k r, fun d ps => ⟨sortProtos_perm d ps, ?sorted⟩,
    fun s => ⟨fun stopped => if_pos stopped, fun away => if_neg away, s.lineFields_iff, fun waiting ⟨i, q, ready⟩ calm =>
      State.beginDwell_begins waiting ready calm, State.beginDwell_stays⟩⟩
  case complete =>
    have lists := completeLists_eq building others
    have done : exec .planComplete s = .next ({ s with lists := s.lists.set i.val (.ready q) } : State).beginDwell := by
      rw [← lists]; rfl
    rw [done]
    obtain ⟨t, ht⟩ : ∃ t : State, t = { s with lists := s.lists.set i.val (.ready q) } := ⟨_, rfl⟩
    rw [← ht]
    have same : t.lists[i.val] = .ready q := by simp [ht]
    have other : ∀ j : Fin 2, j ≠ i → t.lists[j.val] = s.lists[j.val] := fun j hj => by
      rw [ht]
      exact getElem_setList_other _ _ hj
    have dwell : t.dwell = s.dwell := by rw [ht]
    refine ⟨fun still => ?_, fun waiting calm => ?_, fun j x waiting striking => ?_⟩
    · rw [State.beginDwell_stays (.inl (by rw [dwell]; exact still)), ht]
    · rw [State.beginDwell_begins (by rw [dwell]; exact waiting) same fun j x => ?_, ht]
      by_cases hj : j = i
      · rw [hj, same]; nofun
      · rw [other j hj]; exact calm j x
    · have hj : j ≠ i := fun hj => by rw [hj, building] at striking; cases striking
      rw [State.beginDwell_stays (.inr (.inl ⟨j, x, by rw [other j hj]; exact striking⟩)), ht]
  case dwell =>
    show Host.Outcome.next ({ s with dwell := s.dwell.expire } : State) = _
    rw [running]
    rfl
  case now =>
    refine ⟨⟨fun h => ?_, fun h => ?_⟩, fun h => ?_, fun h => ?_⟩
    · rw [State.planNow, h]
    · rw [State.planNow, h]
    · rw [State.planOdd, h]
    · rw [State.planOdd, h]
  case plan =>
    have read : ∀ p, s.planPass p pos =
        (s.planLosses p (dotsInRows (p.blockedRows s.failedPins) (c.dotsFor p))).planWith inputs c f p (s.dotsTaken c p) :=
      fun p => by
        have inputs' : s.planInputs pos = inputs := by rw [hinputs, State.planInputs, supply]; rfl
        rw [State.planPass_eq line fields, if_neg (by simp [supply]), inputs']
    have puts : ∀ (w : State) p d ps, w.lists = s.lists →
        w.putPlan (makePlan inputs f p d ps) = put w (makePlan inputs f p d ps) := fun w p d ps lists => by
      rw [State.putPlan_eq (by rw [lists]; exact free) (by simpa only [lists] using first), hput]
      have hot : (makePlan inputs f p d ps).hot = decide (s.heat.thermal = .hot) := by rw [hinputs]; rfl
      rw [hot]
      simp only [decide_eq_true_eq]
    refine ⟨fun h ps hps => ?mainPass, fun h p rows dots ps w group hw hps => ?groupPass, fun ps sorted d hps dir hs => ?repairPass⟩
    case mainPass =>
      have hps' : ps = protosOf f (.main h) (s.dotsTaken c (.main h)) := hps
      have losses : ∀ d, s.planLosses (.main h) d = s := fun _ => rfl
      have other : PassId.main h ≠ .repair := nofun
      rw [read, losses]
      refine ⟨fun none => ?_, fun some fit => ?_, fun whole more => ?_⟩
      · exact State.planWith_of_none (hps' ▸ none)
      · rw [State.planWith_of_fit (hps' ▸ some) other (hps' ▸ fit), puts _ _ _ _ rfl, ← hps']
      · rw [State.planWith_of_split other whole (hps' ▸ more), puts _ _ _ _ rfl, whole]
        rfl
    case groupPass =>
      obtain ⟨other, half, losses, blocked, taken⟩ : p ≠ .repair ∧ p.half = h ∧ (∀ d, s.planLosses p d = s.loseDots d true) ∧
          p.blockedRows s.failedPins = rows ∧ c.dotsFor p = dots := by
        obtain ⟨rfl, rfl, rfl⟩ | ⟨rfl, rfl, rfl⟩ := group <;> exact ⟨nofun, rfl, fun _ => rfl, rfl, rfl⟩
      have lists : w.lists = s.lists := by rw [hw, s.loseDots_lists]
      have hps' : ps = protosOf f p (s.dotsTaken c p) := by rw [State.dotsTaken, blocked, taken]; exact hps
      rw [read, losses, blocked, taken, ← hw]
      refine ⟨fun none => ?_, fun some fit => ?_, fun q whole more split => ?_⟩
      · exact State.planWith_of_none (hps' ▸ none)
      · rw [State.planWith_of_fit (hps' ▸ some) other (half ▸ hps' ▸ fit), puts _ _ _ _ lists, ← hps']
      · have even : p.withHalf .even = q := by obtain ⟨rfl, rfl⟩ | ⟨rfl, rfl⟩ := split <;> rfl
        rw [State.planWith_of_split other (half.trans whole) (hps' ▸ more), puts _ _ _ _ lists, even, State.dotsTaken,
          blocked, taken]
    case repairPass =>
      have hps' : ps = protosOf f .repair (s.dotsTaken c .repair) := hps
      have losses : ∀ d, s.planLosses .repair d = s := fun _ => rfl
      rw [read, losses]
      refine ⟨fun none => ?_, fun some => ?_⟩
      · exact State.planWith_of_none (hps' ▸ none)
      · rw [State.planWith_repair (hps' ▸ some) dir (sorted := sorted) (by rw [hs, hps']), puts _ _ _ _ (s.loseDots_lists _ _)]
  case sorted =>
    refine (sortProtos_sorted d ps).imp fun {a b} h => ?_
    have := place_le_iff.mp h
    cases d <;> simpa [Dir.delta] using this

end Sys2Proof.Machine

namespace Sys2Proof.Machine

/-! ## CARRIAGE_START (R42, R46, R47, R50, R52, R53, R67, R68, R81) -/

/-- The pass's planned positioning move has run no count yet (R67, log entry 39). -/
theorem positioningState_start (c : SpeedClass) (dist : Nat) (move : dist ≠ 0) :
    positioningState c.ramp dist 0 .rampUp = if dist = 1 then .rampDown else .rampUp := by
  have ramp : 1 < c.ramp := by cases c <;> decide
  unfold positioningState accelCounts decelCounts
  by_cases one : dist = 1
  · subst one
    rw [if_pos rfl, if_pos (by norm_cast; omega)]
  · rw [if_neg one, if_neg (by norm_cast; omega), if_neg (by norm_cast; omega)]

section
variable {s : State}

theorem State.gatesOpen_iff : s.gatesOpen = true ↔ s.heat.thermal ≠ .limit ∧ s.heat.lowSupply = false := by
  simp [State.gatesOpen]

/-- The STRIKING list is the only one that is. -/
def State.StrikesOnly (s : State) (i : Fin 2) (q : PassPlan) : Prop :=
  s.lists[i.val] = .striking q ∧ ∀ j : Fin 2, j ≠ i → s.lists[j.val].isStriking = false

theorem State.StrikesOnly.findList {i : Fin 2} {q : PassPlan} (h : s.StrikesOnly i q) :
    s.findList (·.isStriking) = some i := by
  obtain ⟨striking, others⟩ := h
  exact State.findList_only (by rw [striking]; rfl) others

theorem State.StrikesOnly.strikingPlan {i : Fin 2} {q : PassPlan} (h : s.StrikesOnly i q) : s.strikingPlan = some q := by
  obtain ⟨striking, -⟩ := id h
  rw [State.strikingPlan, h.findList]
  dsimp only
  rw [striking]

/-- The Sequencer takes the list that is STRIKING (R81). -/
theorem State.StrikesOnly.walkStart {i : Fin 2} {q : PassPlan} (h : s.StrikesOnly i q) :
    s.walkStart = { s with sequ := ⟨true, i, q.dir, q.fraction, q.driveTime, 0, .idle, .idle, [], false⟩ } := by
  obtain ⟨striking, -⟩ := id h
  rw [State.walkStart, h.findList]
  dsimp only
  rw [striking]

/-- The five conditions of a carriage start (R42). -/
theorem State.startReady_eq {c : LineContext} {i : Fin 2} {p : PassId} {q : PassPlan} (line : s.line = some c)
    (stage : c.stage = .planned p) (ready : s.lists[i.val] = .ready q)
    (others : ∀ j : Fin 2, j ≠ i → ∀ x, s.lists[j.val] ≠ .ready x ∧ s.lists[j.val] ≠ .striking x)
    (dwell : s.dwell = .none ∨ s.dwell = .over) (drive : s.drive.state = .stopped) (car : s.car.state = .stopped) :
    s.startReady = some (p, i, q) := by
  have found : s.findList StrikeList.isReady = some i := State.findList_only (by rw [ready]; rfl) fun j hj => by
    rw [Bool.eq_false_iff, Ne, StrikeList.isReady_iff]
    exact fun ⟨x, h⟩ => (others j hj x).1 h
  have plan : s.readyPlan = some (i, q) := by
    have list : s.readyPlan = match s.findList StrikeList.isReady with
        | none => none
        | some i => match s.lists[i.val] with
          | .ready q => some (i, q)
          | _ => none := rfl
    rw [list, found]
    dsimp only
    rw [ready]
  have calm : s.findList (·.isStriking) = none := State.findList_eq_none fun j => by
    rw [Bool.eq_false_iff, Ne, StrikeList.isStriking_iff]
    rintro ⟨x, h⟩
    by_cases hj : j = i
    · rw [hj, ready] at h; cases h
    · exact (others j hj x).2 h
  rw [State.startReady, line, plan]
  dsimp only
  rw [stage]
  exact if_pos ⟨dwell, by rw [Drive.isStopped, drive]; rfl, car, by rw [calm]; rfl⟩

/-- The pass begins at its start point (R68, R81); a repair pass sets REPAIRED (R53). -/
theorem State.startPass_eq {c : LineContext} {i : Fin 2} {q : PassPlan} {m : CarMotion} {v : State} (only : s.StrikesOnly i q)
    (line : s.line = some c) (motion : s.car.motion = some m)
    (hv : v = { s with
      car := { s.car with state := .rampUp, suspended := false, motion := some { m with leg := .pass } }
      sequ := ⟨true, i, q.dir, q.fraction, q.driveTime, 0, .idle, .idle, [], false⟩ }) :
    s.startPass = if q.pass = .repair then v.modifyResult c.link (fun r => { r with repaired := true }) else v := by
  obtain ⟨w, hw⟩ : ∃ w : State, w = s.modifyCar (fun c =>
      { c with state := .rampUp, suspended := false, motion := c.motion.map (fun m => { m with leg := .pass }) }) := ⟨_, rfl⟩
  have onlyW : w.StrikesOnly i q := by rw [hw]; exact only
  have walk : w.walkStart = v := by
    rw [onlyW.walkStart, hw, hv]
    dsimp only [State.modifyCar]
    rw [motion]
    rfl
  have plan : v.strikingPlan = some q := by
    have onlyV : v.StrikesOnly i q := by rw [hv]; exact only
    exact onlyV.strikingPlan
  have lineV : v.line = some c := by rw [hv]; exact line
  rw [State.startPass, ← hw, walk, lineV, plan]

/-- A change of the result of a link's head entry (R21). -/
theorem State.modifyResult_eq {l : Link} {e : Entry} {es : List Entry} (queue : (s.store.get l).queue = e :: es)
    (f : LineResult → LineResult) : s.modifyResult l f = { s with
      store := s.store.set l { s.store.get l with queue := { e with result := f e.result } :: es } } := by
  dsimp only [State.modifyResult, State.modifyHead, State.modifyStore]
  rw [queue]

theorem State.discardPlan_eq {c : LineContext} (line : s.line = some c) (p : PassId) : s.discardPlan p = { s with
    lists := s.lists.map (fun x => if x.isWaiting then .free else x)
    dwell := .none
    line := some { c with stage := .planDue p.again } } := by
  rw [State.discardPlan, State.setStage, State.modifyLine]
  dsimp only [State.dropPlan]
  rw [line]
  rfl

theorem PassId.second?_eq_none {p : PassId} (main : p ≠ .main .even) (up : p ≠ .up .even) (down : p ≠ .down .even) :
    p.second? = none := by
  match p with
  | .main .even => exact absurd rfl main
  | .up .even => exact absurd rfl up
  | .down .even => exact absurd rfl down
  | .repair => rfl
  | .main .whole | .main .odd | .up .whole | .up .odd | .down .whole | .down .odd => rfl

/-- The servo takes a pass away from the start point: a positioning move (R50, R67). -/
theorem State.launch_of_away {q : PassPlan} (away : s.car.counter ≠ q.startPoint) {m : CarMotion}
    (hm : m = ⟨.positioning s.car.counter, q.dir, q.cls, q.startPoint, q.endPoint, q.firstTrigger, q.lastTrigger⟩) :
    s.launch q = { s with car := { s.car with
      state := if (q.startPoint - s.car.counter).natAbs = 1 then .rampDown else .rampUp
      motion := some m, suspended := false } } := by
  have some : (q.startPoint - s.car.counter).natAbs ≠ 0 := by omega
  rw [State.launch, ← hm, positioningState_start _ _ some]
  exact if_neg away

/-- At the start point the pass begins at once (R68). -/
theorem State.launch_of_here {c : LineContext} {i : Fin 2} {q : PassPlan} {m : CarMotion} {v : State} (only : s.StrikesOnly i q)
    (line : s.line = some c) (here : s.car.counter = q.startPoint)
    (hm : m = ⟨.positioning s.car.counter, q.dir, q.cls, q.startPoint, q.endPoint, q.firstTrigger, q.lastTrigger⟩)
    (hv : v = { s with
      car := { s.car with state := .rampUp, suspended := false, motion := some { m with leg := .pass } }
      sequ := ⟨true, i, q.dir, q.fraction, q.driveTime, 0, .idle, .idle, [], false⟩ }) :
    s.launch q = if q.pass = .repair then v.modifyResult c.link (fun r => { r with repaired := true }) else v := by
  rw [State.launch, ← hm]
  refine (if_pos here).trans (State.startPass_eq (i := i) (m := m) ?_ line rfl hv)
  exact only

/-- The direction of the last main pass once a pass starts (R47). -/
def PassId.directionKept (p : PassId) (d : Dir) (held : Option Dir) : Option Dir :=
  match p with
  | .main _ => some d
  | _ => held

/-- The list of the pass is STRIKING and its direction recorded, then the servo takes it, and the second half of a split pass
is planned (R42, R47, R50, R52, log entry 31). -/
theorem State.giveStart_eq {c : LineContext} (line : s.line = some c) {i : Fin 2} {p : PassId} {q : PassPlan} {w : State}
    (hw : w = { s with
      lists := s.lists.set i.val (.striking q)
      dwell := .none
      line := some { c with
        stage := .striking p
        lastMainDir := p.directionKept q.dir c.lastMainDir } }) :
    s.giveStart p i q = match p.second? with
      | some odd => (w.launch q).planOdd odd q.endPoint
      | none => w.launch q := by
  have recorded : (State.recordDir { s.setList i (.striking q) with dwell := .none } p q.dir).setStage (.striking p) = w := by
    rw [hw]
    cases p <;>
    · dsimp only [State.recordDir, State.setStage, State.modifyLine, State.setList]
      rw [line]
      rfl
  rw [← recorded]
  cases p <;> rfl

end

/-- Settles O36: the five conditions by `startReady_eq`; the start is then `giveStart` or `discardPlan`, and at the start
point `startPass_eq`. -/
theorem carriageStartTakesThePlan : Obligations.CarriageStartTakesThePlan := by
  unfold Obligations.CarriageStartTakesThePlan
  intro s c i p q m u v line stage ready others dwell drive car hm hu
  have start := State.startReady_eq line stage ready others dwell drive car
  have run : exec .carriageStart s =
      if s.gatesOpen then .next (s.giveStart p i q) else .next (s.discardPlan p) := by
    show execCarriageStart s = _
    rw [execCarriageStart, start]
  rw [run]
  refine ⟨fun closed => ?_, fun thermal supply away here repair => ?_⟩
  · have shut : ¬ s.gatesOpen = true := fun gates => by
      obtain ⟨thermal, supply⟩ := State.gatesOpen_iff.mp gates
      obtain h | h := closed
      · exact thermal h
      · rw [supply] at h; cases h
    rw [if_neg shut, State.discardPlan_eq line]
    obtain (_ | _ | _) | _ | (_ | _ | _) | (_ | _ | _) := p <;> rfl
  · obtain ⟨w, hw⟩ : ∃ w : State, w = { s with
        lists := s.lists.set i.val (.striking q)
        dwell := .none
        line := some { c with
          stage := .striking p
          lastMainDir := p.directionKept q.dir c.lastMainDir } } := ⟨_, rfl⟩
    have hu' : u = { w with car := { s.car with
        state := if (q.startPoint - s.car.counter).natAbs = 1 then .rampDown else .rampUp
        motion := some m, suspended := false } } := by
      rw [hu, hw]
      cases p <;> rfl
    have launched : w.launch q = v := by
      have lineW : w.line = some { c with
          stage := .striking p
          lastMainDir := p.directionKept q.dir c.lastMainDir } := by rw [hw]
      have motion : m = ⟨.positioning w.car.counter, q.dir, q.cls, q.startPoint, q.endPoint, q.firstTrigger,
          q.lastTrigger⟩ := by rw [hm, hw]
      have only : w.StrikesOnly i q := by
        rw [hw]
        refine ⟨by simp, fun j hj => ?_⟩
        rw [getElem_setList_other _ _ hj, Bool.eq_false_iff, Ne, StrikeList.isStriking_iff]
        obtain ⟨-, calm⟩ := forall_and.mp (others j hj)
        exact fun ⟨x, h⟩ => calm x h
      by_cases point : s.car.counter = q.startPoint
      · have zero : ¬ (q.startPoint - s.car.counter).natAbs = 1 := by omega
        rw [State.launch_of_here only lineW (by rw [hw]; exact point) motion rfl]
        rw [if_neg zero] at hu'
        by_cases rep : q.pass = .repair
        · obtain ⟨e, es, queue, hv⟩ := repair point rep
          rw [if_pos rep, State.modifyResult_eq (e := e) (es := es) (by rw [hw]; exact queue), hv, hu', hw]
        · rw [if_neg rep, here point rep, hu', hw]
      · rw [State.launch_of_away (by rw [hw]; exact point) motion, away point, hu', hw]
    rw [if_pos (State.gatesOpen_iff.mpr ⟨thermal, supply⟩), State.giveStart_eq line hw, launched]
    refine ⟨fun main up down => ?_, fun odd halves => ?_⟩
    · rw [PassId.second?_eq_none main up down]
    · obtain ⟨rfl, rfl⟩ | ⟨rfl, rfl⟩ | ⟨rfl, rfl⟩ := halves <;> rfl

end Sys2Proof.Machine

namespace Sys2Proof.Machine

/-! ## A count of the carriage (R61, R64) -/

theorem capturedPeriod_advance (n dt : Nat) :
    capturedPeriod (min standstillTicks (n + dt)) = max 1 (min 200000 (n + dt)) := by
  show max 1 (min 200000 (min 200000 (n + dt))) = _
  rw [← min_assoc, min_self]

theorem State.countDir_delta (s : State) (ch : EncoderChannel) :
    (s.countDir ch).delta = if s.countsUp ch then 1 else -1 := by
  cases ch with
  | chanA | chanB =>
    show Dir.delta (if s.car.encA = s.car.encB then _ else _) = _
    simp only [State.countsUp]
    split <;> rename_i levels <;> simp [levels, Dir.delta]

/-- A count within the range of the counter (R61, R63, R64). -/
theorem State.takeCount_advance {s : State} {ch : EncoderChannel} {dt : Nat} (range : (s.counted ch dt).counterInRange) :
    (s.advance dt).takeCount ch ((s.advance dt).countDir ch) = s.counted ch dt := by
  have delta : ((s.advance dt).countDir ch).delta = if s.countsUp ch then 1 else -1 := s.countDir_delta ch
  have inside : inCounter (s.car.counter + ((s.advance dt).countDir ch).delta) = true := by
    rw [delta]
    exact Bool.and_eq_true_iff.mpr ⟨decide_eq_true range.1, decide_eq_true range.2⟩
  have period := capturedPeriod_advance s.car.periodTimer dt
  rw [State.counted, ← period, ← delta]
  unfold State.takeCount State.countCounter
  cases ch with
  | chanA | chanB => exact if_pos inside

theorem State.countChange_advance {s : State} {ch : EncoderChannel} {dt : Nat} (range : (s.counted ch dt).counterInRange) :
    exec (.countChange ch dt) s = .next ((s.counted ch dt).countEffect ((s.advance dt).countDir ch)).settle := by
  show Host.Outcome.next _ = _
  rw [State.countChange, State.takeCount_advance range]

/-- A count while the position is trusted (R66, R72). -/
theorem State.countEffect_of_trusted {s : State} (h : s.car.state.trusted = true) (d : Dir) :
    s.countEffect d = s.countTrusted d := by
  unfold State.countEffect
  cases state : s.car.state with
  | stopped | rampUp | cruise | rampDown => rfl
  | unhomed | fault | homing => rw [state] at h; cases h

theorem State.carriageFails_of_trusted {s : State} (h : s.car.state.trusted = true) (c : CarCause) :
    s.carriageFails c = s.enterFault c := by
  unfold State.carriageFails
  cases state : s.car.state with
  | stopped | rampUp | cruise | rampDown => rfl
  | unhomed | fault | homing => rw [state] at h; cases h

/-! ## The line of an abandoned pass (R59, R69, R73) -/

/-- The line in flight is that of the granted entry `n` at the head of its queue; with `b`, IMPERFECT is set. -/
structure State.Carries (s : State) (l : Link) (n : SeqNo) (b : Bool) : Prop where
  line : ∃ c, s.line = some c ∧ c.link = l
  head : ∃ e, s.headEntry l = some e ∧ e.seq = n ∧ (b = true → e.result.imperfect = true)
  granted : s.arb.granted ≠ none

section
variable {s : State} {l : Link} {n : SeqNo} {b : Bool}

theorem State.Carries.modifyLine {f : LineContext → LineContext} (h : s.Carries l n b) (link : ∀ c, (f c).link = c.link) :
    (s.modifyLine f).Carries l n b := by
  obtain ⟨⟨c, line, rfl⟩, head, granted⟩ := h
  exact ⟨⟨f c, by rw [State.modifyLine, line]; rfl, link c⟩, head, granted⟩

theorem State.Carries.modifyResult {b' : Bool} {f : LineResult → LineResult} {k : Link} (h : s.Carries l n b)
    (link : ∀ c, s.line = some c → c.link = k)
    (imperfect : ∀ r : LineResult, (b = true → r.imperfect = true) → b' = true → (f r).imperfect = true) :
    (s.modifyResult k f).Carries l n b' := by
  obtain ⟨⟨c, line, rfl⟩, ⟨e, head, seq, marked⟩, granted⟩ := h
  obtain rfl := link c line
  exact ⟨⟨c, line, rfl⟩,
    ⟨{ e with result := f e.result }, by rw [State.modifyResult, State.modifyHead_headEntry, head]; rfl, seq,
      imperfect _ marked⟩, granted⟩

theorem State.Carries.setLists (h : s.Carries l n b) (x : Vector StrikeList 2) (d : Dwell) :
    ({ s with lists := x, dwell := d } : State).Carries l n b := ⟨h.line, h.head, h.granted⟩

theorem State.Carries.setStage (h : s.Carries l n b) (g : LineStage) : (s.setStage g).Carries l n b :=
  h.modifyLine fun _ => rfl

theorem State.Carries.countStruck (h : s.Carries l n b) (q : PassPlan) : (s.countStruck q).Carries l n b := by
  obtain ⟨c, line, link⟩ := h.line
  have rest (u : DotSet) := h.modifyLine (f := fun c => { c with unstruck := dotsDiff c.unstruck u }) fun _ => rfl
  rw [State.countStruck, line]
  dsimp only
  split
  · refine (rest _).modifyResult (fun d held => ?_) fun r marked => marked
    rw [State.modifyLine, line] at held
    cases held
    rfl
  · exact rest _

theorem State.Carries.markImperfect (h : s.Carries l n b) : s.markImperfect.Carries l n true := by
  obtain ⟨c, line, link⟩ := h.line
  rw [State.markImperfect, line]
  exact h.modifyResult (fun d held => by rw [line] at held; cases held; rfl) fun _ _ _ => rfl

theorem State.Carries.loseDots (h : s.Carries l n b) (d : DotSet) (degraded : Bool) :
    (s.loseDots d degraded).Carries l n b := by
  obtain ⟨c, line, link⟩ := h.line
  rw [State.loseDots, line]
  refine (h.modifyResult (fun d held => by rw [line] at held; cases held; rfl) fun r marked set => ?_).modifyLine fun _ => rfl
  unfold LineResult.lose
  split_ifs <;> simp [marked set]

theorem State.Carries.loseAll (h : s.Carries l n b) : s.loseAll.Carries l n b := by
  unfold State.loseAll
  split
  · exact h
  · exact h.loseDots _ _

/-- What the end of a line's work leaves: its trailing feed, or the hold of a halt, or its completion with what was
marked. -/
def State.LineEnded (t : State) (l : Link) (n : SeqNo) (b : Bool) : Prop :=
  (t.Carries l n b ∧ ∃ c, t.line = some c ∧ (c.stage = .feeding ∨ c.stage = .held)) ∨
  (t.line = none ∧ t.arb.halt.isEmpty = true ∧
    ((∃ r : LineResult, (b = true → r.imperfect = true) ∧ Notice.lineDone l n r ∈ (t.port.get l).notices) ∨
      (t.port.get l).lost = true))

theorem State.Carries.ended_of_stage (h : s.Carries l n b) {g : LineStage} (d : Option DueMove)
    (stage : g = .feeding ∨ g = .held) : ((s.setStage g).setDue d).LineEnded l n b := by
  obtain ⟨c, line, -⟩ := h.line
  obtain ⟨held, head, granted⟩ := h.setStage g
  exact .inl ⟨⟨held, head, granted⟩, { c with stage := g }, by show s.line.map _ = _; rw [line]; rfl, stage⟩

theorem State.Carries.finishLine (h : s.Carries l n b) : s.finishLine.LineEnded l n b := by
  have carried := h
  obtain ⟨⟨c, line, rfl⟩, ⟨e, head, rfl, marked⟩, -⟩ := h
  obtain ⟨clear, finish⟩ | ⟨-, finish⟩ := s.finishLine_cases <;> rw [finish]
  · refine .inr ⟨State.completeLine_line, s.completeLine_lineOnly.halt ▸ clear, ?_⟩
    have port : (s.completeLine.port.get c.link) = (s.port.get c.link).post (.lineDone c.link e.seq e.result) := by
      rw [State.completeLine_of_head line head, State.completeEntry_frame, State.post_get, if_pos rfl]
    rw [port]
    obtain heard | lost := (s.port.get c.link).post_heard (n := .lineDone c.link e.seq e.result)
    · exact .inl ⟨e.result, marked, heard⟩
    · exact .inr lost
  · exact carried.ended_of_stage s.drive.due (.inr rfl)

theorem State.Carries.startFeed (h : s.Carries l n b) : s.startFeed.LineEnded l n b := by
  unfold State.startFeed
  split
  · dsimp only
    split
    · exact h.ended_of_stage _ (.inl rfl)
    · split
      · exact h.ended_of_stage _ (.inl rfl)
      · exact h.finishLine
  · exact h.finishLine

theorem State.Carries.abandonPass (h : s.Carries l n b) {q : PassPlan} (striking : s.strikingPlan = some q) :
    s.abandonPass.LineEnded l n true := by
  rw [State.abandonPass, striking]
  exact ((((h.countStruck q).setLists _ _).markImperfect.loseAll).setLists _ _).startFeed

end

/-! ## The carriage in FAULT (R73) -/

section
variable {s : State}

/-- With the engine not halted and the carriage not STOPPED nothing is granted (R165, R171). -/
theorem State.settle_of_away (noPlan : s.planDue = none) (clear : s.arb.halt.isEmpty = true)
    (away : s.car.state ≠ .stopped) : s.settle = s.judgeTimers := by
  have load : s.loadReady = none := by
    cases h : s.loadReady with
    | none => rfl
    | some e =>
      obtain ⟨-, -, -, -, only⟩ := State.loadReady_spec h
      rw [(HaltSet.isEmpty_iff _).mp clear] at only
      cases only
  have busy : s.isIdle = false := by
    cases h : s.isIdle with
    | false => rfl
    | true =>
      obtain ⟨-, -, stopped⟩ := State.isIdle_spec h
      exact absurd stopped away
  have none : s.settleOnce = none := by simp [State.settleOnce, noPlan, load, busy]
  unfold State.settle
  rw [State.settleLoop_stop none]

theorem State.LineEnded.settle {l : Link} {n : SeqNo} {b : Bool} (h : s.LineEnded l n b) (away : s.car.state ≠ .stopped) :
    s.settle.LineEnded l n b := by
  have timers := s.judgeTimers_frame
  obtain ⟨carried, c, line, stage⟩ | ⟨line, clear, done⟩ := h
  · have none := State.planDue_of_stage line fun p => by obtain h | h := stage <;> rw [h] <;> exact LineStage.noConfusion
    rw [State.settle_of_granted carried.granted none, State.judgeTimers_of_granted carried.granted]
    exact .inl ⟨⟨carried.line, carried.head, carried.granted⟩, c, line, stage⟩
  · rw [State.settle_of_away (State.planDue_of_line_none line) clear away, timers]
    exact .inr ⟨line, clear, done⟩

theorem State.LineEnded.postBoth {l : Link} {n : SeqNo} {b : Bool} (h : s.LineEnded l n b) (x : Notice) :
    (s.postBoth x).LineEnded l n b := by
  obtain ⟨⟨held, head, granted⟩, stage⟩ | ⟨line, clear, done⟩ := h
  · exact .inl ⟨⟨held, head, granted⟩, stage⟩
  · refine .inr ⟨line, clear, ?_⟩
    rw [State.postBoth_get]
    exact done.imp (fun ⟨r, marked, heard⟩ => ⟨r, marked, LinkPort.mem_post _ _ heard⟩) (LinkPort.post_lost _ _)

/-- The carriage in FAULT with the Sequencer stopped and the pulses cut, before the test, the line and the notice (R73). -/
def State.faultStop (s : State) : State :=
  let t := s.modifyCar fun c => { c with state := .fault, motion := none, suspended := false }
  (if s.sequ.walking then t.walkStop else t).cutAll

theorem State.faultStop_eq (s : State) : s.faultStop = { s with
    car := { s.car with state := .fault, motion := none, suspended := false }
    sequ := if s.sequ.walking then s.walkStop.sequ else s.sequ
    channels := s.channels.map Channel.cut } := by
  unfold State.faultStop
  split <;> rfl

/-- What the fault makes of the test and of the pass in progress (R73, R109). -/
def State.faultWork (s : State) (moving : Bool) : State := if moving then s.testCut.abandonPass else s.testCut

theorem State.faultWork_settling (s : State) (moving : Bool) : s.Settling (s.faultWork moving) :=
  .ite (s.testCut_settling.trans (State.abandonPass_lineOnly _).settling) s.testCut_settling

theorem State.enterFault_eq (s : State) (cause : CarCause) : s.enterFault cause =
    (s.faultStop.faultWork s.car.motion.isSome).postBoth (.carriageFault cause s.car.counter s.car.state.name) := by
  have car : (s.faultStop.faultWork s.car.motion.isSome).car.counter = s.car.counter := by
    rw [(State.faultWork_settling _ _).car, State.faultStop_eq]
  rw [← car]
  rfl

/-- Everything that an event with a fault leaves of the state in which the fault has stopped drive, timers and pulses. -/
theorem State.enterFault_settling (s : State) (cause : CarCause) : s.faultStop.Settling (s.enterFault cause).settle := by
  rw [State.enterFault_eq]
  exact ((State.faultWork_settling _ _).trans (State.postBoth_settling _ _)).trans (State.settle_settling _)

theorem State.enterFault_line {c : LineContext} {q : PassPlan} {e : Entry} (cause : CarCause) (sound : s.GrantSound)
    (line : s.line = some c) (moving : s.car.motion.isSome = true) (striking : s.strikingPlan = some q)
    (head : s.headEntry c.link = some e) : (s.enterFault cause).settle.LineEnded c.link e.seq true := by
  obtain ⟨⟨n, granted⟩, -, noTest⟩ := sound.line c line
  have carried : s.faultStop.Carries c.link e.seq false := by
    rw [State.faultStop_eq]
    exact ⟨⟨c, line, rfl⟩, ⟨e, head, rfl, fun h => Bool.noConfusion h⟩, by rw [granted]; exact Option.some_ne_none _⟩
  have uncut : s.faultStop.testCut = s.faultStop := by
    have test : s.faultStop.test = none := by rw [State.faultStop_eq]; exact noTest
    rw [State.testCut, test]
  have work : s.faultStop.faultWork s.car.motion.isSome = s.faultStop.abandonPass := by
    rw [moving, State.faultWork, if_pos rfl, uncut]
  have plan : s.faultStop.strikingPlan = some q := by rw [State.faultStop_eq]; exact striking
  have fault : s.faultStop.abandonPass.car.state ≠ .stopped := by
    rw [(State.abandonPass_lineOnly _).settling.car, State.faultStop_eq]
    exact CarState.noConfusion
  rw [State.enterFault_eq, work]
  exact ((carried.abandonPass plan).postBoth _).settle fault

theorem State.enterFault_car (s : State) (cause : CarCause) :
    (s.enterFault cause).settle.car = { s.car with state := .fault, motion := none, suspended := false } := by
  rw [(s.enterFault_settling cause).car, s.faultStop_eq]

theorem State.faulted_settle (s : State) (cause : CarCause) : s.Faulted (s.enterFault cause).settle cause := by
  have kept := s.enterFault_settling cause
  have stop := s.faultStop_eq
  have car := s.enterFault_car cause
  have ports : (s.enterFault cause).PortsLater (s.enterFault cause).settle := (State.settle_settling _).ports
  refine ⟨⟨by rw [car], by rw [car], by rw [car]; rfl⟩, ⟨by rw [car], by rw [car]⟩, fun walking => ?_, fun p => ?_,
    fun c q sound line moving striking e head => ?_, fun l => ?_⟩
  · have sequ : (s.enterFault cause).settle.sequ = s.walkStop.sequ := by
      rw [kept.sequ, stop]
      exact if_pos walking
    rw [sequ]
    exact ⟨rfl, rfl, rfl, rfl, rfl⟩
  · have channels : (s.enterFault cause).settle.channels = s.cutAll.channels := by
      rw [kept.channels (by rw [stop]; exact CarState.noConfusion), stop]
      rfl
    rw [State.channel_congr channels, State.channel_cutAll]
  · obtain ⟨⟨-, ⟨d, dHead, -, marked⟩, -⟩, g, gLine, stage⟩ | ⟨closed, -, done⟩ :=
      State.enterFault_line cause sound line moving striking head
    · exact .inl ⟨g, d, gLine, stage, dHead, marked rfl⟩
    · exact .inr ⟨closed, done.imp_left fun ⟨r, marked, heard⟩ => ⟨r, marked rfl, heard⟩⟩
  · have posted : ((s.enterFault cause).port.get l) = ((s.faultStop.faultWork s.car.motion.isSome).port.get l).post
        (.carriageFault cause s.car.counter s.car.state.name) := by
      rw [State.enterFault_eq, State.postBoth_get]
    obtain ⟨more, notices⟩ := (ports l).notices
    obtain heard | lost := LinkPort.post_heard ((s.faultStop.faultWork s.car.motion.isSome).port.get l)
      (.carriageFault cause s.car.counter s.car.state.name)
    · exact .inl (by rw [notices, posted]; exact List.mem_append_left _ heard)
    · exact .inr ((ports l).lost (by rw [posted]; exact lost))

/-- The levels and the period timer are nothing to a fault. -/
theorem State.Faulted.of_car {t : State} {k : Carriage} {cause : CarCause} (h : ({ s with car := k } : State).Faulted t cause)
    (state : k.state = s.car.state) (counter : k.counter = s.car.counter) (period : k.period = s.car.period)
    (motion : k.motion = s.car.motion) : s.Faulted t cause := by
  obtain ⟨hstate, hcounter, htimers, hcut, hline, hnotice⟩ := h
  dsimp only at hcounter hnotice
  rw [counter, period] at hcounter
  rw [counter, state] at hnotice
  exact ⟨hstate, hcounter, htimers, hcut, fun c q sound line moving striking =>
    hline c q (State.GrantSound.of_ledger (s := s) rfl sound) line (by rw [← moving]; exact congrArg _ motion) striking, hnotice⟩

/-- A fault after a change of the carriage's levels or of its period timer alone (R62, R72). -/
theorem State.carriageFails_faulted (cause : CarCause) (f : Carriage → Carriage) (trusted : s.car.state.trusted = true)
    (state : (f s.car).state = s.car.state) (counter : (f s.car).counter = s.car.counter)
    (period : (f s.car).period = s.car.period) (motion : (f s.car).motion = s.car.motion) :
    s.Faulted ((s.modifyCar f).carriageFails cause).settle cause ∧
      ((s.modifyCar f).carriageFails cause).settle.car =
        { f s.car with state := .fault, motion := none, suspended := false } := by
  rw [State.carriageFails_of_trusted (by rw [← trusted]; exact congrArg _ state)]
  exact ⟨(State.faulted_settle _ _).of_car state counter period motion, State.enterFault_car _ _⟩

end

/-- Settles O31: each cause enters FAULT by `enterFault`, and `State.faulted_settle` says what that leaves. -/
theorem carriageFaultStopsThePass : Obligations.CarriageFaultStopsThePass := by
  unfold Obligations.CarriageFaultStopsThePass
  intro s trusted
  refine ⟨?_, fun away => ?_, fun ch dt range past => ?_⟩
  · obtain ⟨faulted, car⟩ := State.carriageFails_faulted .encoder
      (fun c => { c with encA := !c.encA, encB := !c.encB }) trusted rfl rfl rfl rfl
    exact ⟨_, rfl, faulted, congrArg Carriage.encA car, congrArg Carriage.encB car⟩
  · have driven : s.car.state.driven = true := by
      cases state : s.car.state with
      | rampUp | cruise | rampDown => rfl
      | stopped => exact absurd state away
      | unhomed | fault | homing => rw [state] at trusted; cases trusted
    obtain ⟨faulted, car⟩ := State.carriageFails_faulted .stall
      (fun c => { c with periodTimer := standstillTicks }) trusted rfl rfl rfl rfl
    exact ⟨_, if_pos driven, faulted, congrArg Carriage.periodTimer car⟩
  · have out : (!inTravel s.width (s.counted ch dt).car.counter) = true := by
      rw [Bool.not_eq_true', inTravel, Bool.and_eq_false_iff]
      exact past.imp (fun h => decide_eq_false (not_le.mpr h)) fun h => decide_eq_false (not_le.mpr h)
    have fault : (s.counted ch dt).countEffect ((s.advance dt).countDir ch) = (s.counted ch dt).enterFault .overrun :=
      (State.countEffect_of_trusted (s := s.counted ch dt) trusted _).trans (if_pos out)
    exact ⟨_, by rw [State.countChange_advance range, fault], State.faulted_settle _ _⟩

end Sys2Proof.Machine

namespace Sys2Proof.Machine

/-! ## Misses offered in order (R86, R87) -/

/-- Misses offered to the repair list one after the other. -/
def Sequencer.offers (q : Sequencer) (items : List RepairItem) : Sequencer := items.foldl Sequencer.offer q

/-- The repair items of missed pins of an entry. -/
def StrikeEntry.items (e : StrikeEntry) (a : PassId) (ps : List Pin) : List RepairItem :=
  ps.map fun p => ⟨e.column, ((p.val : Int) + a.rowShift).toNat, p⟩

theorem Sequencer.offers_append (q : Sequencer) (xs ys : List RepairItem) :
    q.offers (xs ++ ys) = (q.offers xs).offers ys := List.foldl_append

/-- The repair list takes the first 5 120 items, and the overflow mark tells of more (R87). -/
theorem Sequencer.offers_eq {q : Sequencer} (bound : q.repairs.length ≤ 5120) (items : List RepairItem) :
    q.offers items = { q with
      repairs := (q.repairs ++ items).take 5120
      overflow := q.overflow || decide (5120 < q.repairs.length + items.length) } := by
  induction items generalizing q with
  | nil =>
    have fits : ¬ 5120 < q.repairs.length + 0 := by omega
    show q = _
    rw [List.append_nil, List.take_of_length_le bound, List.length_nil, decide_eq_false fits, Bool.or_false]
  | cons x xs ih =>
    show (q.offer x).offers xs = _
    obtain ⟨room, e⟩ | ⟨full, e⟩ := q.offer_cases x <;> rw [e]
    · have count : (q.repairs ++ [x]).length + xs.length = q.repairs.length + (x :: xs).length := by simp; omega
      rw [ih (by simp; omega), count, List.append_assoc]
      rfl
    · have more : 5120 < q.repairs.length + (x :: xs).length := by simp; omega
      have taken (ys : List RepairItem) : (q.repairs ++ ys).take 5120 = q.repairs.take 5120 :=
        List.take_append_of_le_length full
      rw [ih (q := { q with overflow := true }) bound, taken, taken, decide_eq_true more, Bool.true_or, Bool.or_true]

theorem Sequencer.offers_frame (q : Sequencer) (items : List RepairItem) :
    q.offers items = { q with repairs := (q.offers items).repairs, overflow := (q.offers items).overflow } := by
  induction items generalizing q with
  | nil => rfl
  | cons x xs ih =>
    show (q.offer x).offers xs = { q with repairs := ((q.offer x).offers xs).repairs, overflow := ((q.offer x).offers xs).overflow }
    rw [ih (q.offer x), q.offer_frame x]

section
variable (q : Sequencer) (items : List RepairItem)

@[simp] theorem Sequencer.offers_list : (q.offers items).list = q.list := by rw [q.offers_frame]
@[simp] theorem Sequencer.offers_head : (q.offers items).head = q.head := by rw [q.offers_frame]
@[simp] theorem Sequencer.offers_driveTime : (q.offers items).driveTime = q.driveTime := by rw [q.offers_frame]
@[simp] theorem Sequencer.offers_fraction : (q.offers items).fraction = q.fraction := by rw [q.offers_frame]
@[simp] theorem Sequencer.offers_timerA : (q.offers items).timerA = q.timerA := by rw [q.offers_frame]
@[simp] theorem Sequencer.offers_timerB : (q.offers items).timerB = q.timerB := by rw [q.offers_frame]
@[simp] theorem Sequencer.offers_timer (c : PinColumn) : (q.offers items).timer c = q.timer c := by
  cases c
  · exact q.offers_timerA items
  · exact q.offers_timerB items

end

theorem State.foldl_missPin (s : State) (a : PassId) (e : StrikeEntry) (ps : List Pin) :
    ps.foldl (fun s p => s.missPin a e p) s = s.modifySequ (·.offers (e.items a ps)) := by
  induction ps generalizing s with
  | nil => rfl
  | cons p ps ih => exact ih _

theorem State.missEntry_eq (s : State) (a : PassId) (e : StrikeEntry) :
    s.missEntry a e = s.modifySequ (·.offers (e.items a (pinsOf e.rowMask))) := s.foldl_missPin a e _

theorem State.foldl_missEntry (s : State) (a : PassId) (es : List StrikeEntry) :
    es.foldl (fun s e => s.missEntry a e) s =
      s.modifySequ (·.offers (es.map fun e => e.items a (pinsOf e.rowMask)).flatten) := by
  induction es generalizing s with
  | nil => rfl
  | cons e es ih =>
    rw [List.foldl_cons, ih, State.missEntry_eq, List.map_cons, List.flatten_cons]
    exact congrArg (fun q => { s with sequ := q }) (Sequencer.offers_append _ _ _).symm

/-! ## An entry that fires (R84, R89, R112) -/

theorem mem_pinsOf {m : Rows} {p : Pin} : p ∈ pinsOf m ↔ m.getLsbD p.val = true := by
  simp [pinsOf]

theorem pinsOf_nodup (m : Rows) : (pinsOf m).Nodup := (List.nodup_finRange 18).filter _

theorem StrikeEntry.getLsbD_mark (e : StrikeEntry) (p r : Pin) :
    (e.mark p).struckMask.getLsbD r.val = (e.struckMask.getLsbD r.val || r == p) := by
  have bit : (pinBit p.val).getLsbD r.val = (r == p) := by
    revert p r
    decide
  show (e.struckMask ||| pinBit p.val).getLsbD r.val = _
  rw [BitVec.getLsbD_or, bit]

/-- A pin that a fire request strikes (R89). -/
def State.strikable (s : State) (p : Pin) : Bool := !s.isFailed p && (s.channel p == .ready)

/-- From `s` to `t` the pins `struck` of entry `v`, which stands at `i` in the walked plan `q`, go into DRIVE with their heat
and their marks, which make `v` to `w`, and the misses are offered (R84, R89, R112). -/
structure State.Fired (s t : State) (q : PassPlan) (i : Nat) (v w : StrikeEntry) (struck : Pin → Bool)
    (missed : List RepairItem) : Prop where
  frame : t = { s with
    channels := t.channels, heat := { s.heat with acc := t.heat.acc }, lists := t.lists, sequ := s.sequ.offers missed }
  channel : ∀ p, t.channel p = if struck p then .drive (s.sequ.driveTime * 10) false else s.channel p
  heat : ∀ p, t.heatOf p = if struck p then min 65535 (s.heatOf p + s.sequ.driveTime) else s.heatOf p
  lists : t.lists = s.lists.set s.sequ.list.val (.striking { q with entries := q.entries.set i w })
  entry : w = { v with struckMask := w.struckMask }
  marks : ∀ p : Pin, w.struckMask.getLsbD p.val = (v.struckMask.getLsbD p.val || struck p)

section
variable {s t u : State} {q : PassPlan} {i : Nat} {v w x : StrikeEntry} {A B : Pin → Bool} {xs ys : List RepairItem}

theorem State.Fired.walked (h : s.Fired t q i v w A xs) :
    t.lists[t.sequ.list.val] = .striking { q with entries := q.entries.set i w } := by
  have list : t.sequ.list = s.sequ.list := by rw [h.frame]; simp
  simp [list, h.lists]

/-- Misses alone. -/
theorem State.Fired.of_missed (walked : s.lists[s.sequ.list.val] = .striking q) (entry : q.entries[i]? = some v)
    (xs : List RepairItem) : s.Fired (s.modifySequ (·.offers xs)) q i v v (fun _ => false) xs where
  frame := rfl
  channel _ := rfl
  heat _ := rfl
  lists := by
    have same : q.entries.set i v = q.entries := by
      obtain ⟨_, rfl⟩ := List.getElem?_eq_some_iff.mp entry
      exact List.set_getElem_self _
    rw [same, ← walked, Vector.set_getElem_self]
    rfl
  entry := rfl
  marks _ := (Bool.or_false _).symm

theorem State.Fired.trans (a : s.Fired t q i v w A xs)
    (b : t.Fired u { q with entries := q.entries.set i w } i w x B ys) (apart : ∀ p, A p = true → B p = false) :
    s.Fired u q i v x (fun p => A p || B p) (xs ++ ys) := by
  have sequ : t.sequ = s.sequ.offers xs := by rw [a.frame]
  have drive : t.sequ.driveTime = s.sequ.driveTime := by rw [sequ, Sequencer.offers_driveTime]
  refine ⟨?_, fun p => ?_, fun p => ?_, ?_, ?_, fun p => ?_⟩
  · rw [b.frame, sequ, ← Sequencer.offers_append]
    rw [a.frame]
  · rw [b.channel, a.channel, drive]
    cases hA : A p <;> simp [apart, hA]
  · rw [b.heat, a.heat, drive]
    cases hA : A p <;> simp [apart, hA]
  · have list : t.sequ.list = s.sequ.list := by rw [sequ, Sequencer.offers_list]
    rw [b.lists]
    simp only [list, a.lists, List.set_set, Vector.set_set]
  · rw [b.entry, a.entry]
  · rw [b.marks, a.marks, Bool.or_assoc]

theorem State.markStruck_eq (walked : s.lists[s.sequ.list.val] = .striking q) (entry : q.entries[i]? = some v) (p : Pin) :
    s.markStruck i p = s.setList s.sequ.list (.striking { q with entries := q.entries.set i (v.mark p) }) := by
  have modified : q.entries.modify i (·.mark p) = q.entries.set i (v.mark p) := by
    rw [List.modify_eq_set_getElem?, entry]
    rfl
  unfold State.markStruck
  rw [walked]
  dsimp only
  rw [modified]

/-- One pin that is struck. -/
theorem State.Fired.of_strike (walked : s.lists[s.sequ.list.val] = .striking q) (entry : q.entries[i]? = some v) (p : Pin) :
    s.Fired (((s.setChannel p (.drive (s.sequ.driveTime * 10) false)).addHeat p s.sequ.driveTime).markStruck i p)
      q i v (v.mark p) (· == p) [] := by
  have marked := State.markStruck_eq
    (s := (s.setChannel p (.drive (s.sequ.driveTime * 10) false)).addHeat p s.sequ.driveTime) walked entry p
  rw [marked]
  refine ⟨rfl, fun r => ?_, fun r => ?_, rfl, rfl, fun r => v.getLsbD_mark p r⟩
  · by_cases h : r = p
    · subst h; simp [State.channel, State.setList, State.addHeat, State.setChannel]
    · have other := s.channel_setChannel_other (.drive (s.sequ.driveTime * 10) false) h
      simp only [beq_eq_false_iff_ne.mpr h]
      exact other
  · by_cases h : r = p
    · subst h; simp [State.heatOf, State.setList, State.addHeat, State.setChannel]
    · have other := (s.setChannel p (.drive (s.sequ.driveTime * 10) false)).heatOf_addHeat_other s.sequ.driveTime h
      simp only [beq_eq_false_iff_ne.mpr h]
      exact other

/-- A fire request of pins that are all different (R84, R89). -/
theorem State.foldl_firePin {ps : List Pin} (nodup : ps.Nodup) (walked : s.lists[s.sequ.list.val] = .striking q)
    (entry : q.entries[i]? = some v) (a : PassId) (e : StrikeEntry) : ∃ w,
    s.Fired (ps.foldl (fun s p => s.firePin a i e p) s) q i v w (fun p => decide (p ∈ ps) && s.strikable p)
      (e.items a (ps.filter fun p => !s.strikable p)) := by
  induction ps generalizing s q v with
  | nil => exact ⟨v, State.Fired.of_missed walked entry []⟩
  | cons p ps ih =>
    obtain ⟨fresh, nodup⟩ := List.nodup_cons.mp nodup
    have later {t : State} {w : StrikeEntry} {A : Pin → Bool} {xs : List RepairItem} (h : s.Fired t q i v w A xs)
        (only : ∀ r, A r = true → r = p) (split : A p = s.strikable p)
        (items : xs = if s.strikable p then [] else e.items a [p]) : ∃ w',
        s.Fired (ps.foldl (fun s p => s.firePin a i e p) t) q i v w' (fun r => decide (r ∈ p :: ps) && s.strikable r)
          (e.items a ((p :: ps).filter fun r => !s.strikable r)) := by
      have there : (q.entries.set i w)[i]? = some w := by
        obtain ⟨bound, -⟩ := List.getElem?_eq_some_iff.mp entry
        simp [bound]
      obtain ⟨w', rest⟩ := ih nodup h.walked there
      have same (r : Pin) (ne : r ≠ p) : t.strikable r = s.strikable r := by
        have off : A r = false := by
          cases hA : A r with
          | false => rfl
          | true => exact absurd (only r hA) ne
        have channel : t.channel r = s.channel r := by rw [h.channel, off]; rfl
        have failed : t.isFailed r = s.isFailed r := State.isFailed_congr (by rw [h.frame]) r
        rw [State.strikable, channel, failed]
        rfl
      have filtered : ps.filter (fun r => !t.strikable r) = ps.filter fun r => !s.strikable r :=
        List.filter_congr fun r mem => by rw [same r fun eq => fresh (eq ▸ mem)]
      have whole := h.trans rest fun r hA => by
        obtain rfl := only r hA
        simp [fresh]
      refine ⟨w', ?_⟩
      convert whole using 1
      · funext r
        by_cases ne : r = p
        · subst ne; simp [split, fresh]
        · have off : A r = false := by
            cases hA : A r with
            | false => rfl
            | true => exact absurd (only r hA) ne
          simp [ne, off, same r ne]
      · rw [filtered, items]
        cases hs : s.strikable p <;> simp [hs, StrikeEntry.items]
    rw [List.foldl_cons]
    obtain ⟨failed, ready, e'⟩ | ⟨barred, e'⟩ := s.firePin_cases a i e p <;> rw [e']
    · have strikes : s.strikable p = true := by simp [State.strikable, failed, ready]
      exact later (.of_strike walked entry p) (fun r h => by simpa using h) (by simp [strikes]) (by simp [strikes])
    · have misses : s.strikable p = false := by
        obtain h | h := barred <;> simp [State.strikable, h]
      exact later (.of_missed walked entry (e.items a [p])) (fun r h => by simp at h) misses.symm (by simp [misses])

/-- The head pointer past one more entry, whose column timer runs when it is armed (R82, R83). -/
def Sequencer.reaching (g : Sequencer) (e : StrikeEntry) (armed : Bool) (n : Nat) : Sequencer :=
  { (if armed then g.setTimer e.col (.running n g.head) else g) with head := g.head + 1 }

theorem Sequencer.reaching_frame (g : Sequencer) (e : StrikeEntry) (armed : Bool) (n : Nat) :
    g.reaching e armed n = { g with
      head := g.head + 1, timerA := (g.reaching e armed n).timerA, timerB := (g.reaching e armed n).timerB } := by
  cases armed with
  | false => rfl
  | true => cases h : e.col <;> simp [Sequencer.reaching, Sequencer.setTimer, h]

section
variable (g : Sequencer) (e : StrikeEntry) (armed : Bool) (n : Nat)

@[simp] theorem Sequencer.reaching_list : (g.reaching e armed n).list = g.list := by rw [g.reaching_frame]
@[simp] theorem Sequencer.reaching_driveTime : (g.reaching e armed n).driveTime = g.driveTime := by rw [g.reaching_frame]
@[simp] theorem Sequencer.reaching_fraction : (g.reaching e armed n).fraction = g.fraction := by rw [g.reaching_frame]
@[simp] theorem Sequencer.reaching_repairs : (g.reaching e armed n).repairs = g.repairs := by rw [g.reaching_frame]
@[simp] theorem Sequencer.reaching_overflow : (g.reaching e armed n).overflow = g.overflow := by rw [g.reaching_frame]
@[simp] theorem Sequencer.reaching_head : (g.reaching e armed n).head = g.head + 1 := rfl

end

theorem Sequencer.reaching_timer (g : Sequencer) (e : StrikeEntry) (armed : Bool) (n : Nat) (k : PinColumn) :
    (g.reaching e armed n).timer k = if k = e.col ∧ armed = true then .running n g.head else g.timer k := by
  cases armed with
  | false => cases k <;> simp [Sequencer.reaching, Sequencer.timer]
  | true => cases k <;> cases h : e.col <;> simp [Sequencer.reaching, Sequencer.timer, Sequencer.setTimer, h]

theorem State.walkedPlan_eq (walked : s.lists[s.sequ.list.val] = .striking q) : s.walkedPlan = some q := by
  unfold State.walkedPlan
  rw [walked]

/-- The head pointer stays when no entry there has this trigger count (R82). -/
theorem State.reachHead_of_other {y : Int} (walked : s.lists[s.sequ.list.val] = .striking q)
    (other : ∀ e, q.entries[s.sequ.head]? = some e → e.trigger ≠ y) : s.reachHead y = s := by
  unfold State.reachHead
  rw [State.walkedPlan_eq walked]
  dsimp only
  split
  · rfl
  · next e there => exact if_neg (other e there)

theorem State.armEntry_of_running {e : StrikeEntry} (runs : s.sequ.timer e.col ≠ .idle) (a : PassId) :
    s.armEntry a i e = s.missEntry a e := by
  unfold State.armEntry
  split
  · rfl
  · next idle => exact absurd idle runs

theorem State.armEntry_of_idle {e : StrikeEntry} (idle : s.sequ.timer e.col = .idle) (a : PassId) :
    s.armEntry a i e = if s.sequ.fraction * s.car.period / 16 = 0 then s.fireEntry i
      else s.modifySequ (·.setTimer e.col (.running (s.sequ.fraction * s.car.period / 16) i)) := by
  unfold State.armEntry
  rw [idle]
  rfl

theorem State.fireEntry_of_enable (walked : s.lists[s.sequ.list.val] = .striking q) {e : StrikeEntry}
    (there : q.entries[i]? = some e) (enable : s.car.enable = true) :
    s.fireEntry i = (pinsOf e.rowMask).foldl (fun s p => s.firePin q.pass i e p) s := by
  unfold State.fireEntry
  rw [State.walkedPlan_eq walked]
  dsimp only
  rw [there]
  exact if_pos enable

/-- The head pointer past one more entry (R82). -/
def State.pastHead (s : State) : State := s.modifySequ fun q => { q with head := q.head + 1 }

theorem State.pastHead_timer (s : State) (c : PinColumn) : s.pastHead.sequ.timer c = s.sequ.timer c := by cases c <;> rfl

/-- The entry at the head pointer is reached: armed, fired, missed or passed (R82 to R84). -/
theorem State.reachHead_fired {y : Int} {e : StrikeEntry} {n : Nat} {opens : Bool} {struck : Pin → Bool}
    (walked : s.lists[s.sequ.list.val] = .striking q) (there : q.entries[s.sequ.head]? = some e) (trigger : e.trigger = y)
    (hopens : opens = (s.car.enable && decide (s.sequ.timer e.col = .idle)))
    (hn : n = s.sequ.fraction * s.car.period / 16)
    (hstruck : struck = fun p => opens && n == 0 && e.rowMask.getLsbD p.val && s.strikable p) : ∃ w,
    ({ s with sequ := s.sequ.reaching e (opens && decide (1 ≤ n)) n } : State).Fired (s.reachHead y) q s.sequ.head e w struck
      (e.items q.pass ((pinsOf e.rowMask).filter fun p => !(opens && decide (1 ≤ n)) && !struck p)) := by
  have reached : s.reachHead y =
      if s.car.enable then
        s.pastHead.armEntry q.pass s.sequ.head e
      else s.pastHead.missEntry q.pass e := by
    unfold State.reachHead
    rw [State.walkedPlan_eq walked]
    dsimp only
    rw [there]
    exact if_pos trigger
  have missed (closed : opens = false) : ∃ w,
      ({ s with sequ := s.sequ.reaching e (opens && decide (1 ≤ n)) n } : State).Fired
        (s.pastHead.missEntry q.pass e) q s.sequ.head e w struck
        (e.items q.pass ((pinsOf e.rowMask).filter fun p => !(opens && decide (1 ≤ n)) && !struck p)) := by
    have all : (pinsOf e.rowMask).filter (fun p => !(opens && decide (1 ≤ n)) && !struck p) = pinsOf e.rowMask :=
      List.filter_eq_self.mpr fun p _ => by simp [hstruck, closed]
    have none : struck = fun _ => false := by
      rw [hstruck, closed]
      rfl
    rw [all, none, State.missEntry_eq, closed]
    exact ⟨e, .of_missed (s := s.pastHead) walked there _⟩
  have timer := s.pastHead_timer e.col
  rw [reached]
  cases enable : s.car.enable with
  | false => exact missed (by rw [hopens, enable, Bool.false_and])
  | true =>
    rw [if_pos rfl]
    by_cases idle : s.sequ.timer e.col = .idle
    · have opened : opens = true := by rw [hopens, enable, idle]; rfl
      rw [State.armEntry_of_idle (timer.trans idle),
        show s.pastHead.sequ.fraction * s.pastHead.car.period / 16 = n from hn.symm]
      by_cases zero : n = 0
      · rw [if_pos zero, State.fireEntry_of_enable (s := s.pastHead) walked there enable]
        obtain ⟨w, fired⟩ := State.foldl_firePin (s := s.pastHead)
          (pinsOf_nodup e.rowMask) walked there q.pass e
        have hits : struck = fun p => decide (p ∈ pinsOf e.rowMask) && s.strikable p := by
          rw [hstruck, opened, zero]
          funext p
          simp [mem_pinsOf]
        have unarmed : (opens && decide (1 ≤ n)) = false := by simp [zero]
        have misses : (pinsOf e.rowMask).filter (fun p => !(opens && decide (1 ≤ n)) && !struck p) =
            (pinsOf e.rowMask).filter fun p => !s.strikable p :=
          List.filter_congr fun p mem => by simp [unarmed, hits, mem]
        rw [misses, unarmed, hits]
        exact ⟨w, fired⟩
      · have armed : (opens && decide (1 ≤ n)) = true := by simp [opened]; omega
        have misses : (pinsOf e.rowMask).filter (fun p => !(opens && decide (1 ≤ n)) && !struck p) = [] :=
          List.filter_eq_nil_iff.mpr fun p _ => by simp [armed]
        have hits : struck = fun _ => false := by
          rw [hstruck]
          funext p
          simp [zero]
        have set : ({ s.sequ with head := s.sequ.head + 1 } : Sequencer).setTimer e.col (.running n s.sequ.head) =
            s.sequ.reaching e true n := by cases h : e.col <;> simp [Sequencer.reaching, Sequencer.setTimer, h]
        rw [if_neg zero, misses, armed, hits]
        refine ⟨e, ?_⟩
        have still := State.Fired.of_missed (s := { s with sequ := s.sequ.reaching e true n }) (v := e)
          (by simpa using walked) there []
        rw [← set] at still ⊢
        exact still
    · rw [State.armEntry_of_running fun h => idle (timer.symm.trans h)]
      exact missed (by rw [hopens, decide_eq_false idle, Bool.and_false])

end

end Sys2Proof.Machine

namespace Sys2Proof.Machine

/-! ## The entries that one count reaches (R82) -/

theorem Sequencer.offers_congr {g h : Sequencer} (repairs : g.repairs = h.repairs) (overflow : g.overflow = h.overflow)
    (items : List RepairItem) :
    (g.offers items).repairs = (h.offers items).repairs ∧ (g.offers items).overflow = (h.offers items).overflow := by
  induction items generalizing g h with
  | nil => exact ⟨repairs, overflow⟩
  | cons x xs ih =>
    refine ih (g := g.offer x) (h := h.offer x) ?_ ?_ <;>
    · unfold Sequencer.offer
      rw [repairs]
      split <;> simp [overflow]

/-- The misses of the entries `hit`: an open entry whose timer runs misses nothing yet (R82 to R84). -/
def missesOf (a : PassId) (n : Nat) (opens : StrikeEntry → Bool) (struck : StrikeEntry → Pin → Bool)
    (hit : List StrikeEntry) : List RepairItem :=
  (hit.map fun e => e.items a ((pinsOf e.rowMask).filter fun p => !(opens e && decide (1 ≤ n)) && !struck e p)).flatten

/-- From `u` to `t` the entries `hit` of the walked plan `q`, from the head pointer on, have been reached with the delay `n`
(R82 to R84). -/
structure State.Walks (u t : State) (q : PassPlan) (n : Nat) (opens : StrikeEntry → Bool)
    (struck : StrikeEntry → Pin → Bool) (hit : List StrikeEntry) : Prop where
  frame : t = { u with
    channels := t.channels, heat := { u.heat with acc := t.heat.acc }, lists := t.lists, sequ := t.sequ }
  list : t.sequ.list = u.sequ.list
  fraction : t.sequ.fraction = u.sequ.fraction
  drive : t.sequ.driveTime = u.sequ.driveTime
  head : t.sequ.head = u.sequ.head + hit.length
  misses : t.sequ.repairs = (u.sequ.offers (missesOf q.pass n opens struck hit)).repairs ∧
    t.sequ.overflow = (u.sequ.offers (missesOf q.pass n opens struck hit)).overflow
  timer : ∀ j e, hit[j]? = some e → t.sequ.timer e.col =
    if opens e = true ∧ 1 ≤ n then .running n (u.sequ.head + j) else u.sequ.timer e.col
  others : ∀ k, (∀ e ∈ hit, e.col ≠ k) → t.sequ.timer k = u.sequ.timer k
  channel : ∀ p, t.channel p = if hit.any (struck · p) then .drive (u.sequ.driveTime * 10) false else u.channel p
  heat : ∀ p, t.heatOf p = if hit.any (struck · p) then min 65535 (u.heatOf p + u.sequ.driveTime) else u.heatOf p
  lists : ∃ es, t.lists = u.lists.set u.sequ.list.val (.striking { q with entries := es }) ∧
    es.length = q.entries.length ∧ (∀ j, (∀ k, k < hit.length → j ≠ u.sequ.head + k) → es[j]? = q.entries[j]?) ∧
    ∀ j e, hit[j]? = some e → ∃ v, es[u.sequ.head + j]? = some v ∧ v = { e with struckMask := v.struckMask } ∧
      ∀ p : Pin, v.struckMask.getLsbD p.val = (e.struckMask.getLsbD p.val || struck e p)

section
variable {u t : State} {q : PassPlan} {n : Nat} {opens : StrikeEntry → Bool} {struck : StrikeEntry → Pin → Bool}
  {hit : List StrikeEntry}

theorem State.Walks.start (walked : u.lists[u.sequ.list.val] = .striking q) : u.Walks u q n opens struck [] where
  frame := rfl
  list := rfl
  fraction := rfl
  drive := rfl
  head := rfl
  misses := ⟨rfl, rfl⟩
  timer _ _ none := by simp at none
  others _ _ := rfl
  channel _ := rfl
  heat _ := rfl
  lists := ⟨q.entries, by rw [← walked, Vector.set_getElem_self], rfl, fun _ _ => rfl, fun _ _ none => by simp at none⟩

/-- One more entry reached, of the other pin column and of other pins than those before it. -/
theorem State.Walks.reach {e : StrikeEntry} {y : Int} (h : u.Walks t q n opens struck hit)
    (there : q.entries[u.sequ.head + hit.length]? = some e) (trigger : e.trigger = y)
    (apart : ∀ a ∈ hit, a.col ≠ e.col ∧ a.rowMask &&& e.rowMask = 0)
    (hopens : ∀ e, opens e = (u.car.enable && decide (u.sequ.timer e.col = .idle)))
    (hn : n = u.sequ.fraction * u.car.period / 16)
    (hstruck : ∀ e p, struck e p = (opens e && n == 0 && e.rowMask.getLsbD p.val && u.strikable p)) :
    u.Walks (t.reachHead y) q n opens struck (hit ++ [e]) := by
  obtain ⟨es, lists, length, rest, marked⟩ := h.lists
  have car : t.car = u.car := by rw [h.frame]
  have list := h.list
  have head := h.head
  have walked : t.lists[t.sequ.list.val] = .striking { q with entries := es } := by simp [list, lists]
  have unhit (p : Pin) (mem : e.rowMask.getLsbD p.val = true) : hit.any (struck · p) = false := by
    refine List.any_eq_false.mpr fun a ha => ?_
    obtain ⟨-, disjoint⟩ := apart a ha
    have bits : (a.rowMask &&& e.rowMask).getLsbD p.val = false := by rw [disjoint]; exact BitVec.getLsbD_zero
    rw [BitVec.getLsbD_and, mem, Bool.and_true] at bits
    rw [hstruck, bits, Bool.and_false, Bool.false_and]
    exact Bool.false_ne_true
  have fresh : opens e = (t.car.enable && decide (t.sequ.timer e.col = .idle)) := by
    rw [hopens, car, h.others _ fun a ha => (apart a ha).1]
  have hits : struck e = fun p => opens e && n == 0 && e.rowMask.getLsbD p.val && t.strikable p := by
    funext p
    rw [hstruck]
    cases mem : e.rowMask.getLsbD p.val with
    | false => simp
    | true =>
      have channel : t.channel p = u.channel p := by rw [h.channel, unhit p mem]; rfl
      have failed : t.isFailed p = u.isFailed p := State.isFailed_congr (by rw [h.frame]) p
      rw [State.strikable, State.strikable, channel, failed]
  have entry : es[t.sequ.head]? = some e := by
    rw [head, rest _ fun k less => by omega, there]
  obtain ⟨w, fired⟩ := State.reachHead_fired walked entry trigger fresh
    (by rw [car, h.fraction]; exact hn) hits
  have sequ : (t.reachHead y).sequ = (t.sequ.reaching e (opens e && decide (1 ≤ n)) n).offers
      (e.items q.pass ((pinsOf e.rowMask).filter fun p => !(opens e && decide (1 ≤ n)) && !struck e p)) := by
    rw [fired.frame]
  have misses : missesOf q.pass n opens struck (hit ++ [e]) = missesOf q.pass n opens struck hit ++
      e.items q.pass ((pinsOf e.rowMask).filter fun p => !(opens e && decide (1 ≤ n)) && !struck e p) := by
    simp [missesOf]
  have timers (k : PinColumn) : (t.reachHead y).sequ.timer k =
      if k = e.col ∧ (opens e && decide (1 ≤ n)) = true then .running n (u.sequ.head + hit.length) else t.sequ.timer k := by
    rw [sequ, Sequencer.offers_timer, Sequencer.reaching_timer, head]
  have bound : t.sequ.head < es.length := by
    obtain ⟨less, -⟩ := List.getElem?_eq_some_iff.mp entry
    exact less
  have last {j : Nat} {a : StrikeEntry} (at_j : (hit ++ [e])[j]? = some a) :
      hit[j]? = some a ∨ (j = hit.length ∧ a = e) := by
    obtain less | ge := Nat.lt_or_ge j hit.length
    · exact .inl (by rwa [List.getElem?_append_left less] at at_j)
    · rw [List.getElem?_append_right ge, List.getElem?_singleton] at at_j
      split at at_j
      · next zero => exact .inr ⟨by omega, (Option.some.inj at_j).symm⟩
      · cases at_j
  have unstruck (p : Pin) (strikes : struck e p = true) : hit.any (struck · p) = false := by
    refine unhit p ?_
    rw [hstruck] at strikes
    simp only [Bool.and_eq_true] at strikes
    obtain ⟨⟨-, mem⟩, -⟩ := strikes
    exact mem
  have any (p : Pin) : (hit ++ [e]).any (struck · p) = (hit.any (struck · p) || struck e p) := by simp
  refine ⟨?_, ?_, ?_, ?_, ?_, ?_, fun j a at_j => ?_, fun k none => ?_, fun p => ?_, fun p => ?_, es.set t.sequ.head w,
    ?_, ?_, fun j away => ?_, fun j a at_j => ?_⟩
  · rw [fired.frame]
    rw [h.frame]
  · rw [sequ, Sequencer.offers_list, Sequencer.reaching_list, list]
  · rw [sequ, Sequencer.offers_fraction, Sequencer.reaching_fraction, h.fraction]
  · rw [sequ, Sequencer.offers_driveTime, Sequencer.reaching_driveTime, h.drive]
  · rw [sequ, Sequencer.offers_head, Sequencer.reaching_head, head, List.length_append]
    rfl
  · rw [misses, Sequencer.offers_append, sequ]
    exact Sequencer.offers_congr (by rw [Sequencer.reaching_repairs, h.misses.1])
      (by rw [Sequencer.reaching_overflow, h.misses.2]) _
  · obtain before | ⟨rfl, rfl⟩ := last at_j
    · obtain ⟨other, -⟩ := apart a (List.mem_of_getElem? before)
      rw [timers, if_neg fun ⟨same, _⟩ => other same, h.timer j a before]
    · rw [timers, h.others _ fun a ha => (apart a ha).1]
      simp
  · rw [timers, if_neg fun ⟨same, _⟩ => none e (by simp) same.symm, h.others k fun a ha => none a (by simp [ha])]
  · have now := fired.channel p
    rw [Sequencer.reaching_driveTime, h.drive] at now
    rw [now, any]
    cases strikes : struck e p with
    | true => simp
    | false =>
      rw [Bool.or_false]
      exact h.channel p
  · have now := fired.heat p
    rw [Sequencer.reaching_driveTime, h.drive] at now
    rw [now, any]
    have before := h.heat p
    cases strikes : struck e p with
    | true =>
      rw [unstruck p strikes] at before
      have same : t.heatOf p = u.heatOf p := before
      simp only [Bool.or_true, if_true, ← same]
      rfl
    | false =>
      rw [Bool.or_false]
      exact before
  · rw [fired.lists]
    simp [lists, list]
  · rw [List.length_set, length]
  · rw [List.length_append, List.length_singleton] at away
    rw [List.getElem?_set_ne (by rw [head]; exact (away _ (by omega)).symm), rest j fun k less => away k (by omega)]
  · obtain before | ⟨rfl, rfl⟩ := last at_j
    · obtain ⟨v, there, same, marks⟩ := marked j a before
      obtain ⟨less, -⟩ := List.getElem?_eq_some_iff.mp before
      exact ⟨v, by rw [List.getElem?_set_ne (by omega), there], same, marks⟩
    · exact ⟨w, by rw [← head, List.getElem?_set_self bound], fired.entry, fired.marks⟩

end


/-! ## What the Sequencer changes (R80 to R87) -/

/-- `t` differs from `s` at most in what the Sequencer changes. -/
structure State.SequOnly (s t : State) : Prop where
  frame : t = { s with
    channels := t.channels, heat := { s.heat with acc := t.heat.acc }, lists := t.lists, sequ := t.sequ }

theorem State.SequOnly.car {s t : State} (h : s.SequOnly t) : t.car = s.car := by rw [h.frame]

theorem State.SequOnly.refl (s : State) : s.SequOnly s := ⟨rfl⟩

theorem State.SequOnly.trans {s t u : State} (a : s.SequOnly t) (b : t.SequOnly u) : s.SequOnly u where
  frame := by
    have at_t := a.frame
    have at_u := b.frame
    rw [at_t] at at_u
    exact at_u

theorem State.SequOnly.foldl {α : Type} {f : State → α → State} (h : ∀ (s : State) (a : α), s.SequOnly (f s a)) (xs : List α) (s : State) :
    s.SequOnly (xs.foldl f s) := by
  induction xs generalizing s with
  | nil => exact .refl s
  | cons x xs ih => exact (h s x).trans (ih _)

section
variable (s : State)

theorem State.modifySequ_only (f : Sequencer → Sequencer) : s.SequOnly (s.modifySequ f) := ⟨rfl⟩

theorem State.missEntry_only (a : PassId) (e : StrikeEntry) : s.SequOnly (s.missEntry a e) := by
  rw [State.missEntry_eq]
  exact s.modifySequ_only _

theorem State.firePin_only (a : PassId) (i : Nat) (e : StrikeEntry) (p : Pin) : s.SequOnly (s.firePin a i e p) := by
  obtain ⟨-, -, h⟩ | ⟨-, h⟩ := s.firePin_cases a i e p <;> rw [h]
  · exact ⟨by rw [State.markStruck_frame]; rfl⟩
  · exact s.modifySequ_only _

theorem State.fireEntry_only (i : Nat) : s.SequOnly (s.fireEntry i) := by
  unfold State.fireEntry
  split
  · exact .refl s
  · split
    · exact .refl s
    · split
      · exact .foldl (fun t p => t.firePin_only _ i _ p) _ s
      · exact s.missEntry_only _ _

theorem State.armEntry_only (a : PassId) (i : Nat) (e : StrikeEntry) : s.SequOnly (s.armEntry a i e) := by
  unfold State.armEntry
  split
  · exact s.missEntry_only _ _
  · dsimp only
    split
    · exact s.fireEntry_only i
    · exact s.modifySequ_only _

theorem State.reachHead_only (y : Int) : s.SequOnly (s.reachHead y) := by
  unfold State.reachHead
  split
  · exact .refl s
  · split
    · exact .refl s
    · dsimp only
      split
      · split
        · exact (s.modifySequ_only _).trans (State.armEntry_only _ _ _ _)
        · exact (s.modifySequ_only _).trans (State.missEntry_only _ _ _)
      · exact .refl s

theorem State.sequCount_only (d : Dir) (y : Int) : s.SequOnly (s.sequCount d y) := by
  unfold State.sequCount
  split
  · exact (s.reachHead_only y).trans (State.reachHead_only _ y)
  · exact .refl s

theorem State.endTimer_only (c : PinColumn) : s.SequOnly (s.endTimer c) := by
  unfold State.endTimer
  split
  · dsimp only
    split
    · exact (s.modifySequ_only _).trans (State.missEntry_only _ _ _)
    · exact s.modifySequ_only _
  · exact .refl s

theorem State.walkEnd_only : s.SequOnly s.walkEnd := by
  have timers := (s.endTimer_only .colA).trans (State.endTimer_only _ .colB)
  unfold State.walkEnd
  dsimp only
  split
  · exact (timers.trans (.foldl (fun t e => t.missEntry_only _ e) _ _)).trans (State.modifySequ_only _ _)
  · exact timers.trans (State.modifySequ_only _ _)

/-- Against the pass direction a count leaves the Sequencer (R82). -/
theorem State.sequCount_of_against {d : Dir} (against : d ≠ s.sequ.dir) (y : Int) : s.sequCount d y = s :=
  if_neg fun ⟨_, same⟩ => against same

theorem State.sequCount_of_walk {d : Dir} (walking : s.sequ.walking = true) (along : d = s.sequ.dir) (y : Int) :
    s.sequCount d y = (s.reachHead y).reachHead y := if_pos ⟨walking, along⟩

end

/-! ## A count of a trusted carriage in motion (R66, R68, R72) -/

section
variable {s : State} {ch : EncoderChannel} {dt : Nat} {m : CarMotion}

theorem inTravel_iff {w : Width} {x : Int} : inTravel w x = true ↔ 0 ≤ x ∧ x ≤ travelMost w := by
  simp [inTravel]

theorem travelMost_le (w : Width) : travelMost w ≤ 32767 := by
  cases w <;> decide

theorem State.counterInRange_of_travel (low : 0 ≤ s.car.counter) (high : s.car.counter ≤ travelMost s.width) :
    s.counterInRange := by
  have most := travelMost_le s.width
  exact ⟨by omega, by omega⟩

theorem State.counted_counter : (s.counted ch dt).car.counter = s.car.counter + ((s.advance dt).countDir ch).delta := by
  rw [show (s.advance dt).countDir ch = s.countDir ch from rfl, State.countDir_delta]
  rfl

theorem Dir.delta_inj {a b : Dir} : a.delta = b.delta ↔ a = b := by
  cases a <;> cases b <;> decide

/-- The direction of a count by the counter (R61). -/
theorem State.countDir_iff {d : Dir} :
    (s.counted ch dt).car.counter - s.car.counter = d.delta ↔ (s.advance dt).countDir ch = d := by
  rw [State.counted_counter, add_sub_cancel_left, Dir.delta_inj]

theorem State.countChange_in_travel (trusted : s.car.state.trusted = true) (low : 0 ≤ (s.counted ch dt).car.counter)
    (high : (s.counted ch dt).car.counter ≤ travelMost s.width) (motion : s.car.motion = some m) :
    exec (.countChange ch dt) s = .next (match m.leg with
      | .positioning origin => (s.counted ch dt).countPositioning m origin ((s.advance dt).countDir ch)
      | .pass => (s.counted ch dt).countPass m ((s.advance dt).countDir ch)).settle := by
  have inside : (!inTravel (s.counted ch dt).width (s.counted ch dt).car.counter) = false := by
    show (!inTravel s.width _) = false
    rw [inTravel_iff.mpr ⟨low, high⟩]
    rfl
  have held : (s.counted ch dt).car.motion = some m := motion
  rw [State.countChange_advance (State.counterInRange_of_travel low high),
    State.countEffect_of_trusted (s := s.counted ch dt) trusted, State.countTrusted, inside, held]
  rfl

theorem State.countChange_pass (trusted : s.car.state.trusted = true) (low : 0 ≤ (s.counted ch dt).car.counter)
    (high : (s.counted ch dt).car.counter ≤ travelMost s.width) (motion : s.car.motion = some m) (pass : m.leg = .pass) :
    exec (.countChange ch dt) s = .next ((s.counted ch dt).countPass m ((s.advance dt).countDir ch)).settle := by
  rw [State.countChange_in_travel trusted low high motion, pass]

theorem State.countChange_positioning {origin : Int} (trusted : s.car.state.trusted = true)
    (low : 0 ≤ (s.counted ch dt).car.counter) (high : (s.counted ch dt).car.counter ≤ travelMost s.width)
    (motion : s.car.motion = some m) (leg : m.leg = .positioning origin) :
    exec (.countChange ch dt) s =
      .next ((s.counted ch dt).countPositioning m origin ((s.advance dt).countDir ch)).settle := by
  rw [State.countChange_in_travel trusted low high motion, leg]

/-- The carriage after the zones and the window of a count (R68, R70). -/
def Carriage.passed (c : Carriage) (m : CarMotion) (d : Dir) : Carriage :=
  let state := if d = m.dir then passState m c.counter c.state else c.state
  { c with state := state, suspended := suspensionAfter m d c.period state c.suspended }

/-- A count in a pass, short of the end point or against its direction (R68, R70, R82). -/
theorem State.countPass_short {d : Dir} (short : s.car.counter ≠ m.endPoint ∨ d ≠ m.dir) :
    s.countPass m d = ({ s with car := s.car.passed m d } : State).sequCount d s.car.counter := by
  have goes : ¬ (d = m.dir ∧ (({ s with car := s.car.passed m d } : State).sequCount d s.car.counter).car.counter =
      m.endPoint) := by
    rw [(State.sequCount_only _ _ _).car]
    rintro ⟨same, ends⟩
    obtain h | h := short
    · exact h ends
    · exact h same
  exact if_neg goes

end

end Sys2Proof.Machine

namespace Sys2Proof.Machine

/-! ## A count in CRUISE (R70, R82 to R87) -/

section
variable {c : Carriage} {m : CarMotion} {d : Dir}

theorem Carriage.passed_cruise (cruise : c.state = .cruise) (short : c.counter ≠ m.decelFirst) :
    c.passed m d = { c with suspended := !(decide (d = m.dir) && insideWindow m.cls c.period) } := by
  have state : (if d = m.dir then passState m c.counter c.state else c.state) = .cruise := by
    rw [passState, if_neg short, cruise]
    simp
  rw [Carriage.passed, state, cruise.symm, suspensionAfter, if_pos cruise]

theorem Carriage.enable_passed (cruise : c.state = .cruise) (short : c.counter ≠ m.decelFirst) (motion : c.motion = some m)
    (pass : m.leg = .pass) (along : d = m.dir) : (c.passed m d).enable = insideWindow m.cls c.period := by
  rw [Carriage.passed_cruise cruise short, along, Carriage.enable, Carriage.inPass]
  dsimp only
  rw [motion]
  simp [cruise, pass]

end

section
variable {v : State} {q : PassPlan} {y : Int}

/-- A count that reaches the entry at the head pointer alone (R82). -/
theorem State.reachHead_one {n : Nat} {opens : StrikeEntry → Bool} {struck : StrikeEntry → Pin → Bool} {e : StrikeEntry}
    (walked : v.lists[v.sequ.list.val] = .striking q) (there : q.entries[v.sequ.head]? = some e) (trigger : e.trigger = y)
    (next : ∀ b, q.entries[v.sequ.head + 1]? = some b → b.trigger ≠ y)
    (hopens : ∀ e, opens e = (v.car.enable && decide (v.sequ.timer e.col = .idle)))
    (hn : n = v.sequ.fraction * v.car.period / 16)
    (hstruck : ∀ e p, struck e p = (opens e && n == 0 && e.rowMask.getLsbD p.val && v.strikable p)) :
    v.Walks ((v.reachHead y).reachHead y) q n opens struck [e] := by
  have one := (State.Walks.start walked).reach there trigger (fun a none => absurd none List.not_mem_nil) hopens hn hstruck
  obtain ⟨es, lists, -, rest, -⟩ := one.lists
  have stays : (v.reachHead y).reachHead y = v.reachHead y := by
    refine State.reachHead_of_other (q := { q with entries := es }) (by simp [one.list, lists]) fun b at_b => ?_
    have head : (v.reachHead y).sequ.head = v.sequ.head + 1 := one.head
    rw [head, rest _ fun k less => by simp at less; omega] at at_b
    exact next b at_b
  rw [stays]
  exact one

/-- A count that reaches two entries, of the two pin columns (R82). -/
theorem State.reachHead_two {n : Nat} {opens : StrikeEntry → Bool} {struck : StrikeEntry → Pin → Bool} {e b : StrikeEntry}
    (walked : v.lists[v.sequ.list.val] = .striking q) (there : q.entries[v.sequ.head]? = some e) (trigger : e.trigger = y)
    (next : q.entries[v.sequ.head + 1]? = some b) (same : b.trigger = y) (columns : e.col ≠ b.col)
    (pins : e.rowMask &&& b.rowMask = 0)
    (hopens : ∀ e, opens e = (v.car.enable && decide (v.sequ.timer e.col = .idle)))
    (hn : n = v.sequ.fraction * v.car.period / 16)
    (hstruck : ∀ e p, struck e p = (opens e && n == 0 && e.rowMask.getLsbD p.val && v.strikable p)) :
    v.Walks ((v.reachHead y).reachHead y) q n opens struck [e, b] :=
  ((State.Walks.start walked).reach there trigger (fun _ none => absurd none List.not_mem_nil) hopens hn hstruck).reach
    next same (fun a mem => by rw [List.mem_singleton.mp mem]; exact ⟨columns, pins⟩) hopens hn hstruck

/-- Two entries of one trigger count move the head pointer by two (R82). -/
theorem State.reachHead_head_two {e b : StrikeEntry} (walked : v.lists[v.sequ.list.val] = .striking q)
    (there : q.entries[v.sequ.head]? = some e) (trigger : e.trigger = y) (next : q.entries[v.sequ.head + 1]? = some b)
    (same : b.trigger = y) : ((v.reachHead y).reachHead y).sequ.head = v.sequ.head + 2 := by
  obtain ⟨w, first⟩ := State.reachHead_fired walked there trigger rfl rfl rfl
  have head : (v.reachHead y).sequ.head = v.sequ.head + 1 := by
    rw [first.frame, Sequencer.offers_head, Sequencer.reaching_head]
  have there' : (q.entries.set v.sequ.head w)[(v.reachHead y).sequ.head]? = some b := by
    rw [head, List.getElem?_set_ne (by omega), next]
  obtain ⟨w', second⟩ := State.reachHead_fired first.walked there' same rfl rfl rfl
  rw [second.frame, Sequencer.offers_head, Sequencer.reaching_head, head]

end

/-- Settles O41: the count is `State.countPass_short` in CRUISE, and what the Sequencer makes of it is `State.Walks` for one
or for two entries. -/
theorem countReachesTheHeadEntry : Obligations.CountReachesTheHeadEntry := by
  unfold Obligations.CountReachesTheHeadEntry
  intro ch dt s u m q x d i cruise motion pass hu hx low high hd noDecel noEnd walking dir head walked
  have delta : d = m.dir.delta := hd.trans (by cases m.dir <;> rfl)
  subst hu hx
  have trusted : s.car.state.trusted = true := by rw [cruise]; rfl
  have short : (s.counted ch dt).car.counter ≠ m.decelFirst := by
    rw [CarMotion.decelFirst, ← delta]
    exact noDecel
  obtain ⟨v, hv⟩ : ∃ v : State, v = { s.counted ch dt with
      car := (s.counted ch dt).car.passed m ((s.advance dt).countDir ch) } := ⟨_, rfl⟩
  have goes : exec (.countChange ch dt) s = .next (v.sequCount ((s.advance dt).countDir ch)
      (s.counted ch dt).car.counter).settle := by
    rw [State.countChange_pass trusted low high motion pass, State.countPass_short (.inl noEnd), hv]
  have along : (s.counted ch dt).car.counter - s.car.counter = d ↔ (s.advance dt).countDir ch = m.dir := by
    rw [delta, State.countDir_iff]
  have sequ : v.sequ = (s.counted ch dt).sequ := by rw [hv]
  have head' : v.sequ.head = i := by rw [sequ]; exact head
  have walked' : v.lists[v.sequ.list.val] = .striking q := by rw [hv]; exact walked
  have walks (same : (s.counted ch dt).car.counter - s.car.counter = d) : exec (.countChange ch dt) s =
      .next ((v.reachHead (s.counted ch dt).car.counter).reachHead (s.counted ch dt).car.counter).settle := by
    rw [goes, State.sequCount_of_walk]
    · rw [sequ]; exact walking
    · rw [along.mp same, sequ]; exact dir.symm
  refine ⟨fun other => ?_, fun e b same there trigger next trigger' => ?_,
    fun hit n open_ struck missed same hits hn bound hopen hstruck hmissed => ?_⟩
  · refine ⟨_, goes, (State.settle_settling _).sequ.trans ?_⟩
    rw [← sequ]
    by_cases same : (s.counted ch dt).car.counter - s.car.counter = d
    · obtain h | none := other
      · exact absurd same h
      · have stays := State.reachHead_of_other walked' (by rw [head']; exact none)
        rw [State.sequCount_of_walk v (by rw [sequ]; exact walking) (by rw [along.mp same, sequ]; exact dir.symm),
          stays, stays]
    · rw [State.sequCount_of_against]
      rw [sequ]
      exact fun h => same (along.mpr (h.trans dir))
  · refine ⟨_, walks same, ?_⟩
    rw [(State.settle_settling _).sequ, State.reachHead_head_two walked' (by rw [head']; exact there) trigger
      (by rw [head']; exact next) trigger', head']
  · obtain ⟨t, ht⟩ : ∃ t, t = (v.reachHead (s.counted ch dt).car.counter).reachHead (s.counted ch dt).car.counter := ⟨_, rfl⟩
    have enable : v.car.enable = insideWindow m.cls (s.counted ch dt).car.period := by
      rw [hv]
      exact Carriage.enable_passed cruise short motion pass (along.mp same)
    have opens (e : StrikeEntry) : open_ e = (v.car.enable && decide (v.sequ.timer e.col = .idle)) := by
      rw [hopen, enable, sequ]
    have strikes (e : StrikeEntry) (p : Pin) :
        struck e p = (open_ e && n == 0 && e.rowMask.getLsbD p.val && v.strikable p) := by
      rw [hstruck, hv]
      exact Bool.and_assoc _ _ _
    have delay : n = v.sequ.fraction * v.car.period / 16 := by rw [hn, hv]; rfl
    have reached : v.Walks t q n open_ struck hit := by
      obtain ⟨e, rfl, there, trigger, next⟩ | ⟨e, b, rfl, there, trigger, next, trigger', columns, pins⟩ := hits <;> rw [ht]
      · exact State.reachHead_one walked' (by rw [head']; exact there) trigger (by rw [head']; exact next) opens delay strikes
      · exact State.reachHead_two walked' (by rw [head']; exact there) trigger (by rw [head']; exact next) trigger' columns
          pins opens delay strikes
    have misses : missesOf q.pass n open_ struck hit = missed := hmissed.symm
    obtain ⟨repairs, overflow⟩ := reached.misses
    rw [misses, Sequencer.offers_eq (by rw [sequ]; exact bound)] at repairs overflow
    have car : v.car = { (s.counted ch dt).car with suspended := !insideWindow m.cls (s.counted ch dt).car.period } := by
      rw [hv]
      dsimp only
      rw [Carriage.passed_cruise (c := (s.counted ch dt).car) cruise short, along.mp same, decide_eq_true rfl, Bool.true_and]
    have frame := reached.frame
    have timer := reached.timer
    have others := reached.others
    have channel := reached.channel
    have heat := reached.heat
    have lists := reached.lists
    rw [head', sequ] at timer
    rw [sequ] at others channel heat repairs overflow
    rw [head'] at lists
    refine ⟨t, by rw [walks same, ht], ?_, by rw [reached.head, head'], timer, others, fun p => ?_, fun p => ?_, ?_, repairs,
      by rw [overflow, Bool.or_eq_true, decide_eq_true_iff]; rfl⟩
    · rw [frame, car, hv]
    · rw [channel, hv]; rfl
    · rw [heat, hv]; rfl
    · obtain ⟨es, set, rest⟩ := lists
      refine ⟨es, ?_, rest⟩
      subst hv
      exact set

end Sys2Proof.Machine

namespace Sys2Proof.Machine

/-! ## The dots of entries and of the repair list (R51, R87) -/

theorem dotsAt_foldr_insert_nonzero {α : Type} (column : α → Nat) (rows : α → Rows) (xs : List α) (k : Nat) (r : Pin) :
    (dotsAt (xs.foldr (fun x d => if rows x = 0 then d else dotsInsert (column x) (rows x) d) []) k).getLsbD r.val = true ↔
      ∃ x ∈ xs, column x = k ∧ (rows x).getLsbD r.val = true := by
  have filtered : xs.foldr (fun x d => if rows x = 0 then d else dotsInsert (column x) (rows x) d) [] =
      (xs.filter fun x => !decide (rows x = 0)).foldr (fun x d => dotsInsert (column x) (rows x) d) [] := by
    rw [List.foldr_filter]
    congr 1
    funext x d
    by_cases none : rows x = 0 <;> simp [none]
  obtain ⟨-, dots⟩ := dotsAt_foldr_insert column rows (xs.filter fun x => !decide (rows x = 0)) ascending_nil
  rw [filtered, dots]
  constructor
  · rintro (none | ⟨x, mem, at_k, bit⟩)
    · simp at none
    · exact ⟨x, List.mem_of_mem_filter mem, at_k, bit⟩
  · rintro ⟨x, mem, at_k, bit⟩
    refine .inr ⟨x, List.mem_filter.mpr ⟨mem, ?_⟩, at_k, bit⟩
    have some : rows x ≠ 0 := fun none => by rw [none] at bit; simp at bit
    simpa using some

theorem dotsAt_entryDots (p : PassId) (mask : StrikeEntry → Rows) (es : List StrikeEntry) (k : Nat) (r : Pin) :
    (dotsAt (entryDots p mask es) k).getLsbD r.val = true ↔ ∃ e ∈ es, e.column = k ∧ ∃ i : Pin,
      (mask e).getLsbD i.val = true ∧ (r.val : Int) = i.val + p.rowShift := by
  rw [entryDots, dotsAt_foldr_insert_nonzero (·.column) (fun e => p.rowsOfPins (mask e))]
  simp only [PassId.getLsbD_rowsOfPins]

theorem pinBit_getLsbD (n : Nat) (r : Pin) : (pinBit n).getLsbD r.val = true ↔ n = r.val := by
  rw [pinBit, BitVec.getLsbD_shiftLeft, BitVec.getLsbD_one]
  simp
  omega

theorem dotsAt_repairDots (items : List RepairItem) (k : Nat) (r : Pin) :
    (dotsAt (repairDots items) k).getLsbD r.val = true ↔ ∃ i ∈ items, i.column = k ∧ i.row = r.val := by
  rw [repairDots, dotsAt_foldr_insert_nonzero (·.column) (fun i : RepairItem => pinBit i.row)]
  simp only [pinBit_getLsbD]

theorem dotsAt_dotsUnion {d e : DotSet} (nodup : (d.map (·.1)).Nodup) (order : ascending e) :
    ascending (dotsUnion d e) ∧ ∀ k, dotsAt (dotsUnion d e) k = dotsAt d k ||| dotsAt e k := by
  induction d with
  | nil => exact ⟨order, fun k => by simp [dotsUnion]⟩
  | cons x d ih =>
    obtain ⟨c, m⟩ := x
    obtain ⟨fresh, nodup⟩ := List.nodup_cons.mp nodup
    obtain ⟨order', dots⟩ := ih nodup
    obtain ⟨order'', dots'⟩ := dotsInsert_spec c m order'
    refine ⟨order'', fun k => ?_⟩
    show dotsAt (dotsInsert c m (dotsUnion d e)) k = _
    rw [dots', dots, dotsAt_cons]
    by_cases same : k = c
    · subst same
      rw [if_pos rfl, if_pos rfl, dotsAt_of_not_mem fresh, BitVec.or_comm]
      simp
    · rw [if_neg same, if_neg same]
      simp

/-! ## The end of the walk (R85) -/

section
variable {s : State} {q : PassPlan}

/-- The entry of a delay timer still RUNNING (R85). -/
def PassPlan.lateEntry (q : PassPlan) (t : DelayTimer) : List StrikeEntry :=
  match t with
  | .running _ i => q.entries[i]?.toList
  | .idle => []

/-- The misses of entries none of whose pins is struck (R86, R87). -/
def allMisses (a : PassId) (es : List StrikeEntry) : List RepairItem := (es.map fun e => e.items a (pinsOf e.rowMask)).flatten

theorem Sequencer.offers_setTimer (g : Sequencer) (c : PinColumn) (t : DelayTimer) (xs : List RepairItem) :
    (g.setTimer c t).offers xs = (g.offers xs).setTimer c t := by
  induction xs generalizing g with
  | nil => rfl
  | cons x xs ih =>
    have one : (g.setTimer c t).offer x = (g.offer x).setTimer c t := by
      cases c <;>
      · unfold Sequencer.offer Sequencer.setTimer
        dsimp only
        split <;> rfl
    show ((g.setTimer c t).offer x).offers xs = _
    rw [one, ih]
    rfl

theorem allMisses_append (a : PassId) (es fs : List StrikeEntry) :
    allMisses a (es ++ fs) = allMisses a es ++ allMisses a fs := by simp [allMisses]

theorem State.endTimer_eq (walked : s.lists[s.sequ.list.val] = .striking q) (c : PinColumn) :
    s.endTimer c = { s with
      sequ := (s.sequ.offers (allMisses q.pass (q.lateEntry (s.sequ.timer c)))).setTimer c .idle } := by
  unfold State.endTimer
  rw [State.walkedPlan_eq walked]
  cases timer : s.sequ.timer c with
  | idle =>
    have same : s.sequ.setTimer c .idle = s.sequ := by
      cases c <;>
      · simp only [Sequencer.timer] at timer
        simp [Sequencer.setTimer, ← timer]
    show s = { s with sequ := s.sequ.setTimer c .idle }
    rw [same]
  | running n i =>
    dsimp only
    cases there : q.entries[i]? with
    | none => simp [PassPlan.lateEntry, there, allMisses, Sequencer.offers, State.modifySequ]
    | some e =>
      dsimp only
      rw [State.missEntry_eq]
      simp [PassPlan.lateEntry, there, allMisses, State.modifySequ, Sequencer.offers_setTimer]

/-- The end of the walk: the entries of the timers still RUNNING and those not reached are missed (R85). -/
theorem State.walkEnd_eq (walked : s.lists[s.sequ.list.val] = .striking q) {late : List StrikeEntry}
    (hlate : late = q.lateEntry s.sequ.timerA ++ q.lateEntry s.sequ.timerB ++ q.entries.drop s.sequ.head) :
    s.walkEnd = { s with sequ := { s.sequ.offers (allMisses q.pass late) with
      walking := false, timerA := .idle, timerB := .idle } } := by
  have first := State.endTimer_eq walked .colA
  obtain ⟨t, ht⟩ : ∃ t, t = s.endTimer .colA := ⟨_, rfl⟩
  rw [← ht] at first
  have walkedT : t.lists[t.sequ.list.val] = .striking q := by simp [first, Sequencer.setTimer, walked]
  have second := State.endTimer_eq walkedT .colB
  have timerB : t.sequ.timer .colB = s.sequ.timerB := by simp [first, Sequencer.setTimer, Sequencer.timer]
  rw [timerB] at second
  obtain ⟨u, hu⟩ : ∃ u, u = t.endTimer .colB := ⟨_, rfl⟩
  rw [← hu] at second
  have walkedU : u.lists[u.sequ.list.val] = .striking q := by simp [second, Sequencer.setTimer, walkedT]
  have head : u.sequ.head = s.sequ.head := by simp [second, first, Sequencer.setTimer]
  have misses : u.sequ.offers (allMisses q.pass (q.entries.drop s.sequ.head)) =
      ((s.sequ.offers (allMisses q.pass late)).setTimer .colA .idle).setTimer .colB .idle := by
    rw [hlate, allMisses_append, allMisses_append, Sequencer.offers_append, Sequencer.offers_append, second, first]
    simp only [Sequencer.offers_setTimer]
    rfl
  unfold State.walkEnd
  dsimp only
  rw [← ht, ← hu, State.walkedPlan_eq walkedU]
  dsimp only
  rw [State.foldl_missEntry, head]
  show ({ u with sequ := { u.sequ.offers (allMisses q.pass (q.entries.drop s.sequ.head)) with
    walking := false, timerA := .idle, timerB := .idle } } : State) = _
  rw [misses, second, first]
  rfl

end

/-! ## The end of a pass (R50, R53, R54, R56) -/

section
variable {s : State} {c : LineContext} {e : Entry} {es : List Entry}

theorem PerLink.set_get_self {α : Type} (x : PerLink α) (l : Link) : x.set l (x.get l) = x :=
  PerLink.ext_get fun k => by
    rw [PerLink.get_set]
    split
    · next same => rw [same]
    · rfl

/-- The dots struck count, and a substitution pass that struck any sets SUBSTITUTED (R41, R56). -/
theorem State.countStruck_eq (line : s.line = some c) (queue : (s.store.get c.link).queue = e :: es) (q : PassPlan)
    {struck : DotSet} (hs : struck = entryDots q.pass (·.struckMask) q.entries) : s.countStruck q = { s with
      line := some { c with unstruck := dotsDiff c.unstruck struck }
      store := s.store.set c.link { s.store.get c.link with queue := { e with
        result := { e.result with
          substituted := e.result.substituted || (decide (q.rowShift ≠ 0) && !struck.isEmpty) } } :: es } } := by
  have counted : s.modifyLine (fun c => { c with unstruck := dotsDiff c.unstruck struck }) =
      { s with line := some { c with unstruck := dotsDiff c.unstruck struck } } := by
    rw [State.modifyLine, line]
    rfl
  have flag : (q.rowShift ≠ 0 ∧ (!struck.isEmpty) = true) ↔ (decide (q.rowShift ≠ 0) && !struck.isEmpty) = true := by
    rw [Bool.and_eq_true, decide_eq_true_iff]
  rw [State.countStruck, line]
  dsimp only
  rw [← hs, counted]
  cases any : (decide (q.rowShift ≠ 0) && !struck.isEmpty) with
  | true =>
    rw [if_pos (flag.mpr any), Bool.or_true]
    exact State.modifyResult_eq (s := { s with line := some { c with unstruck := dotsDiff c.unstruck struck } }) queue _
  | false =>
    have same : s.store.set c.link { s.store.get c.link with queue := e :: es } = s.store := by
      rw [← queue]
      exact PerLink.set_get_self _ _
    rw [if_neg (fun h => by rw [flag.mp h] at any; cases any), Bool.or_false]
    show _ = ({ s with line := _, store := s.store.set c.link { s.store.get c.link with queue := e :: es } } : State)
    rw [same]

theorem State.loseDots_of_line (line : s.line = some c) (d : DotSet) (degraded : Bool) : s.loseDots d degraded =
    (s.modifyResult c.link (·.lose (dotsCount (dotsInter c.unstruck d)) degraded)).modifyLine
      fun x => { x with unstruck := dotsDiff x.unstruck (dotsInter c.unstruck d) } := by
  rw [State.loseDots, line]

/-- The lists are nothing to the dots lost. -/
theorem State.loseDots_setLists (line : s.line = some c) (v : Vector StrikeList 2) (d : DotSet) (degraded : Bool) :
    ({ s with lists := v } : State).loseDots d degraded = { s.loseDots d degraded with lists := v } := by
  rw [State.loseDots_of_line (s := { s with lists := v }) line, State.loseDots_of_line line]
  rfl

/-- The repair candidates are nothing to the dots lost. -/
theorem State.loseDots_setRepairs (line : s.line = some c) (r : DotSet) (d : DotSet) (degraded : Bool) :
    (s.modifyLine fun c => { c with repairs := r }).loseDots d degraded =
      (s.loseDots d degraded).modifyLine fun c => { c with repairs := r } := by
  have line' : (s.modifyLine fun c => { c with repairs := r }).line = some { c with repairs := r } := by
    rw [State.modifyLine, line]
    rfl
  rw [State.loseDots_of_line line', State.loseDots_of_line line]
  simp only [State.modifyLine, State.modifyResult_line, line]
  rfl

theorem State.freeStriking_eq {i : Fin 2} {q : PassPlan} (only : s.StrikesOnly i q) :
    s.freeStriking = { s with lists := s.lists.set i.val .free } := by
  obtain ⟨striking, others⟩ := only
  have freed : s.lists.map (fun x => if x.isStriking then .free else x) = s.lists.set i.val .free := by
    refine mapLists_eq_set (by rw [striking]; rfl) fun j ne => ?_
    rw [others j ne]
    rfl
  rw [State.freeStriking, freed]

theorem State.freeStriking_loseDots {i : Fin 2} {q : PassPlan} (only : s.StrikesOnly i q) (line : s.line = some c)
    (d : DotSet) (degraded : Bool) : (s.loseDots d degraded).freeStriking =
      ({ s with lists := s.lists.set i.val .free } : State).loseDots d degraded := by
  have lists := s.loseDots_lists d degraded
  have only' : (s.loseDots d degraded).StrikesOnly i q := by
    unfold State.StrikesOnly
    rw [lists]
    exact only
  have freed : (s.loseDots d degraded).lists.set i.val .free = s.lists.set i.val .free := by rw [lists]
  exact (State.freeStriking_eq only').trans ((congrArg (fun v => { s.loseDots d degraded with lists := v }) freed).trans
    (State.loseDots_setLists line _ d degraded).symm)

/-- What becomes of the misses of a pass whose struck dots are counted, and its list FREE (R50, R53, R54, R56). -/
theorem State.disposeMisses_eq {i : Fin 2} {q : PassPlan} {u : DotSet → State} {missed : DotSet}
    (only : s.StrikesOnly i q) (line : s.line = some c)
    (hm : missed = entryDots q.pass (fun e => e.rowMask &&& ~~~e.struckMask) q.entries)
    (hu : ∀ r, u r = { s with line := some { c with repairs := r }, lists := s.lists.set i.val .free }) :
    (∀ h, q.pass = .main h → s.sequ.overflow = false →
      (s.disposeMisses q).freeStriking = u (dotsUnion (repairDots s.sequ.repairs) c.repairs)) ∧
    (∀ h, q.pass = .main h → s.sequ.overflow = true → (s.disposeMisses q).freeStriking =
      (u (dotsUnion (repairDots s.sequ.repairs) c.repairs)).loseDots
        (dotsInRows (~~~s.failedPins) (dotsDiff missed (repairDots s.sequ.repairs))) false) ∧
    (q.pass = .repair → (s.disposeMisses q).freeStriking =
      (u []).loseDots (dotsInRows (~~~s.failedPins) missed) false) ∧
    (∀ h, q.pass = .up h ∨ q.pass = .down h → (s.disposeMisses q).freeStriking = (u c.repairs).loseDots missed false) := by
  obtain ⟨w, hw⟩ : ∃ w : DotSet → State, ∀ r, w r = { s with line := some { c with repairs := r } } := ⟨_, fun _ => rfl⟩
  have only' (r : DotSet) : (w r).StrikesOnly i q := by rw [hw]; exact only
  have line' (r : DotSet) : (w r).line = some { c with repairs := r } := by rw [hw]
  have held (r : DotSet) : s.modifyLine (fun c => { c with repairs := r }) = w r := by
    rw [hw, State.modifyLine, line]
    rfl
  have listed : s.modifyLine (fun x => { x with repairs := dotsUnion (repairDots s.sequ.repairs) x.repairs }) =
      w (dotsUnion (repairDots s.sequ.repairs) c.repairs) := by
    rw [hw, State.modifyLine, line]
    rfl
  have freed (r : DotSet) : { w r with lists := (w r).lists.set i.val .free } = u r := by rw [hw, hu]
  have same : w c.repairs = s := by
    rw [hw, ← line]
  refine ⟨fun h pass clear => ?_, fun h pass past => ?_, fun pass => ?_, fun h pass => ?_⟩
  · have disposed : s.disposeMisses q = w (dotsUnion (repairDots s.sequ.repairs) c.repairs) := by
      unfold State.disposeMisses
      rw [pass]
      dsimp only
      rw [listed, hw, clear]
      rfl
    rw [disposed, State.freeStriking_eq (only' _), freed]
  · have disposed : s.disposeMisses q = (w (dotsUnion (repairDots s.sequ.repairs) c.repairs)).loseDots
        (dotsInRows (~~~s.failedPins) (dotsDiff missed (repairDots s.sequ.repairs))) false := by
      rw [hm]
      unfold State.disposeMisses
      rw [pass]
      dsimp only
      rw [listed, hw, past]
      rfl
    rw [disposed, State.freeStriking_loseDots (only' _) (line' _), freed]
  · have disposed : s.disposeMisses q = (w []).loseDots (dotsInRows (~~~s.failedPins) missed) false := by
      rw [hm, ← held, State.loseDots_setRepairs line]
      unfold State.disposeMisses
      rw [pass]
    rw [disposed, State.freeStriking_loseDots (only' _) (line' _), freed]
  · have disposed : s.disposeMisses q = (w c.repairs).loseDots missed false := by
      rw [hm, same]
      unfold State.disposeMisses
      obtain pass | pass := pass <;> rw [pass]
    rw [disposed, State.freeStriking_loseDots (only' _) (line' _), freed]

end

end Sys2Proof.Machine

namespace Sys2Proof.Machine

/-! ## The counts of a pass and of a positioning move (R67, R68, R70) -/

section
variable {s : State} {ch : EncoderChannel} {dt : Nat} {m : CarMotion}

/-- A count of a pass short of its end point or against its direction: the zones and the window of the carriage, and against
the direction nothing of the Sequencer (R68, R70, R82). -/
theorem State.countChange_short (trusted : s.car.state.trusted = true) (low : 0 ≤ (s.counted ch dt).car.counter)
    (high : (s.counted ch dt).car.counter ≤ travelMost s.width) (motion : s.car.motion = some m) (pass : m.leg = .pass)
    (short : (s.counted ch dt).car.counter ≠ m.endPoint ∨ (s.advance dt).countDir ch ≠ m.dir) :
    ∃ t, exec (.countChange ch dt) s = .next t ∧
      t.car = (s.counted ch dt).car.passed m ((s.advance dt).countDir ch) ∧
      ((s.advance dt).countDir ch ≠ s.sequ.dir → t.sequ = (s.counted ch dt).sequ) := by
  refine ⟨_, State.countChange_pass trusted low high motion pass, ?_, fun against => ?_⟩
  · rw [State.countPass_short short, (State.settle_settling _).car, (State.sequCount_only _ _ _).car]
  · rw [State.countPass_short short, State.sequCount_of_against, (State.settle_settling _).sequ]
    exact against

theorem State.countPass_end (ends : s.car.counter = m.endPoint) :
    s.countPass m m.dir =
      (({ s with car := s.car.passed m m.dir } : State).sequCount m.dir s.car.counter).finishPass := by
  have goes : m.dir = m.dir ∧ (({ s with car := s.car.passed m m.dir } : State).sequCount m.dir s.car.counter).car.counter =
      m.endPoint := by
    rw [(State.sequCount_only _ _ _).car]
    exact ⟨rfl, ends⟩
  exact if_pos goes

theorem Carriage.passed_along {c : Carriage} (state : CarState) (hs : passState m c.counter c.state = state) :
    (c.passed m m.dir).state = state ∧ (c.passed m m.dir).motion = c.motion := by
  rw [Carriage.passed, if_pos rfl, hs]
  exact ⟨rfl, rfl⟩

theorem Carriage.passed_against {c : Carriage} {d : Dir} (against : d ≠ m.dir) :
    (c.passed m d).state = c.state ∧ (c.passed m d).motion = c.motion := by
  rw [Carriage.passed, if_neg against]
  exact ⟨rfl, rfl⟩

/-- Outside CRUISE the strike enable is off (R69). -/
theorem Carriage.enable_of_state {c : Carriage} (other : c.state ≠ .cruise) : c.enable = false := by
  simp [Carriage.enable, other]

theorem passState_decel {x : Int} {held : CarState} (decel : x = m.decelFirst) : passState m x held = .rampDown := if_pos decel

theorem passState_cruise {x : Int} (short : x ≠ m.decelFirst) (first : x = m.cruiseFirst) :
    passState m x .rampUp = .cruise := by
  rw [passState, if_neg short, if_pos ⟨first, rfl⟩]

theorem passState_stays {x : Int} {held : CarState} (short : x ≠ m.decelFirst) (other : x ≠ m.cruiseFirst ∨ held ≠ .rampUp) :
    passState m x held = held := by
  rw [passState, if_neg short, if_neg]
  rintro ⟨first, up⟩
  obtain h | h := other
  · exact h first
  · exact h up

theorem passState_rampDown (m : CarMotion) (x : Int) : passState m x .rampDown = .rampDown := by
  unfold passState
  split
  · rfl
  · exact if_neg fun ⟨_, up⟩ => CarState.noConfusion up

/-- The end of a pass: the carriage is STOPPED and the Sequencer IDLE, with its report handed over (R68, R80, R85). -/
theorem State.finishPass_ends (s : State) :
    s.finishPass.car = { s.car with state := .stopped, motion := none, suspended := false } ∧
    s.finishPass.sequ.walking = false ∧ s.finishPass.sequ.timerA = .idle ∧ s.finishPass.sequ.timerB = .idle ∧
    s.finishPass.sequ.repairs = [] ∧ s.finishPass.sequ.overflow = false := by
  obtain ⟨w, hw⟩ : ∃ w : State, w = (s.modifyCar fun c => { c with state := .stopped, motion := none, suspended := false }) :=
    ⟨_, rfl⟩
  have car : w.walkEnd.endPass.car = w.walkEnd.car := (State.endPass_lineOnly _).settling.car
  have sequ : w.walkEnd.endPass.sequ = w.walkEnd.sequ := (State.endPass_lineOnly _).settling.sequ
  have finish : s.finishPass = w.walkEnd.endPass.handOver := by rw [hw]; rfl
  have idle : w.walkEnd.sequ.walking = false ∧ w.walkEnd.sequ.timerA = .idle ∧ w.walkEnd.sequ.timerB = .idle :=
    ⟨rfl, rfl, rfl⟩
  rw [finish]
  refine ⟨?_, ?_⟩
  · show w.walkEnd.endPass.car = _
    rw [car, w.walkEnd_only.car, hw]
    rfl
  · show w.walkEnd.endPass.sequ.walking = _ ∧ w.walkEnd.endPass.sequ.timerA = _ ∧ w.walkEnd.endPass.sequ.timerB = _ ∧ _
    rw [sequ]
    obtain ⟨walking, timerA, timerB⟩ := idle
    exact ⟨walking, timerA, timerB, rfl, rfl⟩

/-- The carriage at the start point of its pass (R68, R70). -/
theorem State.startPass_car (s : State) : s.startPass.car = { s.car with
    state := .rampUp, suspended := false, motion := s.car.motion.map fun m => { m with leg := .pass } } := by
  have walk (t : State) : t.walkStart.car = t.car := by
    unfold State.walkStart
    split
    · rfl
    · split <;> rfl
  unfold State.startPass
  dsimp only
  split
  · split <;> exact walk _
  · exact walk _

/-- The direction of a positioning move (R67). -/
theorem dirToward_iff {o x : Int} {d : Dir} : (d.delta = 1 ↔ o ≤ x) ↔ d = dirToward o x := by
  unfold dirToward
  by_cases le : o ≤ x <;> cases d <;> simp [le, Dir.delta]

theorem State.countChange_start {o : Int} (trusted : s.car.state.trusted = true) (low : 0 ≤ (s.counted ch dt).car.counter)
    (high : (s.counted ch dt).car.counter ≤ travelMost s.width) (motion : s.car.motion = some m)
    (leg : m.leg = .positioning o) (along : (s.advance dt).countDir ch = dirToward o m.startPoint)
    (start : (s.counted ch dt).car.counter = m.startPoint) : ∃ t, exec (.countChange ch dt) s = .next t ∧
      t.car.state = .rampUp ∧ t.car.motion = some { m with leg := .pass } ∧ t.car.suspended = false := by
  refine ⟨_, State.countChange_positioning trusted low high motion leg, ?_⟩
  have held : (s.counted ch dt).car.motion = some m := motion
  rw [(State.settle_settling _).car, State.countPositioning, if_neg (not_not.mpr along), if_pos start,
    State.startPass_car, held]
  exact ⟨rfl, rfl, rfl⟩

theorem State.countChange_on_way {o : Int} (trusted : s.car.state.trusted = true) (low : 0 ≤ (s.counted ch dt).car.counter)
    (high : (s.counted ch dt).car.counter ≤ travelMost s.width) (motion : s.car.motion = some m)
    (leg : m.leg = .positioning o) (along : (s.advance dt).countDir ch = dirToward o m.startPoint)
    (short : (s.counted ch dt).car.counter ≠ m.startPoint) : ∃ t, exec (.countChange ch dt) s = .next t ∧
      t.car.state = positioningState m.cls.ramp (m.startPoint - o).natAbs
        (((s.counted ch dt).car.counter - o) * (dirToward o m.startPoint).delta) s.car.state ∧ t.car.motion = some m := by
  refine ⟨_, State.countChange_positioning trusted low high motion leg, ?_⟩
  rw [(State.settle_settling _).car, State.countPositioning, if_neg (not_not.mpr along), if_neg short, along]
  exact ⟨rfl, motion⟩

theorem State.countChange_back {o : Int} (trusted : s.car.state.trusted = true) (low : 0 ≤ (s.counted ch dt).car.counter)
    (high : (s.counted ch dt).car.counter ≤ travelMost s.width) (motion : s.car.motion = some m)
    (leg : m.leg = .positioning o) (against : (s.advance dt).countDir ch ≠ dirToward o m.startPoint) :
    ∃ t, exec (.countChange ch dt) s = .next t ∧ t.car = (s.counted ch dt).car := by
  refine ⟨_, State.countChange_positioning trusted low high motion leg, ?_⟩
  rw [(State.settle_settling _).car, State.countPositioning, if_pos against]

end

/-! ## The velocity window (R70) -/

theorem insideWindow_iff (cls : SpeedClass) (p : Nat) :
    insideWindow cls p = true ↔ 7 * nominalPeriod cls ≤ 8 * p ∧ 8 * p ≤ 9 * nominalPeriod cls := by
  simp [insideWindow]

theorem insideWindow_bounds (p : Nat) : (insideWindow .draft p = true ↔ 608 ≤ p ∧ p ≤ 780) ∧
    (insideWindow .normal p = true ↔ 810 ≤ p ∧ p ≤ 1040) ∧ (insideWindow .heavy p = true ↔ 1215 ≤ p ∧ p ≤ 1561) ∧
    (insideWindow .creep p = true ↔ 2430 ≤ p ∧ p ≤ 3124) := by
  have draft : nominalPeriod .draft = 694 := by decide
  have normal : nominalPeriod .normal = 925 := by decide
  have heavy : nominalPeriod .heavy = 1388 := by decide
  have creep : nominalPeriod .creep = 2777 := by decide
  simp only [insideWindow_iff, draft, normal, heavy, creep]
  omega


theorem Carriage.enable_of_positioning {c : Carriage} {m : CarMotion} {o : Int} (motion : c.motion = some m)
    (leg : m.leg = .positioning o) : c.enable = false := by
  rw [Carriage.enable, Carriage.inPass, motion]
  simp [leg]

/-! ## The counts of a pass, one by one (R68, R70) -/

/-- What O34 says of the counts of a pass. -/
theorem passCounts (ch : EncoderChannel) (dt : Nat) (s : State) (m : CarMotion) (x d : Int) (motion : s.car.motion = some m)
    (pass : m.leg = .pass) (hx : x = (s.counted ch dt).car.counter) (hd : d = m.dir.delta) (low : 0 ≤ x)
    (high : x ≤ travelMost s.width) :
    (s.car.state = .rampUp → x - s.car.counter = d → x = m.firstTrigger - 12 * d → x ≠ m.lastTrigger + 13 * d →
      x ≠ m.endPoint → ∃ t : State, exec (.countChange ch dt) s = .next t ∧ t.car.state = .cruise) ∧
    (s.car.state = .cruise → x - s.car.counter = d → x = m.lastTrigger + 13 * d → x ≠ m.endPoint →
      ∃ t : State, exec (.countChange ch dt) s = .next t ∧ t.car.state = .rampDown ∧ t.car.enable = false) ∧
    (s.car.state = .rampDown → x - s.car.counter = d → x = m.endPoint →
      ∃ t : State, exec (.countChange ch dt) s = .next t ∧ t.car.state = .stopped ∧ t.car.motion = none ∧
        t.sequ.walking = false ∧ t.sequ.timerA = .idle ∧ t.sequ.timerB = .idle ∧ t.sequ.repairs = [] ∧
        t.sequ.overflow = false) ∧
    (s.car.state = .rampUp → x - s.car.counter = d → x ≠ m.firstTrigger - 12 * d → x ≠ m.lastTrigger + 13 * d →
      x ≠ m.endPoint → ∃ t : State, exec (.countChange ch dt) s = .next t ∧ t.car.state = .rampUp ∧
        t.car.motion = some m ∧ t.car.enable = false) ∧
    (s.car.state = .rampDown → x - s.car.counter = d → x ≠ m.endPoint → ∃ t : State,
      exec (.countChange ch dt) s = .next t ∧ t.car.state = .rampDown ∧ t.car.motion = some m ∧ t.car.enable = false) ∧
    (s.car.state = .rampUp ∨ s.car.state = .cruise ∨ s.car.state = .rampDown → x - s.car.counter ≠ d → ∃ t : State,
      exec (.countChange ch dt) s = .next t ∧ t.car.state = s.car.state ∧ t.car.motion = some m ∧
        (s.sequ.dir = m.dir → t.sequ = (s.counted ch dt).sequ)) ∧
    (∀ q, s.car.state = .rampDown → x - s.car.counter = d → x = m.endPoint → s.lists[s.sequ.list.val] = .striking q →
      (∀ e, q.entries[s.sequ.head]? = some e → e.trigger ≠ x) →
      exec (.countChange ch dt) s = .next (({ s.counted ch dt with
        car := { (s.counted ch dt).car with state := .stopped, motion := none, suspended := false } }).walkEnd.endPass.handOver.settle)) ∧
    (s.car.state = .cruise → x ≠ m.lastTrigger + 13 * d → x ≠ m.endPoint →
      ∃ t : State, exec (.countChange ch dt) s = .next t ∧ t.car.state = .cruise ∧
        (t.car.suspended = false ↔ x - s.car.counter = d ∧ insideWindow m.cls (s.counted ch dt).car.period = true)) := by
  have along : x - s.car.counter = d ↔ (s.advance dt).countDir ch = m.dir := by rw [hx, hd, State.countDir_iff]
  have cruiseFirst : m.cruiseFirst = m.firstTrigger - 12 * d := by rw [hd]; rfl
  have decelFirst : m.decelFirst = m.lastTrigger + 13 * d := by rw [hd]; rfl
  rw [← cruiseFirst, ← decelFirst]
  rw [hx] at low high
  have motion' : (s.counted ch dt).car.motion = some m := motion
  have short (trusted : s.car.state.trusted = true) (h : x ≠ m.endPoint ∨ x - s.car.counter ≠ d) :=
    State.countChange_short trusted low high motion pass (by rw [← hx]; exact h.imp_right fun h same => h (along.mpr same))
  have step {state : CarState} (trusted : s.car.state.trusted = true) (same : x - s.car.counter = d)
      (none : x ≠ m.endPoint) (hs : passState m x s.car.state = state) :
      ∃ t : State, exec (.countChange ch dt) s = .next t ∧ t.car.state = state ∧ t.car.motion = some m := by
    obtain ⟨t, goes, car, -⟩ := short trusted (.inl none)
    obtain ⟨passed, held⟩ := Carriage.passed_along (c := (s.counted ch dt).car) (m := m) state (by rw [← hx]; exact hs)
    rw [along.mp same] at car
    exact ⟨t, goes, by rw [car, passed], by rw [car, held, motion']⟩
  have ends (trusted : s.car.state.trusted = true) (same : x - s.car.counter = d) (point : x = m.endPoint) :
      exec (.countChange ch dt) s = .next (({ s.counted ch dt with car := (s.counted ch dt).car.passed m m.dir } : State).sequCount
        m.dir x).finishPass.settle := by
    rw [State.countChange_pass trusted low high motion pass, along.mp same, State.countPass_end (hx.symm.trans point), hx]
  refine ⟨fun up same first decel none => ?_, fun cruise same decel none => ?_, fun down same point => ?_,
    fun up same first decel none => ?_, fun down same none => ?_, fun state against => ?_,
    fun q down same point walked other => ?_, fun cruise decel none => ?_⟩
  · obtain ⟨t, goes, state, -⟩ := step (state := .cruise) (by rw [up]; rfl) same none
      (by rw [up]; exact passState_cruise decel first)
    exact ⟨t, goes, state⟩
  · obtain ⟨t, goes, state, -⟩ := step (by rw [cruise]; rfl) same none (passState_decel decel)
    exact ⟨t, goes, state, Carriage.enable_of_state (by rw [state]; exact CarState.noConfusion)⟩
  · refine ⟨_, ends (by rw [down]; rfl) same point, ?_⟩
    obtain ⟨car, idle⟩ := State.finishPass_ends (({ s.counted ch dt with
      car := (s.counted ch dt).car.passed m m.dir } : State).sequCount m.dir x)
    rw [(State.settle_settling _).car, (State.settle_settling _).sequ, car]
    exact ⟨rfl, rfl, idle⟩
  · obtain ⟨t, goes, state, held⟩ := step (by rw [up]; rfl) same none (passState_stays decel (.inl first))
    rw [up] at state
    exact ⟨t, goes, state, held, Carriage.enable_of_state (by rw [state]; exact CarState.noConfusion)⟩
  · obtain ⟨t, goes, state, held⟩ := step (state := .rampDown) (by rw [down]; rfl) same none
      (by rw [down]; exact passState_rampDown m x)
    exact ⟨t, goes, state, held, Carriage.enable_of_state (by rw [state]; exact CarState.noConfusion)⟩
  · have trusted : s.car.state.trusted = true := by obtain h | h | h := state <;> rw [h] <;> rfl
    obtain ⟨t, goes, car, sequ⟩ := short trusted (.inr against)
    obtain ⟨kept, held⟩ := Carriage.passed_against (c := (s.counted ch dt).car) fun same => against (along.mpr same)
    exact ⟨t, goes, by rw [car, kept]; rfl, by rw [car, held, motion'],
      fun dir => sequ fun same => against (along.mpr (same.trans dir))⟩
  · obtain ⟨v, hv⟩ : ∃ v : State, v = { s.counted ch dt with car := (s.counted ch dt).car.passed m m.dir } := ⟨_, rfl⟩
    have stays : v.sequCount m.dir x = v := by
      have walkedV : v.lists[v.sequ.list.val] = .striking q := by rw [hv]; exact walked
      have still := State.reachHead_of_other walkedV (y := x) (by rw [hv]; exact other)
      unfold State.sequCount
      split
      · rw [still, still]
      · rfl
    rw [ends (by rw [down]; rfl) same point, ← hv, stays, hv]
    rfl
  · obtain ⟨t, goes, car, -⟩ := short (by rw [cruise]; rfl) (.inl none)
    rw [Carriage.passed_cruise (c := (s.counted ch dt).car) cruise (by rw [← hx]; exact decel)] at car
    refine ⟨t, goes, by rw [car]; exact cruise, ?_⟩
    rw [car, along]
    simp

/-! ## The counts of a positioning move, one by one (R67) -/

/-- What O34 says of the counts of a positioning move. -/
theorem positioningCounts (ch : EncoderChannel) (dt : Nat) (s : State) (m : CarMotion) (o x k : Int) (n : Nat)
    (motion : s.car.motion = some m) (leg : m.leg = .positioning o) (trusted : s.car.state.trusted = true)
    (hx : x = (s.counted ch dt).car.counter) (low : 0 ≤ x) (high : x ≤ travelMost s.width)
    (hn : n = (m.startPoint - o).natAbs) (hk : k = if o ≤ m.startPoint then x - o else o - x) :
    ((x - s.car.counter = 1 ↔ o ≤ m.startPoint) →
      (x = m.startPoint → ∃ t : State, exec (.countChange ch dt) s = .next t ∧ t.car.state = .rampUp ∧
        t.car.motion = some { m with leg := .pass } ∧ t.car.suspended = false) ∧
      (x ≠ m.startPoint → k = (n - min m.cls.ramp (n - n / 2) : Nat) →
        ∃ t : State, exec (.countChange ch dt) s = .next t ∧ t.car.state = .rampDown) ∧
      (x ≠ m.startPoint → s.car.state = .rampUp → k = min m.cls.ramp (n / 2) → k ≠ (n - min m.cls.ramp (n - n / 2) : Nat) →
        ∃ t : State, exec (.countChange ch dt) s = .next t ∧ t.car.state = .cruise ∧ t.car.enable = false) ∧
      (x ≠ m.startPoint → k ≠ min m.cls.ramp (n / 2) → k ≠ (n - min m.cls.ramp (n - n / 2) : Nat) →
        ∃ t : State, exec (.countChange ch dt) s = .next t ∧ t.car.state = s.car.state)) ∧
    ((x - s.car.counter = 1 ↔ ¬ o ≤ m.startPoint) →
      ∃ t : State, exec (.countChange ch dt) s = .next t ∧ t.car.state = s.car.state ∧ t.car.motion = some m) := by
  rw [hx] at low high
  have delta : x - s.car.counter = ((s.advance dt).countDir ch).delta := by rw [hx, State.counted_counter, add_sub_cancel_left]
  have toward : ((x - s.car.counter = 1) ↔ o ≤ m.startPoint) ↔ (s.advance dt).countDir ch = dirToward o m.startPoint := by
    rw [delta, dirToward_iff]
  have made : (x - o) * (dirToward o m.startPoint).delta = k := by
    rw [hk, dirToward]
    split <;> simp [Dir.delta]
  have way (along : x - s.car.counter = 1 ↔ o ≤ m.startPoint) (short : x ≠ m.startPoint) :
      ∃ t, exec (.countChange ch dt) s = .next t ∧
        t.car.state = positioningState m.cls.ramp n k s.car.state ∧ t.car.motion = some m := by
    have goes := State.countChange_on_way trusted low high motion leg (toward.mp along) (by rw [← hx]; exact short)
    rwa [← hn, ← hx, made] at goes
  refine ⟨fun along => ⟨fun start => ?_, fun short decel => ?_, fun short up accel other => ?_, fun short other other' => ?_⟩,
    fun against => ?_⟩
  · exact State.countChange_start trusted low high motion leg (toward.mp along) (hx.symm.trans start)
  · obtain ⟨t, goes, state, -⟩ := way along short
    exact ⟨t, goes, state.trans (if_pos decel)⟩
  · obtain ⟨t, goes, state, held⟩ := way along short
    exact ⟨t, goes, state.trans ((if_neg other).trans (if_pos ⟨accel, up⟩)), Carriage.enable_of_positioning held leg⟩
  · obtain ⟨t, goes, state, -⟩ := way along short
    exact ⟨t, goes, state.trans ((if_neg other').trans (if_neg fun ⟨accel, _⟩ => other accel))⟩
  · have back : (s.advance dt).countDir ch ≠ dirToward o m.startPoint := fun same => by
      have both := toward.mpr same
      tauto
    obtain ⟨t, goes, car⟩ := State.countChange_back trusted low high motion leg back
    exact ⟨t, goes, by rw [car]; rfl, by rw [car]; exact motion⟩

/-- Settles O34: the window by `insideWindow_bounds`, the counts by `passCounts` and the positioning lemmas, the end of the
walk by `State.walkEnd_eq`, and the end of the pass by `State.countStruck_eq` and `State.disposeMisses_eq`. -/
theorem passFollowsZonesAndWindow : Obligations.PassFollowsZonesAndWindow := by
  unfold Obligations.PassFollowsZonesAndWindow
  refine ⟨insideWindow_bounds, fun ch dt s m x d motion pass hx hd low high => ?_,
    fun ch dt s m o x k n motion leg trusted hx low high hn hk => ?_, fun s m motion pass cruise => ?_,
    fun s q late missed walked bound hlate hmissed => ?_,
    fun s i q c e es struck missed u striking others line queue hstruck hmissed hu => ?_,
    fun p mask es items k r => ⟨?_, dotsAt_repairDots items k r⟩, fun d e k nodup order => ?_⟩
  · exact passCounts ch dt s m x d motion pass hx (hd.trans (by cases m.dir <;> rfl)) low high
  · exact positioningCounts ch dt s m o x k n motion leg trusted hx low high hn hk
  · have held : s.car.openPeriod = { s.car with
        suspended := true, periodTimer := max s.car.periodTimer (9 * nominalPeriod m.cls / 8 + 1) } := by
      have inPass : s.car.inPass = true := by
        rw [Carriage.inPass, motion]
        exact decide_eq_true pass
      unfold Carriage.openPeriod
      split
      · next m' held =>
        obtain rfl := Option.some.inj (held.symm.trans motion)
        exact if_pos (And.intro inPass cruise)
      · next none => cases none.symm.trans motion
    exact congrArg (fun c => Host.Outcome.next ({ s with car := c } : State)) held
  · have late' : late = q.lateEntry s.sequ.timerA ++ q.lateEntry s.sequ.timerB ++ q.entries.drop s.sequ.head := by
      rw [hlate]
      cases s.sequ.timerA <;> cases s.sequ.timerB <;> rfl
    have misses : allMisses q.pass late = missed := hmissed.symm
    refine ⟨s.sequ.overflow || decide (5120 < s.sequ.repairs.length + missed.length), ?_, ?_⟩
    · rw [State.walkEnd_eq walked late', misses, Sequencer.offers_eq bound]
    · rw [Bool.or_eq_true, decide_eq_true_iff]
  · have only : s.StrikesOnly i q := ⟨striking, fun j ne => by
      cases h : s.lists[j.val].isStriking with
      | false => rfl
      | true =>
        obtain ⟨x, at_j⟩ := (StrikeList.isStriking_iff _).mp h
        exact absurd at_j (others j ne x)⟩
    have counted := State.countStruck_eq line queue q hstruck
    have ends : s.endPass = (((s.countStruck q).disposeMisses q).freeStriking).afterPass q.pass := by
      rw [State.endPass, only.strikingPlan]
    have onlyW : (s.countStruck q).StrikesOnly i q := by rw [counted]; exact only
    obtain ⟨main, lost, repair, sub⟩ := State.disposeMisses_eq (s := s.countStruck q) (u := u)
      (c := { c with unstruck := dotsDiff c.unstruck struck }) onlyW (by rw [counted]) hmissed
      (fun r => by rw [hu, counted])
    have sequ : (s.countStruck q).sequ = s.sequ := by rw [counted]
    have failed : (s.countStruck q).failedPins = s.failedPins := by rw [counted]; rfl
    rw [sequ] at main lost
    rw [failed] at lost repair
    refine ⟨fun h pass clear => ?_, fun h pass past => ?_, fun pass => ?_, fun h pass => ?_⟩
    · rw [ends, main h pass clear]
    · rw [ends, lost h pass past]
    · rw [ends, repair pass, pass]
    · rw [ends, sub h pass]
  · rw [dotsAt_entryDots]
    cases p <;> rfl
  · obtain ⟨-, dots⟩ := dotsAt_dotsUnion nodup order
    exact dots k

end Sys2Proof.Machine

namespace Sys2Proof.Machine

/-! ## A step of the form reads neither the steppers nor the tear distance (R127, R146, R154) -/

/-- The state with the counts of the steppers and the tear distance set. -/
def State.setAside (s : State) (x : Steppers) (y : Int) : State :=
  { s with steppers := x, form := { s.form with tearDistance := y } }

section
variable (s : State) (x : Steppers) (y : Int)

theorem State.setAside_sensePaper (d : MoveDir) (paper : Bool) :
    (s.setAside x y).sensePaper d paper = (s.sensePaper d paper).setAside x y := by
  unfold State.sensePaper State.setAside
  dsimp only [State.modifyForm]
  split
  · rfl
  · rfl
  · split <;> rfl
  · rfl
  · rfl

theorem State.setAside_age : (s.setAside x y).age = s.age.setAside x y := by
  unfold State.age State.setAside
  dsimp only [State.modifyForm, State.modifyMap]
  split <;> rfl

theorem State.setAside_judgeLength (p e : Odo) : (s.setAside x y).judgeLength p e = (s.judgeLength p e).setAside x y := by
  unfold State.judgeLength State.setAside
  dsimp only [State.modifyForm]
  split
  · rfl
  · split
    · rfl
    · split
      · rfl
      · split <;> rfl

theorem State.setAside_perforation (e : Odo) : (s.setAside x y).perforation e = (s.perforation e).setAside x y := by
  have judged := fun p => s.setAside_judgeLength x y p e
  unfold State.setAside at judged
  unfold State.perforation State.setAside
  dsimp only
  split
  · rfl
  · split
    · rfl
    · rfl
    · exact judged _
  · rfl

/-- What a forward step makes of a paper arrival or of a perforation (R135). -/
def State.takeMark (s : State) (paper marked : Bool) : State :=
  if s.form.paper = .loading false then (if paper then s.paperArrives else s)
  else if marked && s.takesPerforations then s.perforation s.form.odometer
  else s

/-- What a forward step makes of the learning that has come too far (R140). -/
def State.takeAge (s : State) : State := if s.agedOut then s.age else s

theorem State.formStep_forward (paper mark : Bool) : s.formStep .forward paper mark =
    (((s.modifyForm fun f => f.forward s.map.len).takeMark paper (mark && s.form.carriesMark)).takeAge).sensePaper .forward
      paper := rfl

theorem State.setAside_takeMark (paper marked : Bool) :
    (s.setAside x y).takeMark paper marked = (s.takeMark paper marked).setAside x y := by
  have takes : (s.setAside x y).takesPerforations = s.takesPerforations := rfl
  have held : (s.setAside x y).form.paper = s.form.paper := rfl
  have at_odometer : (s.setAside x y).form.odometer = s.form.odometer := rfl
  rw [State.takeMark, State.takeMark, takes, held, at_odometer, State.setAside_perforation]
  split
  · split <;> rfl
  · split <;> rfl

theorem State.setAside_takeAge : (s.setAside x y).takeAge = s.takeAge.setAside x y := by
  have out : (s.setAside x y).agedOut = s.agedOut := rfl
  rw [State.takeAge, State.takeAge, out, State.setAside_age]
  split <;> rfl

theorem State.setAside_formStep (d : MoveDir) (paper mark : Bool) :
    (s.setAside x y).formStep d paper mark = (s.formStep d paper mark).setAside x y := by
  cases d with
  | reverse => exact State.setAside_sensePaper (s.modifyForm fun f => f.moved s.map.len .reverse) x y .reverse paper
  | forward =>
    rw [State.formStep_forward, State.formStep_forward, ← State.setAside_sensePaper, ← State.setAside_takeAge,
      ← State.setAside_takeMark]
    rfl

end

section
variable (s : State) (d : MoveDir) (paper mark : Bool)

theorem State.formStep_tearDistance : (s.formStep d paper mark).form.tearDistance = s.form.tearDistance := by
  have same := congrArg (fun t : State => t.form.tearDistance)
    (s.setAside_formStep s.steppers s.form.tearDistance d paper mark)
  exact same

/-- The step that the drive makes and the form takes (R127, R146). -/
theorem State.driveStep_formStep (e : MoveDir) : (s.driveStep e).formStep d paper mark =
    { s.formStep d paper mark with steppers := s.steppers.driven s.form.path e } := by
  have same := s.setAside_formStep (s.steppers.driven s.form.path e) s.form.tearDistance d paper mark
  refine same.trans ?_
  rw [← s.formStep_tearDistance d paper mark]
  rfl

/-- A reverse step does not read the perforation channel (R135). -/
theorem State.formStep_reverse : s.formStep .reverse paper mark = s.formStep .reverse paper false := rfl

/-- A step over paper, the perforation channel not being read (R127, R141). -/
theorem State.formStep_over_paper (present : s.form.paper = .present) (none : s.form.previousEdge = none) :
    s.formStep d true false = { s with
      form := { s.form.moved s.map.len d with paperSensor := true, noPaperRun := 0 } } := by
  have sensed (t : State) (h : t.form.paper = .present) :
      t.sensePaper d true = { t with form := { t.form with paperSensor := true, noPaperRun := 0 } } := by
    unfold State.sensePaper
    dsimp only [State.modifyForm]
    rw [h]
  cases d with
  | reverse =>
    exact sensed (s.modifyForm fun f => f.reverse s.map.len) (congrArg (fun p : PaperState => p.tailBy 1) present)
  | forward =>
    obtain ⟨t, ht⟩ : ∃ t, t = s.modifyForm fun f => f.forward s.map.len := ⟨_, rfl⟩
    have paper : t.form.paper = .present := by
      rw [ht]
      exact congrArg (fun p : PaperState => p.tailBy (-1)) present
    have previous : t.form.previousEdge = .none := by rw [ht]; exact none
    have mark : t.takeMark true (false && s.form.carriesMark) = t := by
      rw [State.takeMark, if_neg (by rw [paper]; exact PaperState.noConfusion)]
      rfl
    have age : t.takeAge = t := by
      have young : t.agedOut = false := by rw [State.agedOut, previous, Bool.and_false]
      rw [State.takeAge, young]
      rfl
    rw [State.formStep_forward, ← ht, mark, age, sensed t paper, ht]
    rfl

end

end Sys2Proof.Machine

namespace Sys2Proof.Machine

/-! ## Steps and backoffs of the Paper Drive (R127, R146 to R149) -/

section
variable {s : State} {m : MoveContext} {paper mark : Bool}

theorem execStep_stepping (stepping : s.drive.state = .stepping) (move : s.drive.move = some m) :
    exec (.step paper mark) s = .next (s.stepMove m paper mark).settle := by
  show execStep paper mark s = _
  rw [execStep, stepping, move]

theorem execStep_backoff {n : Nat} (backoff : s.drive.state = .backoff n) (move : s.drive.move = some m) :
    exec (.step paper mark) s = .next (s.backoffStep m n paper) := by
  show execStep paper mark s = _
  rw [execStep, backoff, move]

theorem execRetry_of_wait {n : Nat} (wait : s.drive.state = .retryWait n) (move : s.drive.move = some m) :
    exec .retryTimerExpiry s = .next { s with
      drive := { s.drive with state := .stepping, move := some { m with steps := 0, pulses := 0 } } } := by
  show execRetryTimerExpiry s = _
  rw [execRetryTimerExpiry, wait]
  dsimp only [State.modifyDrive]
  rw [move]
  rfl

theorem Steppers.driven_eq (x : Steppers) (p : PaperPath) (d : MoveDir) : x.driven p d =
    ⟨x.platen + d.delta, if p = .tractor then x.tractor + d.delta else x.tractor⟩ := by
  cases p <;> rfl

theorem ite_movesTear (k : MoveKind) (a b : Int) :
    (if k.movesTear then a else b) = if k = .back ∨ k = .tearAdvance then a else b := by
  by_cases tears : k.movesTear = true
  · rw [if_pos tears, if_pos (k.movesTear_iff.mp tears)]
  · rw [if_neg tears, if_neg fun h => tears (k.movesTear_iff.mpr h)]

/-- One step of the drive, taken by the Form Position Unit, with the tear distance of a tear advance or a return
(R127, R146, R154). -/
theorem State.stepped_eq (d : MoveDir) (k : MoveKind) {v : State} (hv : v = s.formStep d paper mark) :
    ((s.driveStep d).formStep d paper mark).tearBy k d.delta = { v with
      form := { v.form with
        tearDistance := if k = .back ∨ k = .tearAdvance then v.form.tearDistance + d.delta else v.form.tearDistance }
      steppers := ⟨s.steppers.platen + d.delta,
        if s.form.path = .tractor then s.steppers.tractor + d.delta else s.steppers.tractor⟩ } := by
  rw [State.driveStep_formStep, ← hv, State.tearBy_frame, ite_movesTear, Steppers.driven_eq]

theorem State.formStep_drive (d : MoveDir) : (s.formStep d paper mark).drive = s.drive := by
  rw [State.FormOnly.formStep s d paper mark]

/-- A step of the backoff of any move (R149). -/
theorem State.backoffStep_eq (n : Nat) {v : State} (hv : v = s.formStep .reverse paper mark) : s.backoffStep m n paper = { v with
    form := { v.form with
      tearDistance := if m.kind = .back ∨ m.kind = .tearAdvance then s.form.tearDistance - 1 else s.form.tearDistance }
    steppers := ⟨s.steppers.platen - 1, if s.form.path = .tractor then s.steppers.tractor - 1 else s.steppers.tractor⟩
    drive := { s.drive with
      state := if n ≤ 1 then .retryWait (200000 * 2 ^ (m.stalls - 1)) else .backoff (n - 1)
      move := some { m with net := m.net - 1 } } } := by
  have step := State.stepped_eq (s := s) (paper := paper) (mark := false) .reverse m.kind hv
  have drive : v.drive = s.drive := by rw [hv, State.formStep_drive]
  have tear : v.form.tearDistance = s.form.tearDistance := by rw [hv, State.formStep_tearDistance]
  unfold State.backoffStep
  dsimp only
  rw [show (-1 : Int) = MoveDir.reverse.delta from rfl, step, ← tear]
  dsimp only [State.modifyDrive]
  rw [drive]
  rfl

/-- The move context after a step whose search is judged (R145, R148, log entry 40). -/
theorem MoveContext.stepped_found (m : MoveContext) (counted found : Bool) (further : Int)
    (search : found = true → m.searching = true) :
    (if found then (m.stepped counted).found further else m.stepped counted) = { m with
      net := m.net + 1
      steps := if counted then m.steps + 1 else m.steps
      searching := m.searching && !found
      distance := if found then (m.net + 1 + further).toNat else m.distance } := by
  cases found with
  | true => simp [MoveContext.found, MoveContext.stepped]
  | false => simp [MoveContext.stepped]

/-- One step of a move: the tail limit first, then the stall, then the end of the distance or of the search (R127, R148,
R151, R156 to R158). -/
theorem State.stepMove_eq {n : MoveContext} {counted found : Bool} {v w : State}
    (hv : v = s.formStep m.dir paper mark) (hc : counted = (decide (m.dir = .forward) && s.form.paper.judgesSlip))
    (hf : found = v.searchFound m paper)
    (hn : n = { m with
      net := m.net + 1
      steps := if counted then m.steps + 1 else m.steps
      searching := m.searching && !found
      distance := if found then (m.net + 1 + v.afterSearch m.kind).toNat else m.distance })
    (hw : w = { v with
      form := { v.form with
        tearDistance := if m.kind = .back ∨ m.kind = .tearAdvance then v.form.tearDistance + m.dir.delta
          else v.form.tearDistance
        paper := if found = true ∧ m.kind = .eject then .none else v.form.paper }
      steppers := ⟨s.steppers.platen + m.dir.delta,
        if s.form.path = .tractor then s.steppers.tractor + m.dir.delta else s.steppers.tractor⟩
      drive := { s.drive with move := some n } }) :
    s.stepMove m paper mark =
      if m.dir = .forward ∧ s.form.paper = .tail 73 ∧ w.form.paper = .tail 72 then w.endMove .tail
      else if counted = true ∧ n.stalls? = true then w.stallMove n
      else if (n.distance : Int) ≤ n.net then w.endMove (if n.searching then m.kind.searchFails else .done)
      else w := by
  obtain ⟨u, hu⟩ : ∃ u, u = ((s.driveStep m.dir).formStep m.dir paper mark).tearBy m.kind m.dir.delta := ⟨_, rfl⟩
  have step := hu.trans (State.stepped_eq m.dir m.kind hv)
  have drive : v.drive = s.drive := by rw [hv, State.formStep_drive]
  have search : found = true → m.searching = true := fun h => by
    rw [hf, State.searchFound] at h
    exact (Bool.and_eq_true_iff.mp h).1
  have finds : u.searchFound (m.stepped counted) paper = found := by rw [hf, step]; rfl
  obtain ⟨x, hx⟩ : ∃ x, x = if (found && decide ((m.stepped counted).kind = .eject)) = true then
    u.modifyForm (fun f => { f with paper := .none }) else u := ⟨_, rfl⟩
  have ejected : x = { w with drive := s.drive } := by
    rw [hx, hw, step, ← drive]
    by_cases out : found = true ∧ m.kind = .eject
    · have gone : (if found = true ∧ m.kind = .eject then PaperState.none else v.form.paper) = .none := if_pos out
      rw [gone, if_pos (by rw [Bool.and_eq_true, decide_eq_true_iff]; exact out)]
      rfl
    · have stays : (if found = true ∧ m.kind = .eject then PaperState.none else v.form.paper) = v.form.paper := if_neg out
      rw [stays, if_neg (by rw [Bool.and_eq_true, decide_eq_true_iff]; exact out)]
  have further : x.afterSearch (m.stepped counted).kind = v.afterSearch m.kind := by
    rw [ejected, hw]
    rfl
  have context := m.stepped_found counted found (v.afterSearch m.kind) search
  rw [← hn] at context
  have kind : n.kind = m.kind := by rw [hn]
  have after : x.modifyDrive (fun d => { d with move := some n }) = w := by rw [ejected, hw]; rfl
  have dir : n.dir = m.dir := by rw [hn]
  unfold State.stepMove
  dsimp only
  rw [← hu, ← hc, finds, ← hx, further, context, after, kind, dir]

/-- A stall: the steps that no pulse confirms are withdrawn, and the drive backs off, or at the fifth stall jams (R148 to
R150). -/
theorem State.stallMove_eq {w x y : State} {n : MoveContext} {k : Nat} (hk : k = n.steps - 4 * n.pulses)
    (hx : x = w.stallCorrection k)
    (hy : y = { x with
      form := { x.form with
        tearDistance := if n.kind = .back ∨ n.kind = .tearAdvance then x.form.tearDistance - k else x.form.tearDistance }
      drive := { w.drive with move := some { n with net := n.net - k, stalls := n.stalls + 1 } } }) :
    w.stallMove n = if 4 ≤ n.stalls then y.endMove .jam else { y with drive := { y.drive with state := .backoff 12 } } := by
  have torn : (w.stallCorrection k).tearBy n.kind (-k) = { x with form := { x.form with
      tearDistance := if n.kind = .back ∨ n.kind = .tearAdvance then x.form.tearDistance - k else x.form.tearDistance } } := by
    rw [State.tearBy_frame, ite_movesTear, ← hx]
    rfl
  have drive : x.drive = w.drive := by rw [hx]; rfl
  have jams : 5 ≤ n.stalls + 1 ↔ 4 ≤ n.stalls := by omega
  unfold State.stallMove
  dsimp only
  rw [← hk, torn]
  simp only [jams]
  rw [hy]
  dsimp only [State.modifyDrive]
  rw [drive]

end

end Sys2Proof.Machine

namespace Sys2Proof.Machine

/-! ## The end of a move (R128, R139, R147, R150, R151, R153 to R160) -/

/-- The phase correction at the end of a move, or on a jam its discard (R139, R150). -/
def State.endPhase (s : State) (e : MoveEnd) : State :=
  match e with
  | .jam => s.modifyForm (fun f => { f with pendingCorrection := none, trusted := false })
  | _ => s.phaseCorrection

/-- TEAR POSITION or JAM (R150, R154). -/
def State.endNotice (s : State) (m : MoveContext) (e : MoveEnd) : State :=
  match m.kind, e with
  | .tearAdvance, .done => s.postBoth (.tearPosition s.form.form s.form.offset s.form.tearDistance m.source)
  | _, .jam => s.postBoth (.jam m.source m.kind m.distance m.net s.form.form s.form.offset)
  | _, _ => s

/-- The source of the move is told (R147). -/
def State.endSource (s : State) (m : MoveContext) (e : MoveEnd) : State :=
  match m.source with
  | .entry _ _ => s.runMoveEnded m e
  | .auto => s
  | .line =>
    match e with
    | .jam => s.lineJammed
    | .tail => s.lineTail
    | _ => s.lineMoveDone

section
variable {s : State} {m : MoveContext} {e : MoveEnd}

theorem State.endMove_chain (move : s.drive.move = some m) : s.endMove e =
    ((((((s.modifyDrive (fun d => { d with state := .stopped, move := none })).settleMove m.kind e).endPhase e).judgeBoundary
      m.startForm m.dir).endNotice m e).haltMove e).endSource m e := by
  unfold State.endMove
  rw [move]
  rfl

theorem State.endPhase_of_jam (s : State) :
    s.endPhase .jam = { s with form := { s.form with pendingCorrection := none, trusted := false } } := rfl

theorem State.endPhase_of_other (other : e ≠ .jam) : s.endPhase e = s.phaseCorrection := by
  cases e with
  | jam => exact absurd rfl other
  | done | tail | noEdge | noPaper => rfl

theorem State.endNotice_eq (s : State) (m : MoveContext) (e : MoveEnd) : s.endNotice m e =
    if e = .jam then s.postBoth (.jam m.source m.kind m.distance m.net s.form.form s.form.offset)
    else if e = .done ∧ m.kind = .tearAdvance then
      s.postBoth (.tearPosition s.form.form s.form.offset s.form.tearDistance m.source)
    else s := by
  unfold State.endNotice
  split
  · next kind => simp [kind]
  · rfl
  · next jam tear =>
    rw [if_neg jam, if_neg]
    exact fun ⟨done, kind⟩ => tear kind done

theorem State.haltMove_eq (s : State) (e : MoveEnd) : s.haltMove e = { s with arb := { s.arb with halt := { s.arb.halt with
    jam := s.arb.halt.jam || decide (e = .jam)
    paperOut := s.arb.halt.paperOut || decide (e = .tail)
    noPaper := s.arb.halt.noPaper || decide (e = .noPaper) } } } := by
  cases e <;> simp [State.haltMove, State.modifyHalt]

/-- Everything that the end of a move makes before its source is told (R128, R139, R150, R151). -/
theorem State.endMove_eq {f : FormPosition} {v x y z : State} (move : s.drive.move = some m)
    (hf : ∀ t : State, t.form = s.form → t.settleMove m.kind e = { t with form := f })
    (jam : e = .jam → v = { s with
      form := { f with pendingCorrection := none, trusted := false }
      drive := { s.drive with state := .stopped, move := none } })
    (other : e ≠ .jam → v = ({ s with form := f, drive := { s.drive with state := .stopped, move := none } }).phaseCorrection)
    (crossed : v.form.offset = 0 ∨ v.form.form ≠ m.startForm →
      x = v.postBoth (.formBoundary v.form.form v.form.offset v.map.len m.dir v.form.trusted))
    (within : v.form.offset ≠ 0 → v.form.form = m.startForm → x = v)
    (hy : y = if e = .jam then x.postBoth (.jam m.source m.kind m.distance m.net x.form.form x.form.offset)
      else if e = .done ∧ m.kind = .tearAdvance then
        x.postBoth (.tearPosition x.form.form x.form.offset x.form.tearDistance m.source)
      else x)
    (hz : z = { y with arb := { y.arb with halt := { y.arb.halt with
      jam := y.arb.halt.jam || decide (e = .jam)
      paperOut := y.arb.halt.paperOut || decide (e = .tail)
      noPaper := y.arb.halt.noPaper || decide (e = .noPaper) } } }) :
    s.endMove e = z.endSource m e := by
  have phase : ((s.modifyDrive (fun d => { d with state := .stopped, move := none })).settleMove m.kind e).endPhase e = v := by
    rw [hf (s.modifyDrive fun d => { d with state := .stopped, move := none }) rfl]
    by_cases jams : e = .jam
    · rw [jam jams, jams]
      rfl
    · rw [State.endPhase_of_other jams, other jams]
      rfl
  have boundary : v.judgeBoundary m.startForm m.dir = x := by
    unfold State.judgeBoundary
    split
    · next h => exact (crossed h).symm
    · next h =>
      rw [not_or, not_not] at h
      exact (within h.1 h.2).symm
  rw [State.endMove_chain move, phase, boundary, State.endNotice_eq, ← hy, State.haltMove_eq, ← hz]

end

/-! ## What the source of a move does at its end (R59, R147, R153 to R161) -/

section
variable {z : State} {m : MoveContext} {e : MoveEnd}

theorem State.endSource_auto (source : m.source = .auto) : z.endSource m e = z := by
  unfold State.endSource
  rw [source]

/-- The line whose move has ended (R56, R58, R59, R161). -/
theorem State.endSource_line {c : LineContext} (source : m.source = .line) (line : z.line = some c) :
    (e = .jam → z.endSource m e = ((z.loseDots c.unstruck false).modifyResult c.link (fun r =>
      { r with short := true })).setStage .jammed) ∧
    (e = .tail → z.endSource m e = (z.loseDots c.unstruck false).completeLine) ∧
    (e = .done → z.endSource m e = z.lineMoveDone) := by
  have lost : z.loseAll = z.loseDots c.unstruck false := by rw [State.loseAll, line]
  refine ⟨fun jam => ?_, fun tail => ?_, fun done => ?_⟩
  · unfold State.endSource
    rw [source, jam]
    dsimp only
    unfold State.lineJammed
    rw [line]
    dsimp only
    rw [lost]
  · unfold State.endSource
    rw [source, tail]
    dsimp only
    unfold State.lineTail
    rw [lost]
  · unfold State.endSource
    rw [source, done]

/-- The motion entry whose move has ended (R147, R150, R151, R156, R160). -/
theorem State.endSource_entry {l : Link} {q : SeqNo} {r b : MotionRun} (source : m.source = .entry l q)
    (run : z.drive.run = some r) (hb : b = r.add m) :
    (e = .jam → z.endSource m e = { z with drive := { z.drive with run := some { b with jammed := true } } }) ∧
    (∀ o, e = .tail ∧ o = .tail ∨ e = .noEdge ∧ o = .noEdge ∨ e = .noPaper ∧ o = .noPaper →
      z.endSource m e = z.completeRun b o none) ∧
    (e = .done → z.endSource m e = z.runNext b m.kind) := by
  have told : z.endSource m e = z.runMoveEnded m e := by
    unfold State.endSource
    rw [source]
  rw [told]
  unfold State.runMoveEnded
  rw [run, hb]
  refine ⟨fun jam => by rw [jam]; rfl, fun o ends => ?_, fun done => by rw [done]⟩
  obtain ⟨rfl, rfl⟩ | ⟨rfl, rfl⟩ | ⟨rfl, rfl⟩ := ends <;> rfl

theorem PaperState.isAway_of_in {p : PaperState} (inside : p = .present ∨ ∃ d, p = .tail d) : p.isAway = false := by
  obtain rfl | ⟨d, rfl⟩ := inside <;> rfl

theorem PaperState.isIn_of_in {p : PaperState} (inside : p = .present ∨ ∃ d, p = .tail d) : p.isIn = true := by
  obtain rfl | ⟨d, rfl⟩ := inside <;> rfl

/-- Over paper a motion entry is judged to its own move (R152, R154, R158, R159). -/
theorem State.judgeRun_moves {b : MotionRun} {k : MoveKind} (inside : z.form.paper = .present ∨ ∃ d, z.form.paper = .tail d)
    (kinds : (∃ n, b.kind = .feed n ∧ k = .feed n) ∨ (b.kind = .vtab ∧ k = .vtab) ∨ (b.kind = .formfeed ∧ k = .formfeed) ∨
      (∃ n, z.form.path = .tractor ∧ b.kind = .reverse n ∧ k = .reverse n) ∨
      (z.form.path = .sheet ∧ b.kind = .path .tractor ∧ k = .eject)) : z.judgeRun b = z.runMove b k := by
  have here := PaperState.isAway_of_in inside
  obtain ⟨n, kind, rfl⟩ | ⟨kind, rfl⟩ | ⟨kind, rfl⟩ | ⟨n, path, kind, rfl⟩ | ⟨path, kind, rfl⟩ := kinds <;>
    rw [State.judgeRun, kind] <;> dsimp only
  · rw [here]; rfl
  · rw [here]; rfl
  · rw [here]; rfl
  · rw [here, path]; rfl
  · rw [path, PaperState.isIn_of_in inside]; rfl

/-- A LOAD over a tail ejects first (R156). -/
theorem State.judgeRun_load_of_tail {b : MotionRun} {d : Int} (kind : b.kind = .load) (tail : z.form.paper = .tail d) :
    z.judgeRun b = z.runMove b .eject := by
  rw [State.judgeRun, kind]
  dsimp only
  rw [tail]
  rfl

/-- A motion entry that the path or the paper state bars (R152, R154). -/
theorem State.judgeRun_barred {b : MotionRun} {reason : NotMadeReason}
    (barred : (reason = .path ∧ z.form.path = .sheet ∧ ∃ n, b.kind = .reverse n) ∨
      (reason = .paper ∧ (z.form.paper = .none ∨ z.form.paper = .parked) ∧ (b.kind = .vtab ∨ b.kind = .formfeed ∨
        ∃ n, b.kind = .feed n ∨ (z.form.path = .tractor ∧ b.kind = .reverse n)))) :
    z.judgeRun b = z.completeRun b .notMade (some reason) := by
  obtain ⟨rfl, path, n, kind⟩ | ⟨rfl, paper, kinds⟩ := barred
  · rw [State.judgeRun, kind]
    dsimp only
    rw [path]
    rfl
  · have away : z.form.paper.isAway = true := by obtain h | h := paper <;> rw [h] <;> rfl
    obtain kind | kind | ⟨n, kind | ⟨path, kind⟩⟩ := kinds <;> rw [State.judgeRun, kind] <;> dsimp only
    · rw [away]; rfl
    · rw [away]; rfl
    · rw [away]; rfl
    · rw [away, path]; rfl

/-- A motion entry that has made its last move (R153, R156 to R160). -/
theorem State.runNext_of_last {b : MotionRun} {k : MoveKind} (back : k ≠ .back) (tear : k ≠ .tearFeed)
    (load : k = .eject → b.kind ≠ .load) (path : k = .eject ∨ k = .park → ∀ p, b.kind ≠ .path p) :
    z.runNext b k = z.completeRun b .done none := by
  unfold State.runNext
  split
  · exact absurd rfl back
  · exact absurd rfl tear
  · next kind => exact absurd kind (load rfl)
  · next kind => exact absurd kind (path (.inl rfl) _)
  · next kind => exact absurd kind (path (.inr rfl) _)
  · rfl

theorem State.runNext_of_load {b : MotionRun} (kind : b.kind = .load) : z.runNext b .eject = z.runMove b .load := by
  unfold State.runNext
  rw [kind]

theorem State.runNext_of_path {b : MotionRun} {k : MoveKind} {p : PaperPath} (ends : k = .eject ∨ k = .park)
    (kind : b.kind = .path p) : z.runNext b k = (z.changePath p).completeRun b .done none := by
  unfold State.runNext
  obtain rfl | rfl := ends <;> rw [kind]

end

/-! ## A change of path (R136, R159) -/

theorem State.changePath_tractor (s : State) : s.changePath .tractor = { s with
    form := { s.form with path := .tractor, edge := if s.edgeFitted then .seeking else .off } } := by
  unfold State.changePath freshEdge
  cases h : s.edgeFitted <;> simp [State.modifyForm, h]

theorem State.edgeOff_of_none {s : State} (none : s.map.learned = none) : s.edgeOff = { s with
    form := { s.form with edge := .off, candidate := .none, previousEdge := .none, pendingCorrection := .none } } := by
  have map : { s.map with learned := .none } = s.map := by rw [← none]
  unfold State.edgeOff
  dsimp only [State.modifyMap, State.modifyForm]
  rw [map, none]
  rfl

theorem State.edgeOff_of_some {s : State} {c n : Nat} (learned : s.map.learned = some c) (hn : n = s.map.programmed) :
    s.edgeOff = { s with
      form := { s.form with
        offset := s.form.offset % n, edge := .off, candidate := none, previousEdge := none, pendingCorrection := none }
      map := { s.map with
        learned := none, tof := min s.map.tof (min 720 (n - 1)), skip := min s.map.skip (n / 2)
        stops := s.map.stops.filter (fun y => y < n) } } := by
  unfold State.edgeOff
  dsimp only [State.modifyMap, State.modifyForm]
  rw [learned, hn]
  rfl

end Sys2Proof.Machine

namespace Sys2Proof.Machine

/-! ## A jam halts the engine (R150, R171) -/

section
variable {s : State}

theorem State.judgeTimers_lineOnly (s : State) : s.LineOnly s.judgeTimers := by
  rw [s.judgeTimers_frame]
  exact ⟨rfl, rfl, rfl, fun _ => rfl, .of_eq rfl⟩

/-- In a jam an event brings at most plans (R165, R168, R171). -/
theorem State.settle_lineOnly_of_jam (jam : s.arb.halt.jam = true) : s.LineOnly s.settle := by
  refine State.settle_rel (fun s t => s.arb.halt.jam = true → s.LineOnly t) (fun s _ => .refl s)
    (fun a b jam => (a jam).trans (b ((a jam).halt ▸ jam))) (fun {s t} h jam => ?_) (fun s _ => s.judgeTimers_lineOnly) s jam
  obtain ⟨p, -, rfl⟩ | ⟨e, -, load, -⟩ | ⟨l, -, -, idle, -, -⟩ := State.settleOnce_cases h
  · exact s.planNow_lineOnly p
  · obtain ⟨-, -, -, -, only⟩ := State.loadReady_spec load
    simp [HaltSet.onlyPaper, jam] at only
  · obtain ⟨clear, -, -⟩ := State.isIdle_spec idle
    rw [(HaltSet.isEmpty_iff _).mp clear] at jam
    cases jam

theorem State.engine_of_jam (jam : s.arb.halt.jam = true) : s.engine = .halted := by
  have halted : s.arb.halt.isEmpty = false := by
    cases h : s.arb.halt.isEmpty with
    | false => rfl
    | true =>
      rw [(HaltSet.isEmpty_iff _).mp h] at jam
      cases jam
  rw [State.engine, halted]
  rfl

end

/-! ## The steps of a FEED or a REVERSE over paper (R127, R146 to R150) -/

section
variable {s : State} {m : MoveContext}

/-- The state after one step over paper (R127, R141, R146). -/
def State.steppedOverPaper (s : State) (d : MoveDir) (n : MoveContext) : State :=
  { s with
    form := { s.form.moved s.map.len d with paperSensor := true, noPaperRun := 0 }
    steppers := s.steppers.driven s.form.path d
    drive := { s.drive with move := some n } }

/-- One step over paper of a move that neither searches nor moves the tear distance (R127, R146, R148). -/
theorem State.stepMove_over_paper {n : MoveContext} (tear : m.kind.movesTear = false) (search : m.searching = false)
    (present : s.form.paper = .present) (none : s.form.previousEdge = none)
    (hn : n = { m with net := m.net + 1, steps := if m.dir = .forward then m.steps + 1 else m.steps }) :
    s.stepMove m true false =
      if m.dir = .forward ∧ n.stalls? = true then (s.steppedOverPaper m.dir n).stallMove n
      else if (n.distance : Int) ≤ n.net then (s.steppedOverPaper m.dir n).endMove .done
      else s.steppedOverPaper m.dir n := by
  have over_paper := s.formStep_over_paper m.dir present none
  have slips : s.form.paper.judgesSlip = true := by rw [present]; rfl
  have unsought : (s.formStep m.dir true false).searchFound m true = false := by
    rw [State.searchFound, search, Bool.false_and]
  have still : ¬ (m.kind = .back ∨ m.kind = .tearAdvance) := fun h => by
    rw [m.kind.movesTear_iff.mpr h] at tear
    cases tear
  have context : n = { m with
      net := m.net + 1
      steps := if decide (m.dir = .forward) = true then m.steps + 1 else m.steps
      searching := m.searching && !false
      distance := if false = true then (m.net + 1 + (s.formStep m.dir true false).afterSearch m.kind).toNat
        else m.distance } := by
    rw [hn, Bool.not_false, Bool.and_true]
    simp
  have after : s.steppedOverPaper m.dir n = { s.formStep m.dir true false with
      form := { (s.formStep m.dir true false).form with
        tearDistance := if m.kind = .back ∨ m.kind = .tearAdvance then
          (s.formStep m.dir true false).form.tearDistance + m.dir.delta else (s.formStep m.dir true false).form.tearDistance
        paper := if false = true ∧ m.kind = .eject then .none else (s.formStep m.dir true false).form.paper }
      steppers := ⟨s.steppers.platen + m.dir.delta,
        if s.form.path = .tractor then s.steppers.tractor + m.dir.delta else s.steppers.tractor⟩
      drive := { s.drive with move := some n } } := by
    have paper (p : PaperState) : (if false = true ∧ m.kind = .eject then PaperState.none else p) = p :=
      if_neg fun ⟨h, _⟩ => Bool.noConfusion h
    rw [if_neg still, paper, over_paper, ← Steppers.driven_eq]
    rfl
  have unsearched : n.searching = false := by rw [hn]; exact search
  rw [State.stepMove_eq (counted := decide (m.dir = .forward)) rfl (by rw [slips, Bool.and_true]) unsought.symm context after,
    present, unsearched]
  simp only [reduceCtorEq, false_and, and_false, if_false, decide_eq_true_eq, Bool.false_eq_true]

/-- A stall over paper (R148 to R150). -/
theorem State.stallMove_over_paper {w : State} {n : MoveContext} (tear : n.kind.movesTear = false) :
    w.stallMove n = if 4 ≤ n.stalls
      then ({ w.stallCorrection (n.steps - 4 * n.pulses) with drive := { w.drive with
        move := some { n with net := n.net - (n.steps - 4 * n.pulses : Nat), stalls := n.stalls + 1 } } } : State).endMove .jam
      else { w.stallCorrection (n.steps - 4 * n.pulses) with drive := { w.drive with
        state := .backoff 12
        move := some { n with net := n.net - (n.steps - 4 * n.pulses : Nat), stalls := n.stalls + 1 } } } := by
  have still : ¬ (n.kind = .back ∨ n.kind = .tearAdvance) := fun h => by
    rw [n.kind.movesTear_iff.mpr h] at tear
    cases tear
  rw [State.stallMove_eq rfl rfl rfl, if_neg still]

/-- What a jam makes of the paper state (R156). -/
theorem State.settleMove_of_jam (t : State) (k : MoveKind) : t.settleMove k .jam = { t with form := { t.form with
    paper := if k = .load then (if t.form.paperSensor then .present else .none) else t.form.paper } } := by
  cases k <;> rfl

/-- A move of the automatic tear that jams (R128, R150, R171, R175). -/
theorem State.endMove_jam_auto (move : s.drive.move = some m) (source : m.source = .auto) :
    (s.endMove .jam).settle.drive.state = .stopped ∧ (s.endMove .jam).settle.drive.move = none ∧
    (s.endMove .jam).settle.arb.halt.jam = true ∧ (s.endMove .jam).settle.engine = .halted ∧
    (s.endMove .jam).settle.form.trusted = false ∧ (s.endMove .jam).settle.form.offset = s.form.offset ∧
    (s.endMove .jam).settle.steppers = s.steppers ∧
    ∀ l, Notice.jam .auto m.kind m.distance m.net s.form.form s.form.offset ∈
      ((s.endMove .jam).settle.port.get l).notices ∨ ((s.endMove .jam).settle.port.get l).lost = true := by
  obtain ⟨v, hv⟩ : ∃ v : State, v = { s with
    form := { s.form with
      paper := if m.kind = .load then (if s.form.paperSensor then .present else .none) else s.form.paper
      pendingCorrection := none, trusted := false }
    drive := { s.drive with state := .stopped, move := none } } := ⟨_, rfl⟩
  obtain ⟨x, hx⟩ : ∃ x, x = v.judgeBoundary m.startForm m.dir := ⟨_, rfl⟩
  have kept : x.form = v.form ∧ x.drive = v.drive ∧ x.steppers = v.steppers := by
    obtain e | e := v.judgeBoundary_cases m.startForm m.dir <;> rw [hx, e] <;> exact ⟨rfl, rfl, rfl⟩
  obtain ⟨form, drive, steppers⟩ := kept
  have ended : s.endMove .jam = (x.postBoth (.jam .auto m.kind m.distance m.net s.form.form s.form.offset)).modifyHalt
      (fun h => { h with jam := true }) := by
    have offset : x.form.offset = s.form.offset := by rw [form, hv]
    have number : x.form.form = s.form.form := by rw [form, hv]
    rw [State.endMove_chain move, State.settleMove_of_jam, State.endSource_auto source, State.endNotice_eq, if_pos rfl,
      ← offset, ← number, ← source, hx, hv]
    rfl
  have jam : (s.endMove .jam).arb.halt.jam = true := by rw [ended]; rfl
  have line := State.settle_lineOnly_of_jam jam
  have jammed : (s.endMove .jam).settle.arb.halt.jam = true := by rw [line.halt]; exact jam
  have form' : (s.endMove .jam).settle.form = v.form := by
    rw [line.frame]
    show (s.endMove .jam).form = v.form
    rw [ended]
    exact form
  have drive' : (s.endMove .jam).settle.drive.state = .stopped ∧ (s.endMove .jam).settle.drive.move = none := by
    rw [line.frame]
    show (s.endMove .jam).drive.state = _ ∧ (s.endMove .jam).drive.move = _
    rw [ended]
    show x.drive.state = _ ∧ x.drive.move = _
    rw [drive, hv]
    exact ⟨rfl, rfl⟩
  have steppers' : (s.endMove .jam).settle.steppers = s.steppers := by
    rw [line.frame]
    show (s.endMove .jam).steppers = _
    rw [ended]
    show x.steppers = _
    rw [steppers, hv]
  obtain ⟨state, none⟩ := drive'
  refine ⟨state, none, jammed, State.engine_of_jam jammed, by rw [form', hv], by rw [form', hv], steppers', fun l => ?_⟩
  obtain ⟨more, notices⟩ := (line.ports l).notices
  have posted : (s.endMove .jam).port.get l =
      (x.port.get l).post (.jam .auto m.kind m.distance m.net s.form.form s.form.offset) := by
    rw [ended]
    exact x.postBoth_get l _
  obtain heard | lost := (x.port.get l).post_heard (.jam .auto m.kind m.distance m.net s.form.form s.form.offset)
  · exact .inl (by rw [notices, posted]; exact List.mem_append_left _ heard)
  · exact .inr ((line.ports l).lost (by rw [posted]; exact lost))

end

end Sys2Proof.Machine

namespace Sys2Proof.Machine

/-! ## The report of a motion entry (R160) -/

section
variable {s : State} {m : MoveContext}

theorem MotionRun.add_eq (r : MotionRun) (m : MoveContext) : r.add m =
    if m.kind = .back then { r with back := r.back + (match m.dir with | .forward => m.net | .reverse => -m.net) }
    else { r with
      distance := r.distance + (match m.kind with | .load => 0 | .park => 0 | .eject => 0 | _ => m.distance)
      moved := r.moved + m.net
      stalls := r.stalls + m.stalls } := by
  have searched : (if m.kind.searches then 0 else m.distance) =
      (match m.kind with | .load => 0 | .park => 0 | .eject => 0 | _ => m.distance) := by
    cases m.kind <;> rfl
  rw [MotionRun.add, searched, MoveContext.signedNet] <;> rfl

theorem MotionRun.add_kind (r : MotionRun) (m : MoveContext) :
    (r.add m).kind = r.kind ∧ (r.add m).link = r.link ∧ (r.add m).seq = r.seq := by
  unfold MotionRun.add
  split <;> exact ⟨rfl, rfl, rfl⟩

theorem MotionKind.noDistance_ite (k : MotionKind) (d : Nat) : (if k.noDistance then none else some d) =
    (match k with | .load => none | .park => none | .path _ => none | _ => some d) := by
  cases k <;> rfl

theorem State.completeRun_eq (b : MotionRun) (o : MoveOutcome) (reason : Option NotMadeReason) :
    s.completeRun b o reason = (({ s with drive := { s.drive with run := none } } : State).post b.link
      (.moveDone b.link b.seq b.kind o reason (if b.kind.noDistance then none else some b.distance) b.moved b.back b.stalls
        s.form.form s.form.offset s.form.paper s.form.tear s.form.path s.form.trusted)).completeEntry b.link := rfl

/-- A FEED that ends between two forms of one boundary completes its entry (R128, R153, R160). -/
theorem State.endMove_feed {r : MotionRun} {l : Link} {q : SeqNo} {n : Nat} (move : s.drive.move = some m)
    (kind : m.kind = .feed n) (source : m.source = .entry l q) (run : s.drive.run = some r)
    (pending : s.form.pendingCorrection = none) (inside : s.form.offset ≠ 0) (same : s.form.form = m.startForm) :
    s.endMove .done = (({ s with drive := { s.drive with state := .stopped, move := none } } : State).completeRun
      (r.add m) .done none) := by
  obtain ⟨z, hz⟩ : ∃ z : State, z = { s with drive := { s.drive with state := .stopped, move := none } } := ⟨_, rfl⟩
  have phase : z.phaseCorrection = z := by
    have none : z.form.pendingCorrection = Option.none := by rw [hz]; exact pending
    rw [State.phaseCorrection, none]
  have ended := State.endMove_eq (e := .done) (f := s.form) (v := z) (x := z) (y := z) (z := z) move
    (fun t h => by rw [kind, ← h]; rfl) (fun jam => MoveEnd.noConfusion jam) (fun _ => by rw [← hz, phase])
    (fun h => by
      rw [hz] at h
      obtain h | h := h
      · exact absurd h inside
      · exact absurd same h)
    (fun _ _ => rfl) (by rw [if_neg MoveEnd.noConfusion, if_neg (by rw [kind]; exact fun h => MoveKind.noConfusion h.2)])
    (by simp)
  have runs : z.drive.run = some r := by rw [hz]; exact run
  obtain ⟨rest, -, -⟩ := r.add_kind m
  obtain ⟨-, -, done⟩ := State.endSource_entry (e := .done) source runs rfl
  rw [ended, done rfl, kind, State.runNext_of_last MoveKind.noConfusion MoveKind.noConfusion
    MoveKind.noConfusion (fun h => by obtain h | h := h <;> cases h), hz]

end

end Sys2Proof.Machine

namespace Sys2Proof.Machine

/-! ## The course of a FEED or a REVERSE over paper (R127, R146 to R150) -/

section
variable {s : State} {m : MoveContext}

/-- What O54 says of the steps of a move over paper. -/
theorem stepsOverPaper {up down : Steppers} {fwd rev : FormPosition}
    {go : Steppers → FormPosition → DriveState → MoveContext → State} (move : s.drive.move = some m)
    (tear : m.kind.movesTear = false) (search : m.searching = false) (present : s.form.paper = .present)
    (none : s.form.previousEdge = none) (hup : up = s.steppers.driven s.form.path .forward)
    (hdown : down = s.steppers.driven s.form.path .reverse)
    (hfwd : fwd = { s.form.forward s.map.len with paperSensor := true, noPaperRun := 0 })
    (hrev : rev = { s.form.reverse s.map.len with paperSensor := true, noPaperRun := 0 })
    (hgo : ∀ x g d n, go x g d n = { s with
      form := g, steppers := x, drive := { s.drive with state := d, move := some n } }) :
    (s.drive.state = .stepping → m.dir = .forward → m.net + 1 < m.distance → (m.steps + 1) / 4 < m.pulses + 5 →
      exec (.step true false) s =
        .next (go up fwd .stepping { m with net := m.net + 1, steps := m.steps + 1 }).settle) ∧
    (s.drive.state = .stepping → m.dir = .reverse → m.net + 1 < m.distance →
      exec (.step true false) s = .next (go down rev .stepping { m with net := m.net + 1 }).settle) ∧
    (∀ (r : MotionRun) (l : Link) (q : SeqNo) (n : Nat) (u : State), s.drive.state = .stepping → m.dir = .forward →
      m.kind = .feed n → m.source = .entry l q → s.drive.run = some r → r.kind = .feed n → r.link = l → r.seq = q →
      m.net + 1 = m.distance → (m.steps + 1) / 4 < m.pulses + 5 → s.form.pendingCorrection = Option.none →
      fwd.offset ≠ 0 → fwd.form = m.startForm →
      u = { s with
        form := fwd
        steppers := up
        drive := { s.drive with state := .stopped, move := Option.none, run := Option.none } }.post l
          (.moveDone l q (.feed n) .done Option.none (some (r.distance + m.distance)) (r.moved + (m.net + 1)) r.back
            (r.stalls + m.stalls) fwd.form fwd.offset fwd.paper fwd.tear fwd.path fwd.trusted) →
      exec (.step true false) s = .next (u.completeEntry l).settle) ∧
    (∀ k : Nat, s.drive.state = .stepping → m.dir = .forward → m.pulses + 5 ≤ (m.steps + 1) / 4 →
      k = m.steps + 1 - 4 * m.pulses → m.stalls < 4 →
      exec (.step true false) s = .next (((go up fwd (.backoff 12) { m with
        net := m.net + 1 - k, steps := m.steps + 1, stalls := m.stalls + 1 }).stallCorrection k).settle)) ∧
    (∀ (k : Nat) (v : State), s.drive.state = .stepping → m.dir = .forward → m.pulses + 5 ≤ (m.steps + 1) / 4 →
      k = m.steps + 1 - 4 * m.pulses → m.stalls = 4 → m.source = .auto → v = ({ s with form := fwd }).stallCorrection k →
      ∃ t : State, exec (.step true false) s = .next t ∧ t.drive.state = .stopped ∧ t.drive.move = Option.none ∧
        t.arb.halt.jam = true ∧ t.engine = .halted ∧ t.form.trusted = false ∧ t.form.offset = v.form.offset ∧
        t.steppers = up ∧
        ∀ l, Notice.jam .auto m.kind m.distance (m.net + 1 - k) v.form.form v.form.offset ∈ (t.port.get l).notices ∨
          (t.port.get l).lost = true) := by
  have forward (n : MoveContext) (dir : m.dir = .forward) : s.steppedOverPaper m.dir n = go up fwd s.drive.state n := by
    rw [hgo, hup, hfwd, dir]
    rfl
  have reverse (n : MoveContext) (dir : m.dir = .reverse) : s.steppedOverPaper m.dir n = go down rev s.drive.state n := by
    rw [hgo, hdown, hrev, dir]
    rfl
  have step (n : MoveContext) (stepping : s.drive.state = .stepping)
      (hn : n = { m with net := m.net + 1, steps := if m.dir = .forward then m.steps + 1 else m.steps }) :=
    (execStep_stepping (paper := true) (mark := false) stepping move).trans
      (congrArg (fun t : State => Host.Outcome.next t.settle) (State.stepMove_over_paper tear search present none hn))
  have calm (n : MoveContext) (hn : n = { m with net := m.net + 1, steps := m.steps + 1 })
      (slips : (m.steps + 1) / 4 < m.pulses + 5) : ¬ (m.dir = .forward ∧ n.stalls? = true) := fun ⟨_, h⟩ => by
    rw [hn, MoveContext.stalls?, decide_eq_true_iff] at h
    exact absurd slips (not_lt.mpr h)
  have stalled (n : MoveContext) (hn : n = { m with net := m.net + 1, steps := m.steps + 1 })
      (slips : m.pulses + 5 ≤ (m.steps + 1) / 4) : n.stalls? = true := by
    rw [hn, MoveContext.stalls?, decide_eq_true_iff]
    exact slips
  have nTear (n : MoveContext) (hn : n = { m with net := m.net + 1, steps := m.steps + 1 }) : n.kind.movesTear = false := by
    rw [hn]
    exact tear
  have context (n : MoveContext) (hn : n = { m with net := m.net + 1, steps := m.steps + 1 }) (dir : m.dir = .forward) :
      n = { m with net := m.net + 1, steps := if m.dir = .forward then m.steps + 1 else m.steps } := by
    rw [hn, if_pos dir]
  obtain ⟨n, hn⟩ : ∃ n, n = { m with net := m.net + 1, steps := m.steps + 1 } := ⟨_, rfl⟩
  rw [← hn]
  refine ⟨fun stepping dir short slips => ?_, fun stepping dir short => ?_,
    fun r l q k u stepping dir kind source run rKind link seq ends slips pending inside same hu => ?_,
    fun k stepping dir slips hk few => ?_, fun k v stepping dir slips hk four source hv => ?_⟩
  · rw [step n stepping (context n hn dir), if_neg (calm n hn slips), if_neg (by rw [hn]; exact not_le.mpr short),
      forward n dir, stepping]
  · rw [step { m with net := m.net + 1 } stepping (by rw [if_neg (by rw [dir]; exact MoveDir.noConfusion)]),
      if_neg (fun ⟨h, _⟩ => by rw [dir] at h; cases h), if_neg (not_le.mpr short), reverse _ dir, stepping]
  · have added : r.add n = { r with
        distance := r.distance + m.distance, moved := r.moved + (m.net + 1), stalls := r.stalls + m.stalls } := by
      rw [MotionRun.add, hn]
      dsimp only
      rw [kind]
      rfl
    have fed := State.endMove_feed (s := go up fwd s.drive.state n) (m := n) (by rw [hgo]) (by rw [hn]; exact kind)
      (by rw [hn]; exact source) (by rw [hgo]; exact run) (by rw [hgo, hfwd]; exact pending) (by rw [hgo]; exact inside)
      (by rw [hgo, hn]; exact same)
    rw [step n stepping (context n hn dir), if_neg (calm n hn slips), if_pos (by rw [hn]; exact ends.ge), forward n dir, fed,
      State.completeRun_eq, added, hu, hgo, ← link, ← seq, rKind]
    rfl
  · have count : n.steps - 4 * n.pulses = k := by rw [hk, hn]
    have fewer : ¬ 4 ≤ n.stalls := by rw [hn]; exact not_le.mpr few
    rw [step n stepping (context n hn dir), if_pos ⟨dir, stalled n hn slips⟩, State.stallMove_over_paper (nTear n hn), count,
      if_neg fewer, forward n dir, hgo, hgo, hn]
    rfl
  · have count : n.steps - 4 * n.pulses = k := by rw [hk, hn]
    have many : 4 ≤ n.stalls := by rw [hn]; exact four.ge
    obtain ⟨y, hy⟩ : ∃ y : State, y = { (go up fwd s.drive.state n).stallCorrection k with
      drive := { (go up fwd s.drive.state n).drive with
        move := some { n with net := n.net - k, stalls := n.stalls + 1 } } } := ⟨_, rfl⟩
    have form : y.form = v.form := by
      rw [hy, hv, hgo]
      rfl
    have steppers : y.steppers = up := by rw [hy, hgo]; rfl
    have goes : exec (.step true false) s = .next (y.endMove .jam).settle := by
      rw [step n stepping (context n hn dir), if_pos ⟨dir, stalled n hn slips⟩, State.stallMove_over_paper (nTear n hn), count,
        if_pos many, forward n dir, hy]
    have jams := State.endMove_jam_auto (s := y) (m := { n with net := n.net - k, stalls := n.stalls + 1 }) (by rw [hy])
      (by rw [hn]; exact source)
    rw [form, steppers, hn] at jams
    exact ⟨_, goes, jams⟩

end

end Sys2Proof.Machine

namespace Sys2Proof.Machine

/-! ## The steps of any move (R127, R146, R148 to R151, R156 to R158) -/

theorem PaperState.judgesSlip_iff (p : PaperState) : p.judgesSlip = true ↔ p ≠ .none ∧ p ≠ .loading false := by
  cases p with
  | loading b => cases b <;> simp [PaperState.judgesSlip]
  | none | present | tail | parked => simp [PaperState.judgesSlip]

theorem PaperState.isTail_iff (p : PaperState) : p.isTail = true ↔ ∃ d, p = .tail d := by
  cases p <;> simp [PaperState.isTail]

theorem State.searchFound_iff (v : State) (m : MoveContext) (paper : Bool) : v.searchFound m paper = true ↔
    m.searching = true ∧ ((m.kind = .load ∧ v.form.paper = .loading true) ∨
      (m.kind = .eject ∧ ∃ d, v.form.paper = .tail d) ∨ (m.kind = .park ∧ v.form.paper = .present ∧ paper = false)) := by
  rw [State.searchFound, Bool.and_eq_true, and_congr_right_iff]
  intro _
  cases kind : m.kind <;> simp [PaperState.isTail_iff]

theorem State.afterSearch_eq (v : State) (k : MoveKind) : v.afterSearch k =
    (match k with | .load => 864 + (v.map.tof : Int) | .eject => 1080 | .park => 288 | _ => 0) := by
  cases k <;> rfl

theorem MoveKind.searchFails_eq (k : MoveKind) : k.searchFails = if k = .load then .noPaper else .noEdge := by
  cases k <;> rfl

section
variable {s : State} {m : MoveContext}

/-- What O54 says of the steps of any move. -/
theorem stepsOfMove {n : MoveContext} {paper mark counted found : Bool} {v w : State} {stalls : Prop}
    (stepping : s.drive.state = .stepping) (move : s.drive.move = some m) (hv : v = s.formStep m.dir paper mark)
    (hcounted : counted = true ↔ m.dir = .forward ∧ s.form.paper ≠ .none ∧ s.form.paper ≠ .loading false)
    (hfound : found = true ↔ m.searching = true ∧ ((m.kind = .load ∧ v.form.paper = .loading true) ∨
      (m.kind = .eject ∧ ∃ d, v.form.paper = .tail d) ∨ (m.kind = .park ∧ v.form.paper = .present ∧ paper = false)))
    (hn : n = { m with
      net := m.net + 1
      steps := if counted then m.steps + 1 else m.steps
      searching := m.searching && !found
      distance := if found then (m.net + 1 + v.afterSearch m.kind).toNat else m.distance })
    (hw : w = { v with
      form := { v.form with
        tearDistance := if m.kind = .back ∨ m.kind = .tearAdvance then v.form.tearDistance + m.dir.delta
          else v.form.tearDistance
        paper := if found = true ∧ m.kind = .eject then .none else v.form.paper }
      steppers := ⟨s.steppers.platen + m.dir.delta,
        if s.form.path = .tractor then s.steppers.tractor + m.dir.delta else s.steppers.tractor⟩
      drive := { s.drive with move := some n } })
    (hstalls : stalls ↔ counted = true ∧ n.pulses + 5 ≤ n.steps / 4) :
    (m.dir = .forward → s.form.paper = .tail 73 → w.form.paper = .tail 72 →
      exec (.step paper mark) s = .next (w.endMove .tail).settle) ∧
    (m.dir = .reverse ∨ s.form.paper ≠ .tail 73 ∨ w.form.paper ≠ .tail 72 →
      (¬ stalls → (n.distance : Int) ≤ n.net →
        exec (.step paper mark) s = .next (w.endMove (if n.searching then (if m.kind = .load then .noPaper else .noEdge)
          else .done)).settle) ∧
      (¬ stalls → n.net < n.distance → exec (.step paper mark) s = .next w.settle) ∧
      (∀ (k : Nat) (x y : State), stalls → k = n.steps - 4 * n.pulses → x = w.stallCorrection k →
        y = { x with
          form := { x.form with
            tearDistance := if m.kind = .back ∨ m.kind = .tearAdvance then x.form.tearDistance - k else x.form.tearDistance }
          drive := { w.drive with move := some { n with net := n.net - k, stalls := n.stalls + 1 } } } →
        (n.stalls < 4 → exec (.step paper mark) s = .next ({ y with drive := { y.drive with state := .backoff 12 } }).settle) ∧
        (4 ≤ n.stalls → exec (.step paper mark) s = .next (y.endMove .jam).settle))) := by
  have counts : counted = (decide (m.dir = .forward) && s.form.paper.judgesSlip) := by
    rw [Bool.eq_iff_iff, hcounted, Bool.and_eq_true, decide_eq_true_iff, PaperState.judgesSlip_iff]
  have finds : found = v.searchFound m paper := by rw [Bool.eq_iff_iff, hfound, State.searchFound_iff]
  have kind : n.kind = m.kind := by rw [hn]
  have judged : stalls ↔ counted = true ∧ n.stalls? = true := by
    rw [hstalls, MoveContext.stalls?, decide_eq_true_iff]
  rw [execStep_stepping stepping move, State.stepMove_eq hv counts finds hn hw, ← MoveKind.searchFails_eq]
  refine ⟨fun dir before after => by rw [if_pos ⟨dir, before, after⟩], fun other => ?_⟩
  have inside : ¬ (m.dir = .forward ∧ s.form.paper = .tail 73 ∧ w.form.paper = .tail 72) := by
    rintro ⟨dir, before, after⟩
    obtain h | h | h := other
    · rw [dir] at h
      cases h
    · exact h before
    · exact h after
  rw [if_neg inside]
  refine ⟨fun calm ends => ?_, fun calm short => ?_, fun k x y stall hk hx hy => ?_⟩
  · rw [if_neg (fun h => calm (judged.mpr h)), if_pos ends]
  · rw [if_neg (fun h => calm (judged.mpr h)), if_neg (not_le.mpr short)]
  · rw [← kind] at hy
    rw [if_pos (judged.mp stall), State.stallMove_eq hk hx hy]
    exact ⟨fun few => by rw [if_neg (not_le.mpr few)], fun many => by rw [if_pos many]⟩

end

end Sys2Proof.Machine

namespace Sys2Proof.Machine

/-! ## The end of any move (R128, R139, R147, R150, R151, R153 to R161) -/

/-- The form position record with which a move ends (R150, R154 to R158). -/
theorem State.settleMove_eq {s : State} {k : MoveKind} {e : MoveEnd} {f : FormPosition}
    (hf : f = (match k, e with
      | .load, .done => { s.form with offset := 0, form := 0, paper := .present, trusted := true }
      | .load, .noPaper => { s.form with paper := .none }
      | .load, .jam => { s.form with paper := if s.form.paperSensor then .present else .none }
      | .park, .done => { s.form with paper := .parked }
      | .back, .done => { s.form with tear := .atPrint, tearDistance := 0 }
      | _, _ => s.form)) (t : State) (same : t.form = s.form) : t.settleMove k e = { t with form := f } := by
  rw [hf, ← same]
  cases k <;> cases e <;> rfl

section
variable {s z : State} {m : MoveContext} {e : MoveEnd}

theorem State.phaseCorrection_paper (s : State) :
    s.phaseCorrection.form.path = s.form.path ∧ s.phaseCorrection.form.paper = s.form.paper := by
  unfold State.phaseCorrection
  split <;> exact ⟨rfl, rfl⟩

/-- What the end of a move leaves before its source is told: the line, the motion entry's report, the path, and the paper
state with which it ends. -/
theorem State.endMove_before_source {f : FormPosition} {v x y : State}
    (jam : e = .jam → v = { s with
      form := { f with pendingCorrection := none, trusted := false }
      drive := { s.drive with state := .stopped, move := none } })
    (other : e ≠ .jam → v = ({ s with form := f, drive := { s.drive with state := .stopped, move := none } }).phaseCorrection)
    (crossed : v.form.offset = 0 ∨ v.form.form ≠ m.startForm →
      x = v.postBoth (.formBoundary v.form.form v.form.offset v.map.len m.dir v.form.trusted))
    (within : v.form.offset ≠ 0 → v.form.form = m.startForm → x = v)
    (hy : y = if e = .jam then x.postBoth (.jam m.source m.kind m.distance m.net x.form.form x.form.offset)
      else if e = .done ∧ m.kind = .tearAdvance then
        x.postBoth (.tearPosition x.form.form x.form.offset x.form.tearDistance m.source)
      else x)
    (hz : z = { y with arb := { y.arb with halt := { y.arb.halt with
      jam := y.arb.halt.jam || decide (e = .jam)
      paperOut := y.arb.halt.paperOut || decide (e = .tail)
      noPaper := y.arb.halt.noPaper || decide (e = .noPaper) } } }) :
    z.line = s.line ∧ z.drive.run = s.drive.run ∧ z.form.path = f.path ∧ z.form.paper = f.paper := by
  have corrected : v.line = s.line ∧ v.drive.run = s.drive.run ∧ v.form.path = f.path ∧ v.form.paper = f.paper := by
    by_cases jams : e = .jam
    · rw [jam jams]
      exact ⟨rfl, rfl, rfl, rfl⟩
    · obtain ⟨path, paper⟩ := State.phaseCorrection_paper
        ({ s with form := f, drive := { s.drive with state := .stopped, move := none } })
      rw [other jams]
      refine ⟨?_, ?_, path, paper⟩ <;> rw [State.phaseCorrection_frame]
  have noticed : x = v ∨ ∃ n, x = v.postBoth n := by
    by_cases inside : v.form.offset ≠ 0 ∧ v.form.form = m.startForm
    · exact .inl (within inside.1 inside.2)
    · exact .inr ⟨_, crossed (by tauto)⟩
  have told : y = x ∨ ∃ n, y = x.postBoth n := by
    rw [hy]
    split
    · exact .inr ⟨_, rfl⟩
    · split
      · exact .inr ⟨_, rfl⟩
      · exact .inl rfl
  rw [hz]
  obtain rfl | ⟨n, rfl⟩ := noticed <;> obtain rfl | ⟨n, rfl⟩ := told <;> exact corrected

/-- A motion entry after a move that has ended (R147, R150, R151, R153 to R160). -/
theorem State.endSource_entry_eq {paper : PaperState} {path : PaperPath} {l : Link} {q : SeqNo} {r b : MotionRun}
    {next : MoveKind → State} {done : State → MoveOutcome → Option NotMadeReason → State} {inside : Prop}
    (hPath : z.form.path = path) (hPaper : m.kind = .back → e = .done → z.form.paper = paper)
    (source : m.source = .entry l q) (run : z.drive.run = some r) (hb : b = r.add m)
    (hnext : ∀ k, next k = { z with drive := { z.drive with run := some b, due := some ⟨.entry r.link r.seq, k⟩ } })
    (hdone : ∀ w o reason, done w o reason = w.completeRun b o reason)
    (hin : inside ↔ paper = .present ∨ ∃ d, paper = .tail d) :
    (e = .jam → z.endSource m e = { z with drive := { z.drive with run := some { b with jammed := true } } }) ∧
    (∀ o, e = .tail ∧ o = .tail ∨ e = .noEdge ∧ o = .noEdge ∨ e = .noPaper ∧ o = .noPaper →
      z.endSource m e = done z o none) ∧
    (e = .done →
      (∀ k, m.kind = .back → (inside ∧ ((∃ n, r.kind = .feed n ∧ k = .feed n) ∨ (r.kind = .vtab ∧ k = .vtab) ∨
          (r.kind = .formfeed ∧ k = .formfeed) ∨ (∃ n, path = .tractor ∧ r.kind = .reverse n ∧ k = .reverse n) ∨
          (path = .sheet ∧ r.kind = .path .tractor ∧ k = .eject))) ∨
          (r.kind = .load ∧ (∃ d, paper = .tail d) ∧ k = .eject) → z.endSource m e = next k) ∧
      (∀ reason, m.kind = .back → (reason = .path ∧ path = .sheet ∧ ∃ n, r.kind = .reverse n) ∨
          (reason = .paper ∧ (paper = .none ∨ paper = .parked) ∧ (r.kind = .vtab ∨ r.kind = .formfeed ∨
            ∃ n, r.kind = .feed n ∨ (path = .tractor ∧ r.kind = .reverse n))) →
        z.endSource m e = done z .notMade (some reason)) ∧
      (m.kind = .tearFeed → z.endSource m e = next .tearAdvance) ∧
      (m.kind = .eject → r.kind = .load → z.endSource m e = next .load) ∧
      (∀ p, m.kind = .eject ∨ m.kind = .park → r.kind = .path p → z.endSource m e = done (z.changePath p) .done none) ∧
      (m.kind ≠ .back → m.kind ≠ .tearFeed → (m.kind = .eject → r.kind ≠ .load) →
        (m.kind = .eject ∨ m.kind = .park → ∀ p, r.kind ≠ .path p) → z.endSource m e = done z .done none)) := by
  obtain ⟨kind, link, seq⟩ := r.add_kind m
  rw [← hb] at kind link seq
  have moves (k : MoveKind) : z.runMove b k = next k := by
    rw [hnext, ← link, ← seq]
    rfl
  obtain ⟨jam, ends, made⟩ := State.endSource_entry (e := e) source run hb
  refine ⟨jam, fun o h => by rw [hdone, ends o h], fun h => ?_⟩
  rw [made h, ← kind]
  refine ⟨fun k back goes => ?_, fun reason back barred => ?_, fun tear => ?_, fun eject load => ?_,
    fun p ends path => ?_, fun back tear load path => ?_⟩
  · rw [← hPaper back h] at hin goes
    rw [back, ← moves]
    show z.judgeRun b = _
    obtain ⟨here, kinds⟩ | ⟨load, ⟨d, tail⟩, rfl⟩ := goes
    · exact State.judgeRun_moves (hin.mp here) (by rw [hPath]; exact kinds)
    · exact State.judgeRun_load_of_tail load tail
  · rw [back, hdone]
    show z.judgeRun b = _
    exact State.judgeRun_barred (by rw [hPath, hPaper back h]; exact barred)
  · rw [tear, ← moves]
    rfl
  · rw [eject, ← moves]
    exact State.runNext_of_load load
  · rw [hdone]
    exact State.runNext_of_path ends path
  · rw [hdone]
    exact State.runNext_of_last back tear load path

end

end Sys2Proof.Machine

namespace Sys2Proof.Machine

/-! ## Pulses of the paper motion sensor (R148) -/

section
variable {s : State} {m : MoveContext}

theorem execSensorPulse_counts (move : s.drive.move = some m) (stepping : s.drive.state = .stepping)
    (dir : m.dir = .forward) (held : s.form.paper ≠ .none) (loading : s.form.paper ≠ .loading false) :
    exec .sensorPulse s = .next { s with drive := { s.drive with move := some { m with pulses := m.pulses + 1 } } } := by
  have counts : s.countsPulse m = true := by
    rw [State.countsPulse, stepping, dir, (PaperState.judgesSlip_iff _).mpr ⟨held, loading⟩]
    rfl
  show execSensorPulse s = _
  rw [execSensorPulse, move]
  exact if_pos counts

theorem execSensorPulse_barred (move : s.drive.move = some m)
    (barred : s.drive.state ≠ .stepping ∨ m.dir = .reverse ∨ s.form.paper = .none ∨ s.form.paper = .loading false) :
    exec .sensorPulse s = .next s := by
  have none : ¬ s.countsPulse m = true := by
    rw [State.countsPulse, Bool.and_eq_true, Bool.and_eq_true, decide_eq_true_iff, decide_eq_true_iff,
      PaperState.judgesSlip_iff]
    rintro ⟨⟨stepping, dir⟩, held, loading⟩
    obtain h | h | h | h := barred
    · exact h stepping
    · rw [dir] at h
      cases h
    · exact held h
    · exact loading h
  show execSensorPulse s = _
  rw [execSensorPulse, move]
  exact if_neg none

theorem execSensorPulse_of_stopped (move : s.drive.move = none) : exec .sensorPulse s = .next s := by
  show execSensorPulse s = _
  rw [execSensorPulse, move]

/-- A step of the backoff of any move, and the twelfth (R149). -/
theorem backoffSteps {paper mark : Bool} {v : State} {go : DriveState → State} (move : s.drive.move = some m)
    (hv : v = s.formStep .reverse paper mark)
    (hgo : ∀ d, go d = { v with
      form := { v.form with
        tearDistance := if m.kind = .back ∨ m.kind = .tearAdvance then s.form.tearDistance - 1 else s.form.tearDistance }
      steppers := ⟨s.steppers.platen - 1,
        if s.form.path = .tractor then s.steppers.tractor - 1 else s.steppers.tractor⟩
      drive := { s.drive with state := d, move := some { m with net := m.net - 1 } } }) :
    (∀ n, s.drive.state = .backoff n → 1 < n → exec (.step paper mark) s = .next (go (.backoff (n - 1)))) ∧
    (s.drive.state = .backoff 1 → exec (.step paper mark) s = .next (go (.retryWait (200000 * 2 ^ (m.stalls - 1))))) := by
  refine ⟨fun n backoff more => ?_, fun backoff => ?_⟩
  · rw [execStep_backoff backoff move, State.backoffStep_eq n hv, if_neg (not_le.mpr more), hgo]
  · rw [execStep_backoff backoff move, State.backoffStep_eq 1 hv, if_pos le_rfl, hgo]

end

/-- Settles O54: the steps by `stepsOverPaper`, `backoffSteps` and `stepsOfMove`, the end of a move by `State.endMove_eq` and
the rules of its source, and the change of path by what `State.edgeOff` does. -/
theorem paperStepsStallAndRetry : Obligations.PaperStepsStallAndRetry := by
  unfold Obligations.PaperStepsStallAndRetry
  refine ⟨fun s m up down move tear search present none hup hdown => ⟨fun fwd rev go hfwd hrev hgo => ?_,
      fun stepping dir => ?_, fun n wait => execRetry_of_wait wait move⟩,
    fun s v m paper mark go move hv hgo => ?_,
    fun s => ⟨fun m move => ⟨execSensorPulse_counts move, execSensorPulse_barred move⟩, execSensorPulse_of_stopped⟩,
    fun s m n paper mark counted found one further v w stalls stepping move hv hone hcounted hfound hfurther hn hw hstalls => ?_,
    fun s m e f v x y z move hf jam other crossed within hy hz => ?_, fun s off hoff => ?_⟩
  · have hup' : up = s.steppers.driven s.form.path .forward := hup.trans (by cases s.form.path <;> rfl)
    have hdown' : down = s.steppers.driven s.form.path .reverse := hdown.trans (by cases s.form.path <;> rfl)
    obtain ⟨forward, reverse, feed, stall, jams⟩ :=
      stepsOverPaper move tear search present none hup' hdown' hfwd hrev hgo
    have still : ¬ (m.kind = .back ∨ m.kind = .tearAdvance) := fun h => by
      rw [m.kind.movesTear_iff.mpr h] at tear
      cases tear
    obtain ⟨backs, last⟩ := backoffSteps (paper := true) (mark := false)
      (go := fun d => go down rev d { m with net := m.net - 1 }) move
      (State.formStep_over_paper s .reverse present none).symm (fun d => by
        rw [hgo, hrev, hdown', if_neg still, Steppers.driven_eq]
        rfl)
    exact ⟨forward, reverse, feed, stall, jams, backs, last⟩
  · exact execSensorPulse_counts move stepping dir (by rw [present]; exact PaperState.noConfusion)
      (by rw [present]; exact PaperState.noConfusion)
  · obtain ⟨backs, last⟩ := backoffSteps move hv hgo
    exact ⟨backs, last, fun n wait => execRetry_of_wait wait move⟩
  · obtain rfl : one = m.dir.delta := hone.trans (by cases m.dir <;> rfl)
    obtain rfl : further = v.afterSearch m.kind := hfurther.trans (State.afterSearch_eq v m.kind).symm
    exact stepsOfMove stepping move hv hcounted hfound hn hw hstalls
  · have ended := State.endMove_eq move (State.settleMove_eq hf) jam other crossed within hy hz
    obtain ⟨line, run, path, paper⟩ := State.endMove_before_source jam other crossed within hy hz
    have fPath : f.path = s.form.path := by
      rw [hf]
      split <;> rfl
    have fPaper (back : m.kind = .back) (done : e = .done) : f.paper = s.form.paper := by
      rw [hf, back, done]
    refine ⟨fun auto => ended.trans (State.endSource_auto auto), fun c source held => ?_,
      fun l q r b next done inside source held hb hnext hdone hin => ?_⟩
    · rw [ended]
      exact State.endSource_line source (line.trans held)
    · have added : b = r.add m := by rw [hb, MotionRun.add_eq] <;> rfl
      obtain ⟨kind, link, seq⟩ := r.add_kind m
      rw [← added] at kind link seq
      rw [ended]
      refine State.endSource_entry_eq (path.trans fPath) (fun back made => paper.trans (fPaper back made)) source
        (run.trans held) added hnext (fun w o reason => ?_) hin
      rw [hdone, State.completeRun_eq, kind, link, seq, MotionKind.noDistance_ite] <;> rfl
  · refine ⟨s.changePath_tractor, fun none => ?_, fun c n learned hn => ?_⟩
    · exact (State.edgeOff_of_none (s := s.modifyForm fun f => { f with path := .sheet }) none).trans (by rw [hoff]; rfl)
    · exact (State.edgeOff_of_some (s := s.modifyForm fun f => { f with path := .sheet }) learned hn).trans (by rw [hoff]; rfl)

end Sys2Proof.Machine

namespace Sys2Proof.Machine

/-! ## What an event brings, step by step (R42, R165, R168, R171) -/

section
variable {s : State}

/-- The LOAD of R171 needs a halt. -/
theorem State.loadReady_of_clear (clear : s.arb.halt.isEmpty = true) : s.loadReady = none := by
  rw [HaltSet.isEmpty_iff] at clear
  rw [State.loadReady, clear]
  rfl

/-- The LOAD of R171 is the Console head. -/
theorem State.loadReady_of_other (other : ∀ d, s.headEntry .console = some d → d.record ≠ .motion .load) :
    s.loadReady = none := by
  cases h : s.loadReady with
  | none => rfl
  | some e =>
    obtain ⟨head, -, load, -⟩ := State.loadReady_spec h
    exact absurd load (other e head)

theorem State.not_isIdle_of_halt (halted : s.arb.halt.isEmpty = false) : s.isIdle = false := by
  cases h : s.isIdle with
  | false => rfl
  | true =>
    obtain ⟨clear, -⟩ := State.isIdle_spec h
    rw [halted] at clear
    cases clear

/-- On an IDLE engine the selected head is judged (R165). -/
theorem State.settleOnce_of_idle {l : Link} (idle : s.isIdle = true) (line : s.line = none) (head : s.select = some l) :
    s.settleOnce = some (s.judgeHead l) := by
  obtain ⟨clear, -⟩ := State.isIdle_spec idle
  rw [State.settleOnce, State.planDue_of_line_none line, State.loadReady_of_clear clear, head]
  dsimp only
  rw [if_pos idle]

theorem State.settleOnce_of_load {e : Entry} (line : s.line = none) (ready : s.loadReady = some e) :
    s.settleOnce = some (s.grant .console e) := by
  rw [State.settleOnce, State.planDue_of_line_none line, ready]

/-- In a halt an event grants the LOAD of R171 alone. -/
theorem State.settleOnce_of_halt (line : s.line = none) (ready : s.loadReady = none) (halted : s.arb.halt.isEmpty = false) :
    s.settleOnce = none := by
  rw [State.settleOnce, State.planDue_of_line_none line, ready]
  dsimp only
  rw [if_neg (by rw [State.not_isIdle_of_halt halted]; exact Bool.false_ne_true)]

/-- With nothing in the queues nothing is selected. -/
theorem State.select_of_empty (empty : ∀ l, (s.store.get l).queue = []) : s.select = none := by
  cases h : s.select with
  | none => rfl
  | some l =>
    obtain ⟨e, head, -⟩ := State.select_spec h
    rw [State.headEntry, empty l] at head
    cases head

/-- With nothing in the queues and no line in flight nothing is granted. -/
theorem State.settleOnce_of_empty (line : s.line = none) (empty : ∀ l, (s.store.get l).queue = []) :
    s.settleOnce = none := by
  have load : s.loadReady = none := State.loadReady_of_other fun d head => by
    rw [State.headEntry, empty .console] at head
    cases head
  rw [State.settleOnce, State.planDue_of_line_none line, load, State.select_of_empty empty]
  exact ite_self _

/-- The timers as a grant leaves them (R168, R175). -/
theorem State.judgeTimers_of_opened (busy : s.arb.granted ≠ none) (timer : s.arb.autoTimer = none) : s.judgeTimers = s := by
  have arb : { s.arb with autoTimer := none } = s.arb := by rw [← timer]
  rw [State.judgeTimers_of_granted busy, arb]

/-- With an entry granted and no pass due that can be planned, an event leaves the state as it is. -/
theorem State.settle_of_opened {w : State} (once : s.settleOnce = some w) (busy : w.arb.granted ≠ none)
    (timer : w.arb.autoTimer = none) (waits : w.planDue = none) : s.settle = w := by
  have stop : w.settleOnce = none := by
    rw [State.settleOnce_of_granted busy, waits]
    rfl
  rw [State.settle_of_one once stop, State.judgeTimers_of_opened busy timer]

/-- A step that is followed by one more. -/
theorem State.settle_of_two {w x : State} (once : s.settleOnce = some w) (again : w.settleOnce = some x)
    (busy : x.arb.granted ≠ none) (timer : x.arb.autoTimer = none) (waits : x.planDue = none) : s.settle = x := by
  have stop : x.settleOnce = none := by
    rw [State.settleOnce_of_granted busy, waits]
    rfl
  unfold State.settle
  rw [State.settleLoop_step once, State.settleLoop_step again, State.settleLoop_stop stop,
    State.judgeTimers_of_opened busy timer]

/-! ### Plans (R42, R44) -/

theorem State.settleOnce_of_due {p : PassId} (due : s.planDue = some p) : s.settleOnce = some (s.planNow p) := by
  rw [State.settleOnce, due]

theorem State.planNow_of_some {u : State} {p q : PassId} (plan : s.planPass p s.planPosition = (u, some q)) :
    s.planNow p = u.setStage (.planned q) := by
  rw [State.planNow, plan]

theorem State.planNow_of_none {u : State} {p : PassId} (plan : s.planPass p s.planPosition = (u, none)) :
    s.planNow p = u.afterPass p := by
  rw [State.planNow, plan]

/-- A line whose pass is planned has none due. -/
theorem State.planDue_setStage_planned (s : State) (q : PassId) : (s.setStage (.planned q)).planDue = none := by
  cases line : s.line with
  | none => exact State.planDue_of_line_none (by rw [State.setStage, State.modifyLine, line]; rfl)
  | some c =>
    exact State.planDue_of_stage (c := { c with stage := .planned q }) (by rw [State.setStage, State.modifyLine, line]; rfl)
      fun _ => LineStage.noConfusion

theorem State.loseDots_arb (s : State) (d : DotSet) (degraded : Bool) : (s.loseDots d degraded).arb = s.arb := by
  unfold State.loseDots
  split <;> rfl

theorem State.planLosses_arb (s : State) (p : PassId) (d : DotSet) : (s.planLosses p d).arb = s.arb := by
  cases p with
  | main _ | repair => rfl
  | up _ | down _ => exact s.loseDots_arb d true

theorem State.planWith_arb (s : State) (i : PlanInputs) (c : LineContext) (f : LineFields) (p : PassId) (taken : DotSet) :
    (s.planWith i c f p taken).1.arb = s.arb := by
  unfold State.planWith
  dsimp only
  split
  · rfl
  · split
    · exact s.loseDots_arb _ _
    · rfl

/-- A plan leaves the Arbiter as it is. -/
theorem State.planPass_arb (s : State) (p : PassId) (x : Int) : (s.planPass p x).1.arb = s.arb := by
  cases line : s.line with
  | none => rw [State.planPass, line]
  | some c =>
    cases fields : s.lineFields with
    | none => rw [State.planPass, line, fields]
    | some f =>
      rw [State.planPass_eq line fields, State.planWith_arb, State.planLosses_arb]
      split <;> rfl

theorem makePlan_hot (i : PlanInputs) (f : LineFields) (p : PassId) (d : Option Dir) (ps : List Proto) :
    (makePlan i f p d ps).hot = decide (i.thermal = .hot) := rfl

/-- A whole main pass that is due, with dots for one list (R41, R44, R46). -/
theorem State.planNow_of_main {c : LineContext} {f : LineFields} {i : Fin 2} {x : Nat} {ps : List Proto} {v : State}
    (line : s.line = some c) (fields : s.lineFields = some f) (supply : s.heat.supply = some x) (stopped : s.car.state = .stopped)
    (free : s.lists[i.val] = .free) (first : i = 1 → s.lists[0] ≠ .free)
    (hps : ps = protosOf f (.main .whole) (dotsInRows (~~~s.failedPins) c.unstruck)) (some : ps ≠ []) (fit : ps.length ≤ 5120)
    (hv : v = { s with
      line := .some { c with stage := .planned (.main .whole) }
      lists := s.lists.set i.val (.building (makePlan
        ⟨s.width, s.heat.thermal, x, s.arb.head.gap, s.arb.head.trim, s.arb.head.uni, s.car.counter⟩ f (.main .whole) none ps))
      dwell := if s.heat.thermal = .hot then .waiting else .none }) :
    s.planNow (.main .whole) = v := by
  have inputs : s.planInputs s.planPosition =
      ⟨s.width, s.heat.thermal, x, s.arb.head.gap, s.arb.head.trim, s.arb.head.uni, s.car.counter⟩ := by
    rw [State.planInputs, State.planPosition, if_pos stopped, supply]
    rfl
  have read : (if s.heat.supply.isNone then s.useFree else s) = s := if_neg (by rw [supply]; exact Bool.false_ne_true)
  have taken : s.dotsTaken c (.main .whole) = dotsInRows (~~~s.failedPins) c.unstruck := rfl
  have plan := State.planPass_eq line fields (.main .whole) s.planPosition
  rw [read, inputs, taken] at plan
  rw [State.planWith_of_fit (hps ▸ some) PassId.noConfusion (.inr (hps ▸ fit)), ← hps] at plan
  rw [State.planNow_of_some plan, hv, State.setStage, State.modifyLine]
  dsimp only [State.planLosses]
  rw [State.putPlan_eq free first]
  simp only [line, Option.map_some, makePlan_hot, decide_eq_true_eq]

end

end Sys2Proof.Machine

namespace Sys2Proof.Machine

/-! ## A grant and the work that it opens (R40, R102, R152, R168, R169) -/

/-- The state in which the head of a link has been granted, and the auto-tear timer has stopped (R168, R175). -/
def State.headGranted (s : State) (l : Link) (e : Entry) (es : List Entry) : State := { s with
  store := s.store.set l { s.store.get l with queue := { e with state := .granted } :: es }
  arb := { s.arb with granted := some ⟨l, e.seq⟩, autoTimer := none } }

theorem PerLink.set_set {α : Type} (x : PerLink α) (l : Link) (v w : α) : (x.set l v).set l w = x.set l w := by
  cases l <;> rfl

section
variable {s : State} {l : Link} {e : Entry} {es : List Entry}

theorem State.headGranted_queue (s : State) (l : Link) (e : Entry) (es : List Entry) :
    ((s.headGranted l e es).store.get l).queue = { e with state := .granted } :: es := by
  rw [State.headGranted]
  dsimp only
  rw [PerLink.get_set_same]

theorem State.headGranted_eq (queue : (s.store.get l).queue = e :: es) :
    (s.modifyHead l (fun e => { e with state := .granted })).modifyArb
      (fun a => { a with granted := some { link := l, seq := e.seq }, autoTimer := none }) = s.headGranted l e es := by
  dsimp only [State.modifyArb, State.modifyHead, State.modifyStore, State.headGranted]
  rw [queue]

theorem State.grant_of_line {f : LineFields} (queue : (s.store.get l).queue = e :: es) (record : e.record = .line f) :
    s.grant l e = (if l = .job then (s.headGranted l e es).modifyArb (fun a => { a with hold := true })
      else s.headGranted l e es).openLine l f := by
  unfold State.grant
  dsimp only
  rw [State.headGranted_eq queue, record]

theorem State.grant_of_test {p : Option Pin} (queue : (s.store.get l).queue = e :: es)
    (record : e.record = .motion (.coilTest p)) : s.grant l e = (s.headGranted l e es).openTest e.seq p := by
  unfold State.grant
  dsimp only
  rw [State.headGranted_eq queue, record]

theorem State.grant_of_load (queue : (s.store.get l).queue = e :: es) (record : e.record = .motion .load) :
    s.grant l e = ((s.headGranted l e es).modifyHalt
      (fun h => { h with paperOut := false, noPaper := false })).startRun l e.seq .load := by
  unfold State.grant
  dsimp only
  rw [State.headGranted_eq queue, record]

/-- A motion entry other than a coil test, granted with the halt set empty, is handed to the drive (R152). -/
theorem State.grant_of_motion {k : MotionKind} (queue : (s.store.get l).queue = e :: es) (record : e.record = .motion k)
    (other : ∀ p, k ≠ .coilTest p) (clear : s.arb.halt.isEmpty = true) :
    s.grant l e = (s.headGranted l e es).startRun l e.seq k := by
  cases k with
  | load =>
    have keeps : (s.headGranted l e es).modifyHalt (fun h => { h with paperOut := false, noPaper := false }) =
        s.headGranted l e es := by
      rw [HaltSet.isEmpty_iff] at clear
      rw [State.modifyHalt, State.headGranted]
      dsimp only
      rw [clear]
    rw [State.grant_of_load queue record, keeps]
  | coilTest p => exact absurd rfl (other p)
  | feed _ | vtab | formfeed | reverse _ | tear | park | path _ =>
    unfold State.grant
    dsimp only
    rw [State.headGranted_eq queue, record]

/-! ### Lines (R5, R40) -/

/-- The state in which a line has been granted and opened, in a stage: its result holds the clipped dots, and a Job line
takes the hold (R5, R40, R169). -/
def State.lineOpened (s : State) (l : Link) (e : Entry) (es : List Entry) (f : LineFields) (st : LineStage) : State :=
  { s.headGranted l { e with
      result := ⟨clippedCount s.width f, 0, clippedCount s.width f != 0, false, false, false, false, false⟩ } es with
    line := some ⟨l, st, 0, strikableDots s.width f, [], [], [], none, false, false⟩
    arb := { s.arb with granted := some ⟨l, e.seq⟩, autoTimer := none, hold := s.arb.hold || (l == .job) } }

theorem State.grant_line_eq {f : LineFields} (queue : (s.store.get l).queue = e :: es) (record : e.record = .line f) :
    s.grant l e = if s.form.tear = .atTear then
        { s.lineOpened l e es f .returning with drive := { s.drive with due := some ⟨.line, .back⟩ } }
      else s.lineOpened l e es f (.planDue (.main .whole)) := by
  obtain ⟨w, hw⟩ : ∃ w : State, w = if l = .job then (s.headGranted l e es).modifyArb (fun a => { a with hold := true })
      else s.headGranted l e es := ⟨_, rfl⟩
  have held : w = { s.headGranted l e es with
      arb := { s.arb with granted := some ⟨l, e.seq⟩, autoTimer := none, hold := s.arb.hold || (l == .job) } } := by
    rw [hw]
    cases l with
    | job => simp [State.modifyArb, State.headGranted]
    | console => simp [State.headGranted]
  have head : (w.store.get l).queue = { e with state := .granted } :: es := by
    rw [held]
    exact s.headGranted_queue l e es
  have zeroed : ∀ n : Nat, ({ clipped := n, clippedFlag := n ≠ 0 } : LineResult) =
      ⟨n, 0, n != 0, false, false, false, false, false⟩ := fun n => by cases n <;> rfl
  rw [State.grant_of_line queue record, ← hw]
  unfold State.openLine
  dsimp only
  rw [State.modifyResult_eq head, zeroed, held]
  dsimp only [State.headGranted, State.lineOpened, State.setDue]
  by_cases tear : s.form.tear = .atTear
  · simp [tear, PerLink.set_set]
  · simp [tear, PerLink.set_set]

theorem State.lineFields_lineOpened {f : LineFields} (record : e.record = .line f) (st : LineStage) :
    (s.lineOpened l e es f st).lineFields = some f := by
  rw [State.lineFields_iff]
  refine ⟨_, _, rfl, congrArg List.head? (s.headGranted_queue l _ es), ?_⟩
  exact record

/-! ### Coil tests (R102, R103) -/

/-- A coil test whose pin waits for its channel. -/
theorem State.openTest_waits {n : SeqNo} {x : Option Pin} {p : Pin} {rest : List Pin} (pins : pinsToTest x = p :: rest)
    (busy : s.channel p ≠ .ready) : s.openTest n x = { s with test := some ⟨n, rest, some p, .waiting, 0⟩ } := by
  rw [State.openTest, State.testAdvance, pins]
  dsimp only [State.setTest, State.testProceed]
  unfold State.testGo
  exact if_neg busy

/-- A coil test whose pin begins its pulse at once. -/
theorem State.openTest_pulses {n : SeqNo} {x : Option Pin} {p : Pin} {rest : List Pin} {v : Nat}
    (pins : pinsToTest x = p :: rest) (ready : s.channel p = .ready) (gate : s.heat.thermal ≠ .limit)
    (supply : s.heat.lowSupply = false) (read : s.heat.supply = some v) (stopped : s.car.state = .stopped) :
    s.openTest n x = { s with
      channels := s.channels.set p.val (.drive 600 true)
      heat := { s.heat with acc := s.heat.acc.set p.val (min 65535 (s.heatOf p + 60)) }
      test := some ⟨n, rest, some p, .pulse 0, v⟩ } := by
  obtain ⟨w, hw⟩ : ∃ w : State, w = { s with test := some ⟨n, rest, some p, .waiting, 0⟩ } := ⟨_, rfl⟩
  have opened : s.openTest n x = w.testProceed := by
    rw [State.openTest, State.testAdvance, pins, hw]
    rfl
  have bar : w.testBar = none := by
    rw [hw]
    simp [State.testBar, gate, supply, stopped]
  have free : (if w.heat.supply.isNone then w.useFree else w) = w := by
    rw [hw]
    exact if_neg (by rw [read]; exact Bool.false_ne_true)
  have level : w.heat.supply.getD (Config.unreadSupply w.freeIndex) = v := by
    rw [hw]
    dsimp only
    rw [read]
    rfl
  have test : w.test = some ⟨n, rest, some p, .waiting, 0⟩ := by rw [hw]
  have channel : w.channel p = .ready := by rw [hw]; exact ready
  rw [opened, State.testProceed]
  unfold State.testGo
  rw [test]
  dsimp only
  rw [if_pos channel, free, bar, level, hw]
  rfl

/-! ### Motion entries (R152 to R159) -/

/-- The report of a motion entry that has made no move. -/
def MotionRun.fresh (l : Link) (n : SeqNo) (k : MotionKind) : MotionRun := ⟨l, n, k, 0, 0, 0, 0, false⟩

theorem State.startRun_returns {n : SeqNo} {k : MotionKind} (back : s.needsReturn k = true) :
    s.startRun l n k = s.runMove (.fresh l n k) .back := if_pos back

theorem State.startRun_stays {n : SeqNo} {k : MotionKind} (stays : s.needsReturn k = false) :
    s.startRun l n k = s.judgeRun (.fresh l n k) := if_neg (by rw [stays]; exact Bool.false_ne_true)

/-- The entries that begin with the return from the tear position (R155). -/
theorem State.needsReturn_of_torn {k : MotionKind} (torn : s.form.tear = .atTear)
    (kinds : (∃ n, k = .feed n ∨ k = .reverse n) ∨ k = .vtab ∨ k = .formfeed ∨ (k = .load ∧ ∃ d, s.form.paper = .tail d) ∨
      (k = .path .tractor ∧ s.form.path = .sheet ∧ (s.form.paper = .present ∨ ∃ d, s.form.paper = .tail d))) :
    s.needsReturn k = true := by
  obtain ⟨n, rfl | rfl⟩ | rfl | rfl | ⟨rfl, tail⟩ | ⟨rfl, path, inside⟩ := kinds
  · simp [State.needsReturn, torn]
  · simp [State.needsReturn, torn]
  · simp [State.needsReturn, torn]
  · simp [State.needsReturn, torn]
  · simp [State.needsReturn, torn, (PaperState.isTail_iff _).mpr tail]
  · simp [State.needsReturn, torn, path, PaperState.isIn_of_in inside]

theorem State.needsReturn_of_print {k : MotionKind} (print : s.form.tear = .atPrint) : s.needsReturn k = false := by
  simp [State.needsReturn, print]

/-- The entries that do not begin with it, wherever the paper stands. -/
theorem State.needsReturn_of_other {k : MotionKind} (other : k = .tear ∨ k = .park ∨ k = .path .sheet ∨ k = .path s.form.path ∨
    (k = .load ∧ ∀ d, s.form.paper ≠ .tail d) ∨ (s.form.paper.isIn = false ∧ ∃ p, k = .path p)) :
    s.needsReturn k = false := by
  obtain rfl | rfl | rfl | rfl | ⟨rfl, calm⟩ | ⟨out, p, rfl⟩ := other
  · simp [State.needsReturn]
  · simp [State.needsReturn]
  · simp [State.needsReturn, eq_comm]
  · simp [State.needsReturn]
  · have no : s.form.paper.isTail = false := by
      rw [Bool.eq_false_iff, Ne, PaperState.isTail_iff]
      exact fun ⟨d, h⟩ => calm d h
    simp [State.needsReturn, no]
  · simp [State.needsReturn, out]

theorem PaperState.isIn_of_away {p : PaperState} (away : p = .none ∨ p = .parked) : p.isIn = false := by
  obtain rfl | rfl := away <;> rfl

/-- The other first moves of a motion entry (R154, R156, R158, R159). -/
theorem State.judgeRun_first {b : MotionRun} {m : MoveKind}
    (kinds : ((s.form.paper = .present ∨ ∃ d, s.form.paper = .tail d) ∧ s.form.path = .tractor ∧
        (b.kind = .park ∨ b.kind = .path .sheet) ∧ m = .park) ∨
      (s.form.path = .tractor ∧ s.form.paper = .present ∧ s.form.tear = .atPrint ∧ b.kind = .tear ∧
        m = if s.form.offset = 0 then .tearAdvance else .tearFeed) ∨
      ((s.form.paper = .none ∨ s.form.paper = .parked) ∧ b.kind = .load ∧ m = .load)) : s.judgeRun b = s.runMove b m := by
  unfold State.judgeRun
  obtain ⟨inside, path, kind | kind, rfl⟩ | ⟨path, paper, tear, kind, rfl⟩ | ⟨paper | paper, kind, rfl⟩ := kinds <;>
    rw [kind] <;> dsimp only
  · simp [path, PaperState.isIn_of_in inside]
  · simp [path, PaperState.isIn_of_in inside]
  · by_cases top : s.form.offset = 0 <;> simp [path, paper, tear, top]
  · rw [paper]; rfl
  · rw [paper]; rfl

/-- The other entries that complete without motion (R154, R156, R158, R159). -/
theorem State.judgeRun_ends {b : MotionRun} {o : MoveOutcome} {reason : Option NotMadeReason}
    (kinds : (o = .notMade ∧ reason = some .path ∧ s.form.path = .sheet ∧ (b.kind = .tear ∨ b.kind = .park)) ∨
      (o = .notMade ∧ reason = some .paper ∧ s.form.path = .tractor ∧ s.form.paper ≠ .present ∧ b.kind = .tear) ∨
      (o = .notMade ∧ reason = some .state ∧ s.form.paper = .present ∧ b.kind = .load) ∨
      (o = .done ∧ reason = none ∧ ((s.form.path = .tractor ∧ s.form.paper = .present ∧ s.form.tear = .atTear ∧
          b.kind = .tear) ∨
        (s.form.path = .tractor ∧ (s.form.paper = .none ∨ s.form.paper = .parked) ∧ b.kind = .park) ∨
        b.kind = .path s.form.path))) : s.judgeRun b = s.completeRun b o reason := by
  unfold State.judgeRun
  obtain ⟨rfl, rfl, path, kind | kind⟩ | ⟨rfl, rfl, path, paper, kind⟩ | ⟨rfl, rfl, paper, kind⟩ | ⟨rfl, rfl, kinds⟩ := kinds
  · rw [kind]; simp [path]
  · rw [kind]; simp [path]
  · rw [kind]; simp [path, paper]
  · rw [kind]; simp [paper]
  · obtain ⟨path, paper, tear, kind⟩ | ⟨path, away, kind⟩ | kind := kinds
    · rw [kind]; simp [path, paper, tear]
    · rw [kind]; simp [path, PaperState.isIn_of_away away]
    · rw [kind]; simp

/-- A change of path with no paper in it is made at once (R159). -/
theorem State.judgeRun_changes {b : MotionRun} {p : PaperPath} (kind : b.kind = .path p) (other : p ≠ s.form.path)
    (away : s.form.paper = .none ∨ s.form.paper = .parked) :
    s.judgeRun b = (s.changePath p).completeRun b .done none := by
  unfold State.judgeRun
  rw [kind]
  dsimp only
  rw [if_neg other, if_neg (by rw [PaperState.isIn_of_away away]; exact Bool.false_ne_true)]

end

end Sys2Proof.Machine

namespace Sys2Proof.Machine

/-! ## What a grant on an IDLE engine makes of an event (R40, R102, R152, R168) -/

section
variable {s : State} {l : Link} {e : Entry} {es : List Entry}

/-- The selected head that passes the paper check is granted (R165, R167, R168). -/
theorem State.settleOnce_of_grant (idle : s.isIdle = true) (line : s.line = none) (select : s.select = some l)
    (queue : (s.store.get l).queue = e :: es) (verdict : s.judgePaper e.record = .grant) :
    s.settleOnce = some (s.grant l e) := by
  have head : s.headEntry l = some e := by rw [State.headEntry, queue]; rfl
  rw [State.settleOnce_of_idle idle line select, State.judgeHead, head]
  dsimp only
  rw [verdict]

/-- A line granted at the tear position returns first (R40, R155). -/
theorem State.settle_of_line_returning {f : LineFields} (once : s.settleOnce = some (s.grant l e))
    (queue : (s.store.get l).queue = e :: es) (record : e.record = .line f) (torn : s.form.tear = .atTear) :
    s.settle = { s.lineOpened l e es f .returning with drive := { s.drive with due := some ⟨.line, .back⟩ } } := by
  rw [State.grant_line_eq queue record, if_pos torn] at once
  exact State.settle_of_opened once (Option.some_ne_none _) rfl (State.planDue_of_stage rfl fun _ => LineStage.noConfusion)

/-- A line granted elsewhere with a gate closed waits for it (R42, R121). -/
theorem State.settle_of_line_waiting {f : LineFields} (once : s.settleOnce = some (s.grant l e))
    (queue : (s.store.get l).queue = e :: es) (record : e.record = .line f) (print : s.form.tear ≠ .atTear)
    (closed : s.heat.thermal = .limit ∨ s.heat.lowSupply = true) :
    s.settle = s.lineOpened l e es f (.planDue (.main .whole)) := by
  rw [State.grant_line_eq queue record, if_neg print] at once
  exact State.settle_of_opened once (Option.some_ne_none _) rfl (State.planDue_of_closed closed)

/-- A line granted elsewhere with both gates open is planned (R40, R42, R44). -/
theorem State.settle_of_line_planned {f : LineFields} {v : State} (once : s.settleOnce = some (s.grant l e))
    (queue : (s.store.get l).queue = e :: es) (record : e.record = .line f) (print : s.form.tear ≠ .atTear)
    (gate : s.heat.thermal ≠ .limit) (supply : s.heat.lowSupply = false)
    (plan : (s.lineOpened l e es f (.planDue (.main .whole))).planNow (.main .whole) = v)
    (busy : v.arb.granted ≠ none) (timer : v.arb.autoTimer = none) (waits : v.planDue = none) : s.settle = v := by
  rw [State.grant_line_eq queue record, if_neg print] at once
  have again := State.settleOnce_of_due (State.planDue_of_open (s := s.lineOpened l e es f (.planDue (.main .whole)))
    rfl rfl gate supply)
  rw [plan] at again
  exact State.settle_of_two once again busy timer waits

/-- A coil test that is granted (R102). -/
theorem State.settle_of_test {x : Option Pin} {v : State} (once : s.settleOnce = some (s.grant l e))
    (queue : (s.store.get l).queue = e :: es) (record : e.record = .motion (.coilTest x))
    (opened : (s.headGranted l e es).openTest e.seq x = v) (busy : v.arb.granted ≠ none) (timer : v.arb.autoTimer = none)
    (line : v.line = none) : s.settle = v := by
  rw [State.grant_of_test queue record, opened] at once
  exact State.settle_of_opened once busy timer (State.planDue_of_line_none line)

/-- A motion entry whose first move falls due at its grant (R152, R155). -/
theorem State.settle_of_move {k : MotionKind} {m : MoveKind} (once : s.settleOnce = some (s.grant l e))
    (line : s.line = none) (queue : (s.store.get l).queue = e :: es) (record : e.record = .motion k)
    (other : ∀ p, k ≠ .coilTest p) (clear : s.arb.halt.isEmpty = true)
    (starts : (s.headGranted l e es).startRun l e.seq k = (s.headGranted l e es).runMove (.fresh l e.seq k) m) :
    s.settle = (s.headGranted l e es).runMove (.fresh l e.seq k) m := by
  rw [State.grant_of_motion queue record other clear, starts] at once
  exact State.settle_of_opened once (Option.some_ne_none _) rfl (State.planDue_of_line_none line)

/-- A completion that leaves both queues empty leaves nothing to grant. -/
theorem State.settleOnce_of_completed {x : State} {d : Entry} (n : Notice) (line : x.line = none)
    (queue : (x.store.get l).queue = [d]) (others : ∀ j, j ≠ l → (x.store.get j).queue = []) :
    ((x.post l n).completeEntry l).settleOnce = none := by
  refine State.settleOnce_of_empty (by rw [State.completeEntry_frame]; exact line) fun j => ?_
  rw [State.completeEntry_frame]
  show (((x.post l n).releaseHead l).store.get j).queue = []
  rw [State.releaseHead, State.reflow_queue, State.modifyStore_get]
  split
  · exact congrArg List.tail queue
  · next other => exact others j other

/-- The report of an entry that has made no move (R160). -/
theorem State.completeRun_fresh {x : State} (run : x.drive.run = none) (n : SeqNo) (k : MotionKind) (o : MoveOutcome)
    (reason : Option NotMadeReason) : x.completeRun (.fresh l n k) o reason = (x.post l (.moveDone l n k o reason
      (if k.noDistance then none else some 0) 0 0 0 x.form.form x.form.offset x.form.paper x.form.tear x.form.path
      x.form.trusted)).completeEntry l := by
  have drive : { x.drive with run := none } = x.drive := by rw [← run]
  rw [State.completeRun_eq, drive]
  rfl

/-- A motion entry that completes without motion, with nothing behind it (R152, R154, R158 to R160). -/
theorem State.settle_of_completed {k : MotionKind} {o : MoveOutcome} {reason : Option NotMadeReason} {x : State}
    (once : s.settleOnce = some (s.grant l e)) (queue : (s.store.get l).queue = [e]) (record : e.record = .motion k)
    (other : ∀ p, k ≠ .coilTest p) (clear : s.arb.halt.isEmpty = true) (others : ∀ j, j ≠ l → (s.store.get j).queue = [])
    (ends : (s.headGranted l e []).startRun l e.seq k = x.completeRun (.fresh l e.seq k) o reason)
    (line : x.line = none) (run : x.drive.run = none) (store : x.store = (s.headGranted l e []).store) :
    s.settle = ((x.post l (.moveDone l e.seq k o reason
      (if k.noDistance then none else some 0) 0 0 0 x.form.form x.form.offset x.form.paper x.form.tear x.form.path
      x.form.trusted)).completeEntry l).judgeTimers := by
  rw [State.grant_of_motion queue record other clear, ends, State.completeRun_fresh run] at once
  refine State.settle_of_one once (State.settleOnce_of_completed _ line (store ▸ s.headGranted_queue l e []) fun j other => ?_)
  rw [store, State.headGranted]
  dsimp only
  rw [PerLink.get_set_other _ _ _ _ other, others j other]

/-- A change of path leaves all but the form position record and the form map. -/
theorem State.changePath_frame (x : State) (p : PaperPath) :
    x.changePath p = { x with form := (x.changePath p).form, map := (x.changePath p).map } := by
  cases p with
  | tractor => rfl
  | sheet =>
    obtain ⟨w, hw⟩ : ∃ w : State, w = x.modifyForm (fun f => { f with path := .sheet }) := ⟨_, rfl⟩
    have off : x.changePath .sheet = w.edgeOff := by rw [hw]; rfl
    have frame : w.edgeOff = { w with form := w.edgeOff.form, map := w.edgeOff.map } := by
      unfold State.edgeOff
      dsimp only
      split <;> rfl
    rw [off, frame, hw]
    rfl

end

end Sys2Proof.Machine

namespace Sys2Proof.Machine

/-! ## The first move or the completion of a motion entry at its grant (R152 to R159) -/

section
variable {s : State} {l : Link} {n : SeqNo} {k : MotionKind}

/-- The first moves of the entries that do not begin with a return. -/
theorem State.startRun_moves {m : MoveKind}
    (stays : s.form.tear = .atPrint ∨ k = .park ∨ k = .path .sheet ∨
      (k = .load ∧ (s.form.paper = .none ∨ s.form.paper = .parked)))
    (kinds : ((s.form.paper = .present ∨ ∃ d, s.form.paper = .tail d) ∧
        ((∃ n, k = .feed n ∧ m = .feed n) ∨ (k = .vtab ∧ m = .vtab) ∨ (k = .formfeed ∧ m = .formfeed) ∨
          (∃ n, s.form.path = .tractor ∧ k = .reverse n ∧ m = .reverse n) ∨
          (s.form.path = .tractor ∧ (k = .park ∨ k = .path .sheet) ∧ m = .park) ∨
          (s.form.path = .sheet ∧ k = .path .tractor ∧ m = .eject))) ∨
      (s.form.path = .tractor ∧ s.form.paper = .present ∧ k = .tear ∧
        m = (if s.form.offset = 0 then .tearAdvance else .tearFeed)) ∨
      (k = .load ∧ (((s.form.paper = .none ∨ s.form.paper = .parked) ∧ m = .load) ∨
        ((∃ d, s.form.paper = .tail d) ∧ m = .eject)))) :
    s.startRun l n k = s.runMove (.fresh l n k) m ∧ ∀ p, k ≠ .coilTest p := by
  have direct : s.needsReturn k = false := by
    obtain print | rfl | rfl | ⟨rfl, away⟩ := stays
    · exact State.needsReturn_of_print print
    · exact State.needsReturn_of_other (.inr (.inl rfl))
    · exact State.needsReturn_of_other (.inr (.inr (.inl rfl)))
    · refine State.needsReturn_of_other (.inr (.inr (.inr (.inr (.inl ⟨rfl, fun d tail => ?_⟩)))))
      rw [tail] at away
      obtain h | h := away <;> cases h
  rw [State.startRun_stays direct]
  obtain ⟨inside, kinds⟩ | ⟨path, paper, rfl, move⟩ | ⟨rfl, ⟨away, move⟩ | ⟨⟨d, tail⟩, rfl⟩⟩ := kinds
  · obtain ⟨d, rfl, rfl⟩ | ⟨rfl, rfl⟩ | ⟨rfl, rfl⟩ | ⟨d, path, rfl, rfl⟩ | ⟨path, kind, rfl⟩ | ⟨path, rfl, rfl⟩ := kinds
    · exact ⟨State.judgeRun_moves inside (.inl ⟨d, rfl, rfl⟩), fun _ => MotionKind.noConfusion⟩
    · exact ⟨State.judgeRun_moves inside (.inr (.inl ⟨rfl, rfl⟩)), fun _ => MotionKind.noConfusion⟩
    · exact ⟨State.judgeRun_moves inside (.inr (.inr (.inl ⟨rfl, rfl⟩))), fun _ => MotionKind.noConfusion⟩
    · exact ⟨State.judgeRun_moves inside (.inr (.inr (.inr (.inl ⟨d, path, rfl, rfl⟩)))), fun _ => MotionKind.noConfusion⟩
    · exact ⟨State.judgeRun_first (.inl ⟨inside, path, kind, rfl⟩), by
        obtain rfl | rfl := kind <;> exact fun _ => MotionKind.noConfusion⟩
    · exact ⟨State.judgeRun_moves inside (.inr (.inr (.inr (.inr ⟨path, rfl, rfl⟩)))), fun _ => MotionKind.noConfusion⟩
  · have print : s.form.tear = .atPrint := by
      obtain print | h | h | ⟨h, -⟩ := stays
      · exact print
      all_goals cases h
    exact ⟨State.judgeRun_first (.inr (.inl ⟨path, paper, print, rfl, move⟩)), fun _ => MotionKind.noConfusion⟩
  · exact ⟨State.judgeRun_first (.inr (.inr ⟨away, rfl, move⟩)), fun _ => MotionKind.noConfusion⟩
  · exact ⟨State.judgeRun_load_of_tail rfl tail, fun _ => MotionKind.noConfusion⟩

/-- The entries that complete at once, with the state that they complete in. -/
theorem State.startRun_ends {x : State} {o : MoveOutcome} {reason : Option NotMadeReason}
    (kinds : (x = s ∧ s.form.tear = .atPrint ∧ o = .notMade ∧ reason = some .path ∧ s.form.path = .sheet ∧
        ∃ n, k = .reverse n) ∨
      (x = s ∧ o = .notMade ∧ reason = some .path ∧ s.form.path = .sheet ∧ (k = .tear ∨ k = .park)) ∨
      (x = s ∧ s.form.tear = .atPrint ∧ o = .notMade ∧ reason = some .paper ∧
        (s.form.paper = .none ∨ s.form.paper = .parked) ∧
        ((∃ n, k = .feed n ∨ (s.form.path = .tractor ∧ k = .reverse n)) ∨ k = .vtab ∨ k = .formfeed)) ∨
      (x = s ∧ o = .notMade ∧ reason = some .paper ∧ s.form.path = .tractor ∧ s.form.paper ≠ .present ∧ k = .tear) ∨
      (x = s ∧ o = .notMade ∧ reason = some .state ∧ s.form.paper = .present ∧ k = .load) ∨
      (x = s ∧ o = .done ∧ reason = none ∧ ((s.form.path = .tractor ∧ s.form.paper = .present ∧
        s.form.tear = .atTear ∧ k = .tear) ∨
        (s.form.path = .tractor ∧ (s.form.paper = .none ∨ s.form.paper = .parked) ∧ k = .park) ∨ k = .path s.form.path)) ∨
      (∃ p, x = s.changePath p ∧ o = .done ∧ reason = none ∧ (s.form.paper = .none ∨ s.form.paper = .parked) ∧
        p ≠ s.form.path ∧ k = .path p)) :
    s.startRun l n k = x.completeRun (.fresh l n k) o reason ∧ (∀ p, k ≠ .coilTest p) ∧
      x.line = s.line ∧ x.drive = s.drive ∧ x.store = s.store := by
  have same : s.line = s.line ∧ s.drive = s.drive ∧ s.store = s.store := ⟨rfl, rfl, rfl⟩
  obtain ⟨rfl, print, rfl, rfl, path, d, rfl⟩ | ⟨rfl, rfl, rfl, path, kind⟩ | ⟨rfl, print, rfl, rfl, away, kinds⟩ |
    ⟨rfl, rfl, rfl, path, paper, rfl⟩ | ⟨rfl, rfl, rfl, paper, rfl⟩ | ⟨rfl, rfl, rfl, kinds⟩ |
    ⟨p, rfl, rfl, rfl, away, other, rfl⟩ := kinds
  · rw [State.startRun_stays (State.needsReturn_of_print print)]
    exact ⟨State.judgeRun_barred (.inl ⟨rfl, path, d, rfl⟩), fun _ => MotionKind.noConfusion, same⟩
  · have direct : x.needsReturn k = false := State.needsReturn_of_other (by
      obtain h | h := kind
      · exact .inl h
      · exact .inr (.inl h))
    rw [State.startRun_stays direct]
    refine ⟨State.judgeRun_ends (.inl ⟨rfl, rfl, path, kind⟩), ?_, same⟩
    obtain rfl | rfl := kind <;> exact fun _ => MotionKind.noConfusion
  · rw [State.startRun_stays (State.needsReturn_of_print print)]
    refine ⟨State.judgeRun_barred (.inr ⟨rfl, away, ?_⟩), ?_, same⟩
    · obtain h | h | h := kinds
      · exact .inr (.inr h)
      · exact .inl h
      · exact .inr (.inl h)
    · obtain ⟨d, rfl | ⟨-, rfl⟩⟩ | rfl | rfl := kinds <;> exact fun _ => MotionKind.noConfusion
  · rw [State.startRun_stays (State.needsReturn_of_other (.inl rfl))]
    exact ⟨State.judgeRun_ends (.inr (.inl ⟨rfl, rfl, path, paper, rfl⟩)), fun _ => MotionKind.noConfusion, same⟩
  · have direct : x.needsReturn .load = false := State.needsReturn_of_other (.inr (.inr (.inr (.inr (.inl ⟨rfl, fun d tail => by
      rw [paper] at tail
      cases tail⟩)))))
    rw [State.startRun_stays direct]
    exact ⟨State.judgeRun_ends (.inr (.inr (.inl ⟨rfl, rfl, paper, rfl⟩))), fun _ => MotionKind.noConfusion, same⟩
  · have direct : x.needsReturn k = false := State.needsReturn_of_other (by
      obtain ⟨-, -, -, h⟩ | ⟨-, -, h⟩ | h := kinds
      · exact .inl h
      · exact .inr (.inl h)
      · exact .inr (.inr (.inr (.inl h))))
    rw [State.startRun_stays direct]
    refine ⟨State.judgeRun_ends (.inr (.inr (.inr ⟨rfl, rfl, kinds⟩))), ?_, same⟩
    obtain ⟨-, -, -, rfl⟩ | ⟨-, -, rfl⟩ | rfl := kinds <;> exact fun _ => MotionKind.noConfusion
  · have direct : s.needsReturn (.path p) = false :=
      State.needsReturn_of_other (.inr (.inr (.inr (.inr (.inr ⟨PaperState.isIn_of_away away, p, rfl⟩)))))
    rw [State.startRun_stays direct]
    refine ⟨State.judgeRun_changes rfl other away, fun _ => MotionKind.noConfusion, ?_⟩
    rw [State.changePath_frame]
    exact same

end

/-! ## Halts (R165, R167, R171) -/

section
variable {s : State}

/-- A head that does not pass the paper check brings its halt, and nothing is granted (R165, R167, R171). -/
theorem State.settle_of_halted {w : State} (once : s.settleOnce = some w) (line : w.line = none)
    (halted : w.arb.halt.isEmpty = false) (other : ∀ d, w.headEntry .console = some d → d.record ≠ .motion .load) :
    s.settle = w.judgeTimers :=
  State.settle_of_one once (State.settleOnce_of_halt line (State.loadReady_of_other other) halted)

/-- In a paper halt the LOAD at the Console head is the next grant (R171). -/
theorem State.loadReady_of_paper {e : Entry} {es : List Entry} (free : s.arb.granted = none) (jam : s.arb.halt.jam = false)
    (carriage : s.arb.halt.carriage = false) (paper : s.arb.halt.paperOut = true ∨ s.arb.halt.noPaper = true)
    (queue : s.store.console.queue = e :: es) (queued : e.state = .queued) (load : e.record = .motion .load) :
    s.loadReady = some e := by
  have head : s.headEntry .console = some e := congrArg List.head? queue
  have only : (s.arb.halt.onlyPaper && s.arb.granted.isNone) = true := by
    simp [HaltSet.onlyPaper, jam, carriage, free, paper]
  rw [State.loadReady, if_pos only, head]
  exact if_pos (by simp [Entry.ready, queued, load])

/-- That LOAD ends the halt and begins with the return, the eject or the load (R155, R156, R171). -/
theorem State.settle_of_load {e : Entry} {es : List Entry} {m : MoveKind} (line : s.line = none)
    (jam : s.arb.halt.jam = false) (carriage : s.arb.halt.carriage = false) (ready : s.loadReady = some e)
    (queue : s.store.console.queue = e :: es) (load : e.record = .motion .load)
    (kinds : (s.form.paper = .none ∨ s.form.paper = .parked) ∧ m = .load ∨
      (∃ d, s.form.paper = .tail d) ∧ m = (if s.form.tear = .atTear then .back else .eject)) :
    s.settle = { s with
      store := { s.store with console := { s.store.console with queue := { e with state := .granted } :: es } }
      arb := { s.arb with halt := ⟨false, false, false, false⟩, granted := some ⟨.console, e.seq⟩, autoTimer := none }
      drive := { s.drive with
        run := some ⟨.console, e.seq, .load, 0, 0, 0, 0, false⟩, due := some ⟨.entry .console e.seq, m⟩ } } := by
  obtain ⟨w, hw⟩ : ∃ w : State, w = { s.headGranted .console e es with
      arb := { s.arb with
        halt := ⟨false, false, false, false⟩, granted := some ⟨.console, e.seq⟩, autoTimer := none } } := ⟨_, rfl⟩
  have cleared : (s.headGranted .console e es).modifyHalt (fun h => { h with paperOut := false, noPaper := false }) = w := by
    rw [hw, State.modifyHalt, State.headGranted]
    dsimp only
    rw [jam, carriage]
  have form : w.form = s.form := by rw [hw]; rfl
  have starts : w.startRun .console e.seq .load = w.runMove (.fresh .console e.seq .load) m := by
    obtain ⟨away, rfl⟩ | ⟨tail, rfl⟩ := kinds
    · obtain ⟨moves, -⟩ := State.startRun_moves (s := w) (l := .console) (n := e.seq) (k := .load) (m := .load)
        (.inr (.inr (.inr ⟨rfl, form ▸ away⟩))) (.inr (.inr ⟨rfl, .inl ⟨form ▸ away, rfl⟩⟩))
      exact moves
    · by_cases torn : s.form.tear = .atTear
      · rw [if_pos torn]
        exact State.startRun_returns (State.needsReturn_of_torn (form ▸ torn)
          (.inr (.inr (.inr (.inl ⟨rfl, form ▸ tail⟩)))))
      · have print : s.form.tear = .atPrint := by
          cases h : s.form.tear with
          | atPrint => rfl
          | atTear => exact absurd h torn
        rw [if_neg torn]
        obtain ⟨moves, -⟩ := State.startRun_moves (s := w) (l := .console) (n := e.seq) (k := .load) (m := .eject)
          (.inl (form ▸ print)) (.inr (.inr ⟨rfl, .inr ⟨form ▸ tail, rfl⟩⟩))
        exact moves
  have head : (s.store.get .console).queue = e :: es := queue
  have once := State.settleOnce_of_load line ready
  rw [State.grant_of_load head load, cleared, starts, hw] at once
  exact State.settle_of_opened once (Option.some_ne_none _) rfl (State.planDue_of_line_none line)

end

end Sys2Proof.Machine

namespace Sys2Proof.Machine

/-- Settles O6: what `settle` may change is `State.Settling`; each step of an event is a plan, a grant or a halt, and a
grant opens its work by the kind of its record. -/
theorem settleLeavesTheRest : Obligations.SettleLeavesTheRest := by
  unfold Obligations.SettleLeavesTheRest
  refine ⟨fun s => ?frame, fun s stop => ?stop, fun s t n once => ?step, fun s c p line stage => ?plan,
    fun s l e es g move done inside away idle line run _ select queue verdict hg hmove hdone hin haway => ?grant,
    fun s l e idle line select head other => ?halt,
    fun s e es m free line jam carriage paper queue queued load kinds => ?load⟩
  case frame =>
    have settled := s.settle_settling
    have frame := settled.frame
    refine ⟨by rw [frame], by rw [frame], settled.car, settled.sequ, by rw [frame], by rw [frame], by rw [frame],
      by rw [frame], by rw [frame], by rw [frame], by rw [frame], by rw [frame], by rw [frame], by rw [frame],
      by rw [frame], settled.head, fun l => ?_⟩
    have port := settled.ports l
    exact ⟨settled.nextSeq l, port.rx, port.selLow, port.response, port.built, port.notices, port.lost⟩
  case stop =>
    rw [State.settle, State.settleLoop_stop stop]
  case step =>
    exact ⟨by rw [State.settle, State.settleLoop_step once], State.settleLoop_step once n, State.settle_of_one once⟩
  case plan =>
    refine ⟨fun gate supply => ?_, fun closed busy =>
      State.settle_of_granted busy (State.planDue_of_closed closed)⟩
    have once := State.settleOnce_of_due (State.planDue_of_open line stage gate supply)
    refine ⟨once, fun u plan => ?_, fun u q plan => ⟨?_, fun busy => ?_⟩⟩
    · rw [once, State.planNow_of_none plan]
    · rw [once, State.planNow_of_some plan]
    · rw [State.planNow_of_some plan] at once
      refine State.settle_of_one once ?_
      have arb := s.planPass_arb p s.planPosition
      rw [plan] at arb
      rw [State.settleOnce_of_granted (by rw [← arb] at busy; exact busy), State.planDue_setStage_planned]
      rfl
  case grant =>
    obtain rfl : inside = _ := propext hin
    obtain rfl : away = _ := propext haway
    obtain ⟨clear, -, stopped⟩ := State.isIdle_spec idle
    have once := State.settleOnce_of_grant idle line select queue verdict
    have granted : g e.result = s.headGranted l e es := hg e.result
    refine ⟨fun f c n v record hn hc hv => ?line, fun pin p rest record pins => ?test, fun k record torn kinds => ?back,
      fun k m record stays kinds => ?first, fun x k o reason record last others kinds => ?ends⟩
    case line =>
      have opened : ∀ st, v st = s.lineOpened l e es f st := fun st => by rw [hv, hg, hn, hc] <;> rfl
      have print : s.form.tear = .atPrint → s.form.tear ≠ .atTear := fun h => by rw [h]; exact TearState.noConfusion
      refine ⟨fun torn => ?_, fun tear closed => ?_, fun i x ps tear gate supply read free first hps some fit => ?_⟩
      · rw [opened, State.settle_of_line_returning once queue record torn]
      · rw [opened, State.settle_of_line_waiting once queue record (print tear) closed]
      · rw [opened]
        refine State.settle_of_line_planned once queue record (print tear) gate supply
          (State.planNow_of_main (i := i) rfl (State.lineFields_lineOpened record _) read stopped free first ?_ some fit ?_)
          (Option.some_ne_none _) rfl (State.planDue_of_stage rfl fun _ => LineStage.noConfusion)
        · rw [hps, hc]
          rfl
        · rfl
    case test =>
      have todo : pinsToTest pin = p :: rest := by
        obtain ⟨rfl, rfl⟩ | ⟨rfl, rfl, rfl⟩ := pins <;> rfl
      rw [granted]
      refine ⟨fun busy => ?_, fun x ready gate supply read => ?_⟩
      · exact State.settle_of_test once queue record (State.openTest_waits todo busy) (Option.some_ne_none _) rfl line
      · exact State.settle_of_test once queue record (State.openTest_pulses todo ready gate supply read stopped)
          (Option.some_ne_none _) rfl line
    case back =>
      have other : ∀ p, k ≠ .coilTest p := by
        obtain ⟨n, rfl | rfl⟩ | rfl | rfl | ⟨rfl, -⟩ | ⟨rfl, -⟩ := kinds <;> exact fun _ => MotionKind.noConfusion
      rw [hmove, granted]
      exact State.settle_of_move once line queue record other clear
        (State.startRun_returns (State.needsReturn_of_torn torn kinds))
    case first =>
      obtain ⟨moves, other⟩ := State.startRun_moves (s := s.headGranted l e es) (l := l) (n := e.seq) stays kinds
      rw [hmove, granted]
      exact State.settle_of_move once line queue record other clear moves
    case ends =>
      subst last
      rw [granted] at kinds
      obtain ⟨ends, other, xline, xdrive, xstore⟩ :=
        State.startRun_ends (s := s.headGranted l e []) (l := l) (n := e.seq) kinds
      rw [hdone, State.settle_of_completed once queue record other clear others ends (xline.trans line)
        ((congrArg Drive.run xdrive).trans run) xstore, MotionKind.noDistance_ite] <;> rfl
  case halt =>
    have once := State.settleOnce_of_idle idle line select
    rw [State.judgeHead, head] at once
    dsimp only at once
    refine ⟨fun verdict => ?_, fun verdict => ?_⟩
    · rw [verdict] at once
      exact State.settle_of_halted once line (by simp [HaltSet.isEmpty]) other
    · rw [verdict] at once
      exact State.settle_of_halted once line (by simp [HaltSet.isEmpty]) other
  case load =>
    exact State.settle_of_load line jam carriage
      (State.loadReady_of_paper free jam carriage paper queue queued load) queue load kinds

end Sys2Proof.Machine

namespace Sys2Proof.Machine

/-! ## The two invariants, field by field (R63, R64, R66, R80, R101, R111, R186)

`State.OneMotion` and `State.Bounded` read the carriage, the Sequencer, the drive state, the accumulators, the pin records,
the coil test, the head settings and the lengths of the notice queues. Here stand what each asks of a field, and the
relations by which the operations are judged: `State.Quiet` leaves those fields but for postings, `State.Guards` keeps both
invariants. -/

/-- The counter, the count period and the period timer lie in their ranges (R63, R64). -/
structure Carriage.InRange (c : Carriage) : Prop where
  counter : -32768 ≤ c.counter ∧ c.counter ≤ 32767
  period : 1 ≤ c.period ∧ c.period ≤ 200000
  timer : c.periodTimer ≤ 200000

/-- A Sequencer that is IDLE holds nothing (R80, log entry 36). -/
def Sequencer.IdleEmpty (q : Sequencer) : Prop :=
  q.walking = false → q.timerA = .idle ∧ q.timerB = .idle ∧ q.repairs = [] ∧ q.overflow = false

/-- A pin record is consistent, with a rise time of a NORMAL result (R101, R104). -/
structure PinRecord.Sound (r : PinRecord) : Prop where
  health : r.Consistent
  rise : ∀ t, r.rise = some t → 30 ≤ t ∧ t ≤ 599

section
variable {s t : State}

theorem State.Bounded.inRange (h : s.Bounded) : s.car.InRange := ⟨h.counter, h.period, h.timer⟩

theorem State.Bounded.record (h : s.Bounded) (p : Pin) : (s.pinRecord p).Sound := ⟨h.health p, h.rise p⟩

theorem State.Bounded.setCar (h : s.Bounded) {k : Carriage} (range : k.InRange) : ({ s with car := k } : State).Bounded :=
  { h with counter := range.counter, period := range.period, timer := range.timer }

theorem State.Bounded.setSequ (h : s.Bounded) {q : Sequencer} (repairs : q.repairs.length ≤ 5120) (idle : q.IdleEmpty) :
    ({ s with sequ := q } : State).Bounded :=
  { h with repairs := repairs, idle := idle }

theorem State.Bounded.setTest (h : s.Bounded) {x : Option TestContext} (todo : ∀ c, x = some c → c.todo.length ≤ 17) :
    (s.setTest x).Bounded :=
  { h with todo := todo }

theorem State.Bounded.setPinRecord (h : s.Bounded) (p : Pin) {r : PinRecord} (sound : r.Sound) :
    (s.setPinRecord p r).Bounded := by
  have records (q : Pin) : ((s.setPinRecord p r).pinRecord q).Sound := by
    by_cases same : q = p
    · rw [same, State.pinRecord_setPinRecord]
      exact sound
    · rw [State.pinRecord_setPinRecord_other _ _ same]
      exact h.record q
  exact { h with health := fun q => (records q).health, rise := fun q => (records q).rise }

theorem State.Bounded.addHeat (h : s.Bounded) (p : Pin) (n : Nat) : (s.addHeat p n).Bounded := by
  have heat (q : Pin) : (s.addHeat p n).heatOf q ≤ 65535 := by
    by_cases same : q = p
    · rw [same, State.heatOf_addHeat]
      exact Nat.min_le_left _ _
    · rw [State.heatOf_addHeat_other _ _ same]
      exact h.heat q
  exact { h with heat := heat }

theorem State.Bounded.setHead (h : s.Bounded) {a : Arbiter} (legal : a.head.Legal) : ({ s with arb := a } : State).Bounded :=
  { h with head := legal }

/-- The two motions read the carriage's state, its motion and the armed index, and of the drive whether it is STOPPED. -/
theorem State.OneMotion.of_same (h : s.OneMotion) (state : t.car.state = s.car.state)
    (motion : t.car.motion.isSome = s.car.motion.isSome) (armed : t.car.indexArmed = s.car.indexArmed)
    (drive : s.car.state.driven = true → s.drive.state = .stopped → t.drive.state = .stopped) : t.OneMotion where
  exclusive driven := drive (state ▸ driven) (h.exclusive (state ▸ driven))
  moving some := state ▸ h.moving (motion ▸ some)
  armed index := state ▸ h.armed (armed ▸ index)

/-- A carriage that is not driven, without a motion and with the index disarmed, leaves the paper free. -/
theorem State.OneMotion.of_rest (rest : t.car.state.driven = false) (motion : t.car.motion = none)
    (disarmed : t.car.indexArmed = false) : t.OneMotion where
  exclusive driven := by rw [rest] at driven; cases driven
  moving some := by rw [motion] at some; cases some
  armed index := by rw [disarmed] at index; cases index

/-- A homing with the Paper Drive STOPPED. -/
theorem State.OneMotion.of_homing {k : HomingStep} (state : t.car.state = .homing k) (motion : t.car.motion = none)
    (armed : t.car.indexArmed = true → k = .seek) (stopped : t.drive.state = .stopped) : t.OneMotion where
  exclusive _ := stopped
  moving some := by rw [motion] at some; cases some
  armed index := by rw [state, armed index]

/-- A pass or a positioning move with the Paper Drive STOPPED. -/
theorem State.OneMotion.of_moving (state : t.car.state = .rampUp ∨ t.car.state = .cruise ∨ t.car.state = .rampDown)
    (disarmed : t.car.indexArmed = false) (stopped : t.drive.state = .stopped) : t.OneMotion where
  exclusive _ := stopped
  moving _ := state
  armed index := by rw [disarmed] at index; cases index

/-- The index of a carriage that is not homing is disarmed. -/
theorem State.OneMotion.disarmed (h : s.OneMotion) (other : s.car.state ≠ .homing .seek) : s.car.indexArmed = false := by
  cases armed : s.car.indexArmed with
  | false => rfl
  | true => exact absurd (h.armed armed) other

/-- A carriage that is not on a pass or a positioning move holds none. -/
theorem State.OneMotion.motionless (h : s.OneMotion)
    (other : ¬ (s.car.state = .rampUp ∨ s.car.state = .cruise ∨ s.car.state = .rampDown)) : s.car.motion = none := by
  cases motion : s.car.motion with
  | none => rfl
  | some m => exact absurd (h.moving (by rw [motion]; rfl)) other

theorem State.OneMotion.of_homing_state (h : s.OneMotion) {k : HomingStep} (homing : s.car.state = .homing k) :
    s.car.motion = none := h.motionless (by rw [homing]; simp)

theorem CarState.driven_of_moving {x : CarState} (moving : x = .rampUp ∨ x = .cruise ∨ x = .rampDown) : x.driven = true := by
  obtain rfl | rfl | rfl := moving <;> rfl

end

/-! ## What leaves those fields -/

/-- `t` differs from `s` in nothing that the two invariants read, but for notices posted and for a drive that stops or that
moves beside a carriage that is not driven. -/
structure State.Quiet (s t : State) : Prop where
  car : t.car = s.car
  sequ : t.sequ = s.sequ
  acc : t.heat.acc = s.heat.acc
  health : t.health = s.health
  test : t.test = s.test
  head : t.arb.head = s.arb.head
  drive : s.car.state.driven = true → s.drive.state = .stopped → t.drive.state = .stopped
  notices : ∀ l, (s.port.get l).notices.length ≤ 16 → (t.port.get l).notices.length ≤ 16

/-- `t` keeps both invariants of `s`. -/
structure State.Guards (s t : State) : Prop where
  motion : s.OneMotion → t.OneMotion
  bounds : s.Bounded → t.Bounded

/-- The fields that the two invariants read. -/
def State.gauges (s : State) : Carriage × Sequencer × Vector Nat 18 × Vector PinRecord 18 × Option TestContext × HeadSettings ×
    DriveState × PerLink LinkPort :=
  (s.car, s.sequ, s.heat.acc, s.health, s.test, s.arb.head, s.drive.state, s.port)

section
variable {s t u : State}

theorem State.Quiet.still (h : t.gauges = s.gauges) : s.Quiet t := by
  simp only [State.gauges, Prod.mk.injEq] at h
  obtain ⟨car, sequ, acc, health, test, head, drive, port⟩ := h
  exact ⟨car, sequ, acc, health, test, head, fun _ stopped => drive.trans stopped, fun l bound => by rw [port]; exact bound⟩

theorem State.Quiet.refl (s : State) : s.Quiet s := .still rfl

theorem State.Quiet.trans (a : s.Quiet t) (b : t.Quiet u) : s.Quiet u where
  car := b.car.trans a.car
  sequ := b.sequ.trans a.sequ
  acc := b.acc.trans a.acc
  health := b.health.trans a.health
  test := b.test.trans a.test
  head := b.head.trans a.head
  drive driven stopped := b.drive (a.car ▸ driven) (a.drive driven stopped)
  notices l bound := b.notices l (a.notices l bound)

theorem State.Quiet.ite {p : Prop} [Decidable p] (a : s.Quiet t) (b : s.Quiet u) : s.Quiet (if p then t else u) := by
  split
  · exact a
  · exact b

theorem State.Quiet.guards (h : s.Quiet t) : s.Guards t where
  motion one := one.of_same (congrArg _ h.car) (congrArg (fun c : Carriage => c.motion.isSome) h.car) (congrArg _ h.car) h.drive
  bounds b :=
    { heat := fun p => by rw [State.heatOf_congr h.acc]; exact b.heat p
      notices := fun l => h.notices l (b.notices l)
      health := fun p => by rw [State.pinRecord_congr h.health]; exact b.health p
      rise := fun p => by rw [State.pinRecord_congr h.health]; exact b.rise p
      counter := by rw [h.car]; exact b.counter
      period := by rw [h.car]; exact b.period
      timer := by rw [h.car]; exact b.timer
      head := by rw [h.head]; exact b.head
      repairs := by rw [h.sequ]; exact b.repairs
      todo := by rw [h.test]; exact b.todo
      idle := by rw [h.sequ]; exact b.idle }

theorem State.Guards.refl (s : State) : s.Guards s := ⟨id, id⟩

theorem State.Guards.trans (a : s.Guards t) (b : t.Guards u) : s.Guards u :=
  ⟨fun h => b.motion (a.motion h), fun h => b.bounds (a.bounds h)⟩

theorem State.Guards.ite {p : Prop} [Decidable p] (a : s.Guards t) (b : s.Guards u) : s.Guards (if p then t else u) := by
  split
  · exact a
  · exact b

/-- The fields that an operation leaves alone, before another operation. -/
theorem State.Guards.after (h : t.gauges = s.gauges) (k : t.Guards u) : s.Guards u := (State.Quiet.still h).guards.trans k

/-- The work of a line changes none of the fields (R40 to R60). -/
theorem State.LineOnly.quiet (h : s.LineOnly t) : s.Quiet t where
  car := h.settling.car
  sequ := h.settling.sequ
  acc := by rw [h.frame]
  health := by rw [h.frame]
  test := by rw [h.frame]
  head := h.head
  drive _ stopped := by rw [h.frame]; exact stopped
  notices l := (h.ports l).bound

/-- A change of the form position record and of the form map, with postings. -/
theorem State.FormOnly.quiet (h : s.FormOnly t) (ports : s.PortsLater t) : s.Quiet t where
  car := by rw [h]
  sequ := by rw [h]
  acc := by rw [h]
  health := by rw [h]
  test := by rw [h]
  head := by rw [h]
  drive _ stopped := by rw [h]; exact stopped
  notices l := (ports l).bound

end

section
variable (s : State)

theorem State.post_quiet (l : Link) (n : Notice) : s.Quiet (s.post l n) := (s.post_lineOnly l n).quiet

theorem State.postBoth_quiet (n : Notice) : s.Quiet (s.postBoth n) := (State.FormOnly.postBoth s n).quiet (.postBoth s n)

/-! ## The form (R127 to R141, R159) -/

theorem State.paperOut_portsLater : s.PortsLater s.paperOut := by
  unfold State.paperOut
  exact .trans (.of_eq rfl) (.postBoth _ _)

theorem State.sensePaper_portsLater (d : MoveDir) (paper : Bool) : s.PortsLater (s.sensePaper d paper) := by
  unfold State.sensePaper
  dsimp only
  split
  · exact .of_eq rfl
  · exact .of_eq rfl
  · split
    · exact .trans (.of_eq rfl) (State.paperOut_portsLater _)
    · exact .of_eq rfl
  · exact .of_eq rfl
  · exact .of_eq rfl

theorem State.takeAge_portsLater : s.PortsLater s.takeAge := by
  unfold State.takeAge
  split
  · unfold State.age
    dsimp only
    refine .trans (.of_eq ?_) (.postBoth _ _)
    split <;> rfl
  · exact .refl s

theorem State.migrate_portsLater (c : Nat) (e : Odo) : s.PortsLater (s.migrate c e) := by
  unfold State.migrate
  exact .trans (.of_eq rfl) (.postBoth _ _)

theorem State.judgeLength_portsLater (p e : Odo) : s.PortsLater (s.judgeLength p e) := by
  unfold State.judgeLength
  dsimp only
  split
  · exact .of_eq rfl
  split
  · exact .of_eq rfl
  split
  · exact .of_eq rfl
  split
  · exact .trans (.of_eq rfl) (State.migrate_portsLater _ _ e)
  · exact .of_eq rfl

theorem State.perforation_portsLater (e : Odo) : s.PortsLater (s.perforation e) := by
  unfold State.perforation
  split
  · exact .of_eq rfl
  · split
    · exact .of_eq rfl
    · exact .of_eq rfl
    · exact s.judgeLength_portsLater _ _
  · exact .refl s

theorem State.takeMark_portsLater (paper marked : Bool) : s.PortsLater (s.takeMark paper marked) := by
  unfold State.takeMark
  split
  · split <;> exact .of_eq rfl
  split
  · exact s.perforation_portsLater _
  · exact .refl s

theorem State.formStep_quiet (d : MoveDir) (paper mark : Bool) : s.Quiet (s.formStep d paper mark) := by
  refine (State.FormOnly.formStep s d paper mark).quiet ?_
  cases d with
  | reverse =>
    exact State.PortsLater.trans (t := s.modifyForm fun f => f.moved s.map.len .reverse) (.of_eq rfl)
      (State.sensePaper_portsLater _ .reverse paper)
  | forward =>
    have moved : s.PortsLater (s.modifyForm fun f => f.forward s.map.len) := .of_eq rfl
    rw [State.formStep_forward]
    generalize (s.modifyForm fun f => f.forward s.map.len) = t at moved ⊢
    exact ((moved.trans (t.takeMark_portsLater _ _)).trans (State.takeAge_portsLater _)).trans
      (State.sensePaper_portsLater _ _ _)

theorem State.phaseCorrection_quiet : s.Quiet s.phaseCorrection := by
  rw [State.phaseCorrection_frame]
  exact .still rfl

theorem State.judgeBoundary_quiet (n : BitVec 16) (d : MoveDir) : s.Quiet (s.judgeBoundary n d) := by
  obtain e | e := s.judgeBoundary_cases n d <;> rw [e]
  · exact .refl s
  · exact s.postBoth_quiet _

theorem State.changePath_quiet (p : PaperPath) : s.Quiet (s.changePath p) := by
  rw [State.changePath_frame]
  exact .still rfl

@[simp] theorem State.modifyMap_gauges (f : FormMap → FormMap) : (s.modifyMap f).gauges = s.gauges := rfl
@[simp] theorem State.setLength_gauges (n : Nat) : (s.setLength n).gauges = s.gauges := rfl

/-- Each field of SET FORM is present or absent, and a present one changes the map or the form alone (R133). -/
theorem State.applySetForm_quiet (r : SetFormFields) : s.Quiet (s.applySetForm r).1 := by
  obtain ⟨length, tof, trim, skip, stops, lock⟩ := r
  refine .still ?_
  cases length <;> cases tof <;> cases trim <;> cases skip <;> cases stops <;> cases lock <;> simp [State.applySetForm]

end

end Sys2Proof.Machine

namespace Sys2Proof.Machine

/-! ## Motion entries and moves (R146 to R160) -/

section
variable (s : State)

theorem State.modifyHalt_quiet (f : HaltSet → HaltSet) : s.Quiet (s.modifyHalt f) := .still rfl

theorem State.cutAll_quiet : s.Quiet s.cutAll := .still rfl

theorem State.completeEntry_quiet (l : Link) : s.Quiet (s.completeEntry l) := (s.completeEntry_lineOnly l).quiet

theorem State.completeRun_quiet (r : MotionRun) (o : MoveOutcome) (x : Option NotMadeReason) :
    s.Quiet (s.completeRun r o x) := by
  have posted (n : Notice) : s.Quiet ((s.post r.link n).modifyDrive fun d => { d with run := none }) :=
    (s.post_quiet r.link n).trans (.still rfl)
  exact (posted _).trans (State.completeEntry_quiet _ _)

theorem State.runMove_quiet (r : MotionRun) (k : MoveKind) : s.Quiet (s.runMove r k) := .still rfl

theorem State.judgeRun_quiet (r : MotionRun) : s.Quiet (s.judgeRun r) := by
  have ends := s.completeRun_quiet r
  have moves := s.runMove_quiet r
  unfold State.judgeRun
  dsimp only
  split
  · exact .ite (ends _ _) (moves _)
  · exact .ite (ends _ _) (moves _)
  · exact .ite (ends _ _) (moves _)
  · exact .ite (ends _ _) (.ite (ends _ _) (moves _))
  · exact .ite (ends _ _) (.ite (ends _ _) (.ite (ends _ _) (.ite (moves _) (moves _))))
  · exact .ite (ends _ _) (.ite (moves _) (moves _))
  · exact .ite (ends _ _) (.ite (moves _) (ends _ _))
  · exact .ite (ends _ _) (.ite (moves _) ((s.changePath_quiet _).trans (State.completeRun_quiet _ _ _ _)))
  · exact ends _ _

theorem State.startRun_quiet (l : Link) (n : SeqNo) (k : MotionKind) : s.Quiet (s.startRun l n k) :=
  .ite (s.runMove_quiet _ _) (s.judgeRun_quiet _)

theorem State.runNext_quiet (r : MotionRun) (k : MoveKind) : s.Quiet (s.runNext r k) := by
  have changes (p : PaperPath) := (s.changePath_quiet p).trans (State.completeRun_quiet _ r .done none)
  unfold State.runNext
  split
  · exact s.judgeRun_quiet r
  · exact s.runMove_quiet r _
  · exact s.runMove_quiet r _
  · exact changes _
  · exact changes _
  · exact s.completeRun_quiet r _ _

theorem State.runMoveEnded_quiet (m : MoveContext) (e : MoveEnd) : s.Quiet (s.runMoveEnded m e) := by
  unfold State.runMoveEnded
  split
  · exact .refl s
  · cases e with
    | jam => exact .still rfl
    | tail | noEdge | noPaper => exact s.completeRun_quiet _ _ _
    | done => exact s.runNext_quiet _ _

/-! ### The line whose move has ended (R56 to R59, R161) -/

theorem State.lineMoveDone_quiet : s.Quiet s.lineMoveDone := by
  have moved (f : LineContext → LineContext) (c : LineContext) (g : LineStage) :
      s.Quiet (if c.cancelled then (s.modifyLine f).dropPhases else (s.modifyLine f).setStage g) :=
    .ite ((s.modifyLine_lineOnly f).trans (State.dropPhases_lineOnly _)).quiet
      ((s.modifyLine_lineOnly f).trans (State.setStage_lineOnly _ _)).quiet
  unfold State.lineMoveDone
  split
  · exact .refl s
  · split
    · exact .ite s.dropPhases_lineOnly.quiet (s.setStage_lineOnly _).quiet
    · exact moved _ _ _
    · exact moved _ _ _
    · exact s.completeLine_lineOnly.quiet
    · exact .refl s

theorem State.lineJammed_quiet : s.Quiet s.lineJammed := by
  unfold State.lineJammed
  split
  · exact .refl s
  · exact ((s.loseAll_lineOnly.trans (State.modifyResult_lineOnly _ _ _)).trans (State.setStage_lineOnly _ _)).quiet

theorem State.lineTail_quiet : s.Quiet s.lineTail := (s.loseAll_lineOnly.trans (State.completeLine_lineOnly _)).quiet

theorem State.takeUpLine_quiet : s.Quiet s.takeUpLine := by
  obtain ⟨e, -⟩ | ⟨_, -, -, -, e⟩ := s.takeUpLine_cases <;> rw [e]
  · exact .refl s
  · exact s.completeLine_lineOnly.quiet

/-! ### The move itself (R128, R139, R146 to R151) -/

theorem State.settleMove_quiet (k : MoveKind) (e : MoveEnd) : s.Quiet (s.settleMove k e) := by
  unfold State.settleMove
  split <;> exact .still rfl

theorem State.endPhase_quiet (e : MoveEnd) : s.Quiet (s.endPhase e) := by
  by_cases jam : e = .jam
  · rw [jam, State.endPhase_of_jam]
    exact .still rfl
  · rw [State.endPhase_of_other jam]
    exact s.phaseCorrection_quiet

theorem State.endNotice_quiet (m : MoveContext) (e : MoveEnd) : s.Quiet (s.endNotice m e) := by
  rw [State.endNotice_eq]
  exact .ite (s.postBoth_quiet _) (.ite (s.postBoth_quiet _) (.refl s))

theorem State.haltMove_quiet (e : MoveEnd) : s.Quiet (s.haltMove e) := by
  rw [State.haltMove_eq]
  exact .still rfl

theorem State.endSource_quiet (m : MoveContext) (e : MoveEnd) : s.Quiet (s.endSource m e) := by
  unfold State.endSource
  split
  · exact s.runMoveEnded_quiet m e
  · exact .refl s
  · split
    · exact s.lineJammed_quiet
    · exact s.lineTail_quiet
    · exact s.lineMoveDone_quiet

/-- The end of a move stops the drive (R145). -/
theorem State.endMove_quiet (e : MoveEnd) : s.Quiet (s.endMove e) := by
  cases move : s.drive.move with
  | none =>
    rw [State.endMove, move]
    exact .refl s
  | some m =>
    have stopped : s.Quiet (s.modifyDrive fun d => { d with state := .stopped, move := none }) :=
      ⟨rfl, rfl, rfl, rfl, rfl, rfl, fun _ _ => rfl, fun _ => id⟩
    rw [State.endMove_chain move]
    exact (((((stopped.trans (State.settleMove_quiet _ _ _)).trans (State.endPhase_quiet _ _)).trans
      (State.judgeBoundary_quiet _ _ _)).trans (State.endNotice_quiet _ _ _)).trans (State.haltMove_quiet _ _)).trans
      (State.endSource_quiet _ _ _)

theorem State.tearBy_quiet (k : MoveKind) (n : Int) : s.Quiet (s.tearBy k n) := by
  rw [State.tearBy_frame]
  exact .still rfl

theorem State.prepareMove_quiet (k : MoveKind) : s.Quiet (s.prepareMove k) := by
  cases k with
  | load => exact .ite (.still rfl) (.still rfl)
  | _ => exact .still rfl

end

section
variable {s : State}

/-- An update of a drive that moves, or beside a carriage that is not driven. -/
theorem State.Quiet.setDrive (free : s.car.state.driven = true → s.drive.state ≠ .stopped) (d : Drive) :
    s.Quiet { s with drive := d } :=
  ⟨rfl, rfl, rfl, rfl, rfl, rfl, fun driven stopped => absurd stopped (free driven), fun _ => id⟩

/-- A move starts with the carriage STOPPED (R146). -/
theorem State.beginMove_quiet (stopped : s.car.state = .stopped) (d : DueMove) : s.Quiet (s.beginMove d) := by
  have prepared := s.prepareMove_quiet d.kind
  have begun (x : Drive) : s.Quiet { s.prepareMove d.kind with drive := x } :=
    prepared.trans (.setDrive (fun driven => by rw [prepared.car, stopped] at driven; cases driven) x)
  exact .ite ((begun _).trans (State.endMove_quiet _ _)) (begun _)

/-- A stall backs the drive off from its steps, or ends the move (R149, R150). -/
theorem State.stallMove_quiet (moves : s.drive.state ≠ .stopped) (m : MoveContext) : s.Quiet (s.stallMove m) := by
  have torn : s.Quiet ((s.stallCorrection (m.steps - 4 * m.pulses)).tearBy m.kind (-(m.steps - 4 * m.pulses : Nat))) :=
    (State.Quiet.still (by rw [State.stallCorrection_frame]; rfl)).trans (State.tearBy_quiet _ _ _)
  have drive : ((s.stallCorrection (m.steps - 4 * m.pulses)).tearBy m.kind (-(m.steps - 4 * m.pulses : Nat))).drive =
      s.drive := by rw [State.tearBy_frame]; rfl
  have set (x : Drive) := torn.trans (.setDrive (fun _ => drive.symm ▸ moves) x)
  exact .ite ((set _).trans (State.endMove_quiet _ _)) (set _)

/-- What a step makes of the form, with the drive set (R127, R146). -/
theorem State.stepped_quiet (moves : s.drive.state ≠ .stopped) (d : MoveDir) (paper mark : Bool) (f : FormPosition)
    (x : Steppers) (y : Drive) : s.Quiet { s.formStep d paper mark with form := f, steppers := x, drive := y } := by
  have stepped : s.Quiet { s.formStep d paper mark with form := f, steppers := x } :=
    (s.formStep_quiet d paper mark).trans (.still rfl)
  exact stepped.trans (.setDrive (fun _ => (State.formStep_drive d).symm ▸ moves) y)

/-- A step of a drive that is STEPPING (R146, R148). -/
theorem State.stepMove_quiet (moves : s.drive.state ≠ .stopped) (m : MoveContext) (paper mark : Bool) :
    s.Quiet (s.stepMove m paper mark) := by
  have stepped (f : FormPosition) (x : Steppers) (y : Option MoveContext) :=
    s.stepped_quiet moves m.dir paper mark f x { s.drive with move := y }
  rw [State.stepMove_eq rfl rfl rfl rfl rfl]
  refine .ite ?tail (.ite ?stall (.ite ?ends (stepped _ _ _)))
  case tail => exact (stepped _ _ _).trans (State.endMove_quiet _ _)
  case stall => exact (stepped _ _ _).trans (State.stallMove_quiet (by exact moves) _)
  case ends => exact (stepped _ _ _).trans (State.endMove_quiet _ _)

theorem State.backoffStep_quiet (moves : s.drive.state ≠ .stopped) (m : MoveContext) (n : Nat) (paper : Bool) :
    s.Quiet (s.backoffStep m n paper) := by
  rw [State.backoffStep_eq n (mark := false) rfl]
  exact s.stepped_quiet moves .reverse paper false _ _ _

end

/-! ## The Line Store, the Arbiter and the tally units (R28, R36, R165 to R179) -/

section
variable (s : State)

theorem State.accept_quiet (l : Link) (r : Record) (n : Nat) (st : EntryState) : s.Quiet (s.accept l r n st) := by
  rw [State.accept_frame]
  refine ⟨rfl, rfl, rfl, rfl, rfl, ?_, fun _ => id, fun _ => id⟩
  dsimp only
  split <;> rfl

theorem State.judgeTimers_quiet : s.Quiet s.judgeTimers := by
  rw [State.judgeTimers_frame]
  exact .still rfl

theorem State.askTear_quiet : s.Quiet s.askTear := .ite (.still rfl) (.refl s)

theorem State.release_quiet (u : Fin 2) (x : ReleaseSource) : s.Quiet (s.release u x) := by
  unfold State.release
  split
  · next l e _ =>
    have queued : s.Quiet (s.modifyStore l fun t => { t with queue := releaseEntry e.stamp t.queue }) := .still rfl
    exact queued.trans (State.postBoth_quiet _ _)
  · exact .still rfl

theorem State.latchRelease_quiet (u : Fin 2) : s.Quiet (s.latchRelease u) := by
  have unlatched : s.Quiet (s.modifyTally u fun t => { t with latch := false }) := .still rfl
  exact .ite (unlatched.trans (State.release_quiet _ u _)) (.refl s)

theorem State.qualifiedEdge_quiet (u : Fin 2) : s.Quiet (s.qualifiedEdge u) := by
  have counted : s.Quiet (s.modifyTally u fun t => { t with present := t.armed }) := .still rfl
  unfold State.qualifiedEdge
  dsimp only
  split
  · exact .refl s
  · exact s.release_quiet u _
  · exact .ite (.refl s) (.ite (counted.trans (State.release_quiet _ u _)) (.still rfl))
  · exact .still rfl

theorem State.acceptLatch_quiet (x : LineFields) : s.Quiet (s.acceptLatch x) := by
  unfold State.acceptLatch
  split
  · exact s.latchRelease_quiet _
  · exact .refl s

theorem State.openLine_quiet (l : Link) (f : LineFields) : s.Quiet (s.openLine l f) := .ite (.still rfl) (.still rfl)

/-! ## The line in flight -/

theorem State.planOdd_quiet (p : PassId) (x : Int) : s.Quiet (s.planOdd p x) := by
  have plan := s.planPass_lineOnly p x
  unfold State.planOdd
  split
  all_goals
    next h =>
    rw [h] at plan
    exact (plan.trans (State.modifyLine_lineOnly _ _)).quiet

theorem State.cancelLine_quiet : s.Quiet s.cancelLine := by
  cases line : s.line with
  | none =>
    rw [State.cancelLine, line]
    exact .refl s
  | some c =>
    obtain ⟨plan, strike, rest⟩ := State.cancelLine_eq line
    have marked : s.Quiet (s.cancelMarked c) := .still rfl
    cases stage : c.stage with
    | planDue p => rw [plan ⟨p, .inl stage⟩]; exact marked.trans (State.dropPhases_lineOnly _).quiet
    | planned p => rw [plan ⟨p, .inr stage⟩]; exact marked.trans (State.dropPhases_lineOnly _).quiet
    | striking p => rw [strike ⟨p, stage⟩]; exact .still rfl
    | returning | subMove | feeding | jammed | held => rw [rest (by simp [stage])]; exact marked

theorem State.cancelGranted_quiet (l : Link) : s.Quiet (s.cancelGranted l) := by
  unfold State.cancelGranted
  split
  · exact .ite s.cancelLine_quiet (.refl s)
  · exact .refl s

theorem State.clearJam_quiet : s.Quiet s.clearJam := by
  unfold State.clearJam
  split
  · exact .ite (s.completeRun_quiet _ _ _) (.refl s)
  · exact .ite s.completeLine_lineOnly.quiet (.refl s)
  · exact .refl s

theorem State.leaveJam_quiet : s.Quiet s.leaveJam :=
  .ite ((s.modifyHalt_quiet _).trans (State.clearJam_quiet _)) (.refl s)

end

/-! ## Coil tests (R102 to R110) -/

section
variable {s : State} {c : TestContext}

/-- A rise time that a result records is one of a NORMAL coil (R104). -/
def CoilOutcome.RiseInRange (o : CoilOutcome) : Prop := ∀ t, o = .normal t → 30 ≤ t ∧ t ≤ 599

theorem PinRecord.Sound.tested {r : PinRecord} (sound : r.Sound) {o : CoilOutcome} (rise : o.RiseInRange) :
    (r.tested o).Sound := by
  cases o with
  | normal t => exact ⟨.inl ⟨rfl, rfl⟩, fun n h => by cases h; exact rise t rfl⟩
  | short t => exact ⟨.inr (.inr ⟨rfl, rfl⟩), fun n h => by cases h⟩
  | openCoil => exact ⟨.inr (.inr ⟨rfl, rfl⟩), fun n h => by cases h⟩
  | invalid cause => exact ⟨sound.health, sound.rise⟩

theorem State.Bounded.quiet {t : State} (h : s.Bounded) (quiet : s.Quiet t) : t.Bounded := quiet.guards.bounds h

/-- The first pin of a test leaves at most 17 (R102). -/
theorem State.Bounded.testAdvance (h : s.Bounded) (few : c.todo.length ≤ 18) : (s.testAdvance c).Bounded := by
  unfold State.testAdvance
  split
  · exact (h.setTest (x := none) fun d held => by cases held).quiet (State.completeEntry_quiet _ _)
  · next p rest todo =>
    refine h.setTest fun d held => ?_
    cases held
    have count : rest.length + 1 ≤ 18 := by rw [todo] at few; exact few
    exact Nat.le_of_succ_le_succ count

theorem State.Bounded.testResult (h : s.Bounded) (few : c.todo.length ≤ 18) (p : Pin) {o : CoilOutcome} (rise : o.RiseInRange) :
    (s.testResult c p o).Bounded := by
  have recorded := h.setPinRecord p ((h.record p).tested rise)
  have posted (t : State) (n : Health) : t.Quiet (t.postPinFailed p n o) := by
    unfold State.postPinFailed
    split
    · exact .ite (.refl t) (t.postBoth_quiet _)
    · exact .refl t
  exact ((recorded.quiet (State.post_quiet _ _ _)).quiet (posted _ _)).testAdvance few

theorem CoilOutcome.riseInRange_invalid (cause : InvalidCause) : (CoilOutcome.invalid cause).RiseInRange :=
  fun _ h => by cases h

theorem State.Bounded.testPulse (h : s.Bounded) (few : c.todo.length ≤ 17) (p : Pin) : (s.testPulse c p).Bounded := by
  have driven : (s.setChannel p (.drive 600 true)).Bounded := h.quiet (.still rfl)
  exact (driven.addHeat p 60).setTest fun d held => by cases held; exact few

theorem State.Bounded.testGo (h : s.Bounded) (fuel : Nat) : (s.testGo fuel).Bounded := by
  induction fuel generalizing s with
  | zero => exact h
  | succ fuel ih =>
    unfold State.testGo
    split
    · exact h
    next c held =>
    split
    · split
      · have free : (if s.heat.supply.isNone then s.useFree else s).Bounded := h.quiet (.ite (.still rfl) (.refl s))
        have few (n : Nat) : ({ c with supply := n } : TestContext).todo.length ≤ 17 := h.todo c held
        dsimp only
        split
        · exact ih (free.testResult (Nat.le_succ_of_le (few _)) _ (CoilOutcome.riseInRange_invalid _))
        · exact free.testPulse (few _) _
      · exact h
    · exact h

theorem State.Bounded.openTest (h : s.Bounded) (n : SeqNo) (x : Option Pin) : (s.openTest n x).Bounded := by
  have pins : (pinsToTest x).length ≤ 18 := by cases x <;> simp [pinsToTest]
  exact (h.testAdvance (c := ⟨n, pinsToTest x, none, .waiting, 0⟩) pins).testGo 19

theorem State.Bounded.testPulseEnd (h : s.Bounded) {o : CoilOutcome} (rise : o.RiseInRange) : (s.testPulseEnd o).Bounded := by
  unfold State.testPulseEnd
  split
  · next c held =>
    split
    · have recovers (p : Pin) : (s.setChannel p (.recovery recoveryTicks)).Bounded := h.quiet (.still rfl)
      exact ((recovers _).testResult (Nat.le_succ_of_le (h.todo c held)) _ rise).testGo 19
    · exact h
  · exact h

theorem State.Bounded.testCut (h : s.Bounded) : s.testCut.Bounded := by
  unfold State.testCut
  split
  · next c held =>
    split
    · exact (h.testResult (Nat.le_succ_of_le (h.todo c held)) _ (CoilOutcome.riseInRange_invalid _)).testGo 19
    · exact h
  · exact h

theorem CoilOutcome.riseInRange_riseOutcome {t : Nat} (time : riseTimeOk t = true) : (riseOutcome t).RiseInRange := by
  simp only [riseTimeOk, Bool.and_eq_true, decide_eq_true_eq] at time
  unfold riseOutcome
  split
  · exact fun n h => by cases h
  · exact fun n h => by cases h; omega

end

/-! ## Grants, and what an event brings with it (R165, R168) -/

section
variable (s : State)

/-- What an event brings with it leaves the carriage and the drive state. -/
theorem State.Settling.oneMotion {s t : State} (h : s.Settling t) (one : s.OneMotion) : t.OneMotion :=
  one.of_same (congrArg _ h.car) (congrArg (fun c : Carriage => c.motion.isSome) h.car) (congrArg _ h.car)
    fun _ stopped => by rw [h.frame]; exact stopped

theorem State.Bounded.grant {s : State} (h : s.Bounded) (l : Link) (e : Entry) : (s.grant l e).Bounded := by
  have granted : ((s.modifyHead l fun e => { e with state := .granted }).modifyArb fun a =>
      { a with granted := some { link := l, seq := e.seq }, autoTimer := none }).Bounded := h.quiet (.still rfl)
  unfold State.grant
  dsimp only
  generalize ((s.modifyHead l fun e => { e with state := .granted }).modifyArb fun a =>
      { a with granted := some { link := l, seq := e.seq }, autoTimer := none }) = t at granted ⊢
  split
  · have held : t.Quiet (if l = .job then t.modifyArb fun a => { a with hold := true } else t) := .ite (.still rfl) (.refl t)
    exact (granted.quiet held).quiet (State.openLine_quiet _ _ _)
  · exact granted.openTest _ _
  · exact (granted.quiet (State.modifyHalt_quiet _ _)).quiet (State.startRun_quiet _ _ _ _)
  · exact granted.quiet (State.startRun_quiet _ _ _ _)

theorem State.Bounded.judgeHead {s : State} (h : s.Bounded) (l : Link) : (s.judgeHead l).Bounded := by
  obtain ⟨-, e⟩ | ⟨d, -, -, e⟩ | ⟨_, -, -, e⟩ | ⟨_, -, -, e⟩ := s.judgeHead_cases l <;> rw [e]
  · exact h
  · exact h.grant l d
  · exact h.quiet (s.modifyHalt_quiet _)
  · exact h.quiet (s.modifyHalt_quiet _)

theorem State.settle_guards : s.Guards s.settle where
  motion := s.settle_settling.oneMotion
  bounds := by
    refine State.settle_induct State.Bounded (fun h once => ?_) fun h => h.quiet (State.judgeTimers_quiet _)
    obtain ⟨p, -, rfl⟩ | ⟨e, -, -, rfl⟩ | ⟨l, -, -, -, -, rfl⟩ := State.settleOnce_cases once
    · exact h.quiet (State.planNow_lineOnly _ p).quiet
    · exact h.grant .console e
    · exact h.judgeHead l

theorem State.judgeGates_guards : s.Guards s.judgeGates := .ite s.settle_guards (.refl s)

variable {s} in
/-- An operation that changes none of the fields, with what its event brings. -/
theorem State.Quiet.settle {t : State} (h : s.Quiet t) : s.Guards t.settle := h.guards.trans t.settle_guards

theorem State.testProceed_guards : s.Guards s.testProceed :=
  ⟨s.testProceed_settling.oneMotion, fun h => h.testGo 19⟩

theorem State.testCut_guards : s.Guards s.testCut := ⟨s.testCut_settling.oneMotion, fun h => h.testCut⟩

theorem State.testPulseEnd_guards {o : CoilOutcome} (rise : o.RiseInRange) : s.Guards (s.testPulseEnd o) where
  motion one := by
    unfold State.testPulseEnd
    split
    · split
      · have recovers (p : Pin) : (s.setChannel p (.recovery recoveryTicks)).OneMotion := ⟨one.exclusive, one.moving, one.armed⟩
        exact ((State.testResult_settling _ _ _ _).trans (State.testProceed_settling _)).oneMotion (recovers _)
      · exact one
    · exact one
  bounds h := h.testPulseEnd rise

end

end Sys2Proof.Machine

namespace Sys2Proof.Machine

/-! ## Strikes (R80 to R99, R111, R112) -/

/-- What the work of the Sequencer keeps: the channels, the accumulators and the strike lists alone change beside it, its walk
goes on, and the repair list and the accumulators keep their bounds. -/
structure State.Strikes (s t : State) : Prop where
  only : s.SequOnly t
  walking : t.sequ.walking = s.sequ.walking
  repairs : s.sequ.repairs.length ≤ 5120 → t.sequ.repairs.length ≤ 5120
  heat : (∀ p, s.heatOf p ≤ 65535) → ∀ p, t.heatOf p ≤ 65535

section
variable {s t u : State}

theorem State.Strikes.refl (s : State) : s.Strikes s := ⟨.refl s, rfl, id, id⟩

theorem State.Strikes.trans (a : s.Strikes t) (b : t.Strikes u) : s.Strikes u :=
  ⟨a.only.trans b.only, b.walking.trans a.walking, fun h => b.repairs (a.repairs h), fun h => b.heat (a.heat h)⟩

theorem State.Strikes.ite {p : Prop} [Decidable p] (a : s.Strikes t) (b : s.Strikes u) : s.Strikes (if p then t else u) := by
  split
  · exact a
  · exact b

theorem State.Strikes.foldl {α : Type} {f : State → α → State} (h : ∀ (s : State) (a : α), s.Strikes (f s a)) (xs : List α)
    (s : State) : s.Strikes (xs.foldl f s) := by
  induction xs generalizing s with
  | nil => exact .refl s
  | cons x xs ih => exact (h s x).trans (ih _)

/-- A Sequencer that goes on with its walk. -/
theorem State.Strikes.sequ {f : Sequencer → Sequencer} (walking : (f s.sequ).walking = s.sequ.walking)
    (repairs : s.sequ.repairs.length ≤ 5120 → (f s.sequ).repairs.length ≤ 5120) : s.Strikes (s.modifySequ f) :=
  ⟨s.modifySequ_only f, walking, repairs, id⟩

theorem State.Strikes.car (h : s.Strikes t) : t.car = s.car := h.only.car

/-- The bounds after the work of a Sequencer whose walk, if it has ended, leaves it empty. -/
theorem State.Strikes.bounded (h : s.Strikes t) (bound : s.Bounded) (idle : t.sequ.IdleEmpty) : t.Bounded := by
  have heat := h.heat bound.heat
  have repairs := h.repairs bound.repairs
  obtain ⟨only⟩ := h.only
  rw [only] at heat repairs idle ⊢
  exact { bound with heat := heat, repairs := repairs, idle := idle }

theorem State.Strikes.oneMotion (h : s.Strikes t) (one : s.OneMotion) : t.OneMotion := by
  obtain ⟨only⟩ := h.only
  rw [only]
  exact ⟨one.exclusive, one.moving, one.armed⟩

/-- The work of a Sequencer that is walking. -/
theorem State.Strikes.guards (h : s.Strikes t) (walking : s.Bounded → s.sequ.walking = true) : s.Guards t where
  motion := h.oneMotion
  bounds bound := h.bounded bound fun idle => by
    rw [h.walking, walking bound] at idle
    cases idle

end

section
variable (s : State)

theorem Sequencer.offer_length {q : Sequencer} (bound : q.repairs.length ≤ 5120) (i : RepairItem) :
    (q.offer i).repairs.length ≤ 5120 := by
  obtain ⟨room, e⟩ | ⟨-, e⟩ := q.offer_cases i <;> rw [e]
  · simp only [List.length_append, List.length_cons, List.length_nil]
    omega
  · exact bound

theorem State.missPin_strikes (a : PassId) (e : StrikeEntry) (p : Pin) : s.Strikes (s.missPin a e p) :=
  .sequ (by rw [Sequencer.offer_frame]) fun bound => Sequencer.offer_length bound _

theorem State.missEntry_strikes (a : PassId) (e : StrikeEntry) : s.Strikes (s.missEntry a e) :=
  .foldl (fun t p => t.missPin_strikes a e p) _ s

theorem State.setTimer_strikes (c : PinColumn) (x : DelayTimer) : s.Strikes (s.modifySequ (·.setTimer c x)) := by
  cases c <;> exact .sequ rfl id

theorem State.firePin_strikes (a : PassId) (i : Nat) (e : StrikeEntry) (p : Pin) : s.Strikes (s.firePin a i e p) := by
  have only := s.firePin_only a i e p
  obtain ⟨-, -, h⟩ | ⟨-, h⟩ := s.firePin_cases a i e p <;> rw [h] at only ⊢
  · have lists := State.markStruck_frame
      ((s.setChannel p (.drive (s.sequ.driveTime * 10) false)).addHeat p s.sequ.driveTime) i p
    have sequ : (((s.setChannel p (.drive (s.sequ.driveTime * 10) false)).addHeat p s.sequ.driveTime).markStruck i p).sequ =
        s.sequ := by rw [lists]; rfl
    refine ⟨only, by rw [sequ], fun bound => by rw [sequ]; exact bound, fun heat q => ?_⟩
    rw [lists]
    show ((s.setChannel p (.drive (s.sequ.driveTime * 10) false)).addHeat p s.sequ.driveTime).heatOf q ≤ 65535
    by_cases same : q = p
    · rw [same, State.heatOf_addHeat]
      exact Nat.min_le_left _ _
    · rw [State.heatOf_addHeat_other _ _ same]
      exact heat q
  · exact s.missPin_strikes a e p

theorem State.fireEntry_strikes (i : Nat) : s.Strikes (s.fireEntry i) := by
  unfold State.fireEntry
  split
  · exact .refl s
  · split
    · exact .refl s
    · exact .ite (.foldl (fun t p => t.firePin_strikes _ i _ p) _ s) (s.missEntry_strikes _ _)

theorem State.armEntry_strikes (a : PassId) (i : Nat) (e : StrikeEntry) : s.Strikes (s.armEntry a i e) := by
  unfold State.armEntry
  split
  · exact s.missEntry_strikes _ _
  · exact .ite (s.fireEntry_strikes _) (s.setTimer_strikes _ _)

theorem State.reachHead_strikes (y : Int) : s.Strikes (s.reachHead y) := by
  have past : s.Strikes (s.modifySequ fun q => { q with head := q.head + 1 }) := .sequ rfl id
  unfold State.reachHead
  split
  · exact .refl s
  · split
    · exact .refl s
    · exact .ite (.ite (past.trans (State.armEntry_strikes _ _ _ _)) (past.trans (State.missEntry_strikes _ _ _))) (.refl s)

theorem State.sequCount_guards (d : Dir) (y : Int) : s.Guards (s.sequCount d y) := by
  unfold State.sequCount
  split
  · next walks => exact ((s.reachHead_strikes y).trans (State.reachHead_strikes _ y)).guards fun _ => walks.1
  · exact .refl s

theorem State.endTimer_strikes (c : PinColumn) : s.Strikes (s.endTimer c) := by
  unfold State.endTimer
  split
  · dsimp only
    split
    · exact (s.setTimer_strikes c .idle).trans (State.missEntry_strikes _ _ _)
    · exact s.setTimer_strikes c .idle
  · exact .refl s

/-- The end of the walk, once its report has been handed over (R80, R85). -/
theorem State.walkEnd_handOver_guards : s.Guards s.walkEnd.handOver := by
  have timers := (s.endTimer_strikes .colA).trans (State.endTimer_strikes _ .colB)
  have missed : ∃ t, s.Strikes t ∧
      s.walkEnd = t.modifySequ fun q => { q with walking := false, timerA := .idle, timerB := .idle } := by
    unfold State.walkEnd
    dsimp only
    split
    · exact ⟨_, timers.trans (.foldl (fun t e => t.missEntry_strikes _ e) _ _), rfl⟩
    · exact ⟨_, timers, rfl⟩
  obtain ⟨t, strikes, ended⟩ := missed
  obtain ⟨only⟩ := strikes.only
  refine ⟨fun one => ?_, fun h => ?_⟩
  · have kept := strikes.oneMotion one
    rw [ended]
    exact ⟨kept.exclusive, kept.moving, kept.armed⟩
  · have heat := strikes.heat h.heat
    rw [ended]
    rw [only] at heat ⊢
    exact { h with heat := heat, repairs := Nat.zero_le _, idle := fun _ => ⟨rfl, rfl, rfl, rfl⟩ }

/-- A timer that runs is that of a Sequencer that walks (R80). -/
theorem State.Bounded.walking_of_running {s : State} (h : s.Bounded) {c : PinColumn} (runs : s.sequ.timer c ≠ .idle) :
    s.sequ.walking = true := by
  cases walking : s.sequ.walking with
  | true => rfl
  | false =>
    obtain ⟨timerA, timerB, -⟩ := h.idle walking
    cases c
    · exact absurd timerA runs
    · exact absurd timerB runs

theorem State.Bounded.walkStop {s : State} (h : s.Bounded) : s.walkStop.Bounded :=
  h.setSequ (Nat.zero_le _) fun _ => ⟨rfl, rfl, rfl, rfl⟩

theorem State.walkStart_guards : s.Guards s.walkStart := by
  have walks (q : Sequencer) (walking : q.walking = true) (empty : q.repairs = []) : s.Guards { s with sequ := q } :=
    ⟨fun one => ⟨one.exclusive, one.moving, one.armed⟩, fun h => h.setSequ (by rw [empty]; exact Nat.zero_le _) fun idle => by
      rw [walking] at idle
      cases idle⟩
  unfold State.walkStart
  split
  · exact .refl s
  · split
    · exact walks _ rfl rfl
    · exact .refl s

/-! ### Judgements of a strike (R95, R96) -/

/-- An operation whose change of the state is a pin record, with what is posted. -/
theorem State.setPinRecord_guards (p : Pin) {r : PinRecord} (sound : s.Bounded → r.Sound) : s.Guards (s.setPinRecord p r) :=
  ⟨fun one => ⟨one.exclusive, one.moving, one.armed⟩, fun h => h.setPinRecord p (sound h)⟩

theorem State.judgeFault_guards (p : Pin) (c : PinCause) : s.Guards (s.judgeFault p c) := by
  obtain ⟨-, e⟩ | ⟨few, e⟩ := s.judgeFault_cases p c <;> rw [e]
  · have failed := s.setPinRecord_guards p (r := { s.pinRecord p with faults := 3, health := .failed }) fun h =>
      ⟨.inr (.inr ⟨rfl, rfl⟩), h.rise p⟩
    exact failed.trans (State.postBoth_quiet _ _).guards
  · refine s.setPinRecord_guards p fun h => ⟨.inr (.inl ⟨rfl, ?_⟩), h.rise p⟩
    dsimp only
    omega

theorem State.judgeGood_guards (p : Pin) : s.Guards (s.judgeGood p) :=
  s.setPinRecord_guards p fun h => ⟨.inl ⟨rfl, rfl⟩, h.rise p⟩

end

/-! ## The carriage (R61 to R77) -/

section
variable {s : State}

theorem Carriage.InRange.of_same {c k : Carriage} (h : c.InRange) (counter : k.counter = c.counter) (period : k.period = c.period)
    (timer : k.periodTimer = c.periodTimer) : k.InRange :=
  ⟨by rw [counter]; exact h.counter, by rw [period]; exact h.period, by rw [timer]; exact h.timer⟩

theorem Carriage.InRange.of_zero {c k : Carriage} (h : c.InRange) (counter : k.counter = 0) (period : k.period = c.period)
    (timer : k.periodTimer = c.periodTimer) : k.InRange :=
  ⟨by rw [counter]; decide, by rw [period]; exact h.period, by rw [timer]; exact h.timer⟩

/-- A carriage that is at rest, with the counter, the period and the timer held. -/
theorem State.Guards.rest {k : Carriage} (rest : k.state.driven = false) (motion : s.OneMotion → k.motion = none)
    (disarmed : s.OneMotion → k.indexArmed = false) (range : s.car.InRange → k.InRange) : s.Guards { s with car := k } :=
  ⟨fun one => .of_rest rest (motion one) (disarmed one), fun h => h.setCar (range h.inRange)⟩

/-- A carriage that goes on with its pass or its positioning move. -/
theorem State.Guards.moving {k : Carriage} (motion : s.car.motion.isSome = true)
    (state : s.car.state = .rampUp ∨ s.car.state = .cruise ∨ s.car.state = .rampDown →
      k.state = .rampUp ∨ k.state = .cruise ∨ k.state = .rampDown)
    (armed : k.indexArmed = s.car.indexArmed) (range : s.car.InRange → k.InRange) : s.Guards { s with car := k } := by
  refine ⟨fun one => ?_, fun h => h.setCar (range h.inRange)⟩
  have moves := one.moving motion
  have other : s.car.state ≠ .homing .seek := by obtain e | e | e := moves <;> rw [e] <;> exact CarState.noConfusion
  exact .of_moving (state moves) (armed.trans (one.disarmed other)) (one.exclusive (CarState.driven_of_moving moves))

/-- A carriage whose state, motion and index are held. -/
theorem State.Guards.setCar {k : Carriage} (state : k.state = s.car.state) (motion : k.motion = s.car.motion)
    (armed : k.indexArmed = s.car.indexArmed) (range : s.car.InRange → k.InRange) : s.Guards { s with car := k } :=
  ⟨fun one => one.of_same state (congrArg Option.isSome motion) armed fun _ => id, fun h => h.setCar (range h.inRange)⟩

/-! ### Counts (R61, R63, R64) -/

theorem State.takeCount_guards (s : State) (ch : EncoderChannel) (d : Dir) : s.Guards (s.takeCount ch d) := by
  have counted (x : Int) (h : -32768 ≤ x ∧ x ≤ 32767) : s.Guards { s with
      car := { s.car.toggled ch with period := capturedPeriod s.car.periodTimer, periodTimer := 0, counter := x } } := by
    refine .setCar (by cases ch <;> rfl) (by cases ch <;> rfl) (by cases ch <;> rfl) fun _ => ⟨h, ?_, Nat.zero_le _⟩
    exact ⟨Nat.le_max_left _ _, max_le (by decide) (Nat.min_le_left _ _)⟩
  have past := counted (Config.counterPastRange s.freeIndex).toInt
    ⟨BitVec.le_toInt _, Int.le_of_lt_add_one BitVec.toInt_lt⟩
  unfold State.takeCount State.countCounter
  dsimp only
  split
  · next inside =>
    simp only [inCounter, Bool.and_eq_true, decide_eq_true_eq] at inside
    exact counted _ inside
  · exact past.trans (State.useFree_lineOnly _).quiet.guards

/-! ### Faults (R72, R73, R77) -/

theorem State.enterFault_guards (trusted : s.car.state.trusted = true) (c : CarCause) : s.Guards (s.enterFault c) := by
  have other : s.car.state ≠ .homing .seek := fun e => by rw [e] at trusted; cases trusted
  have fault : s.Guards { s with car := { s.car with state := .fault, motion := none, suspended := false } } :=
    .rest rfl (fun _ => rfl) (fun one => one.disarmed other) fun range => range.of_same rfl rfl rfl
  have stopped : s.Guards s.faultStop := by
    have walk (t : State) : t.Guards t.walkReset :=
      .ite ⟨fun one => ⟨one.exclusive, one.moving, one.armed⟩, fun h => h.walkStop⟩ (.refl t)
    exact (fault.trans (walk _)).trans (State.cutAll_quiet _).guards
  have work (t : State) (moving : Bool) : t.Guards (t.faultWork moving) :=
    .ite (t.testCut_guards.trans (State.abandonPass_lineOnly _).quiet.guards) t.testCut_guards
  rw [State.enterFault_eq]
  exact (stopped.trans (work _ _)).trans (State.postBoth_quiet _ _).guards

theorem State.failHoming_guards {k : HomingStep} (homing : s.car.state = .homing k) (c : CarCause) :
    s.Guards (s.failHoming c) := by
  have unhomed : s.Guards { s with car := { s.car with state := .unhomed, indexArmed := false } } :=
    .rest rfl (fun one => one.of_homing_state homing) (fun _ => rfl) fun range => range.of_same rfl rfl rfl
  have halted (t : State) (n : Notice) : t.Guards ((t.postBoth n).modifyHalt fun h => { h with carriage := true }) :=
    ((t.postBoth_quiet n).trans (State.modifyHalt_quiet _ _)).guards
  exact unhomed.trans (halted _ (.carriageFault c s.car.counter .homing))

theorem State.carriageFails_guards (s : State) (c : CarCause) : s.Guards (s.carriageFails c) := by
  unfold State.carriageFails
  split
  · next homing => exact State.failHoming_guards homing c
  · next state => exact State.enterFault_guards (by rw [state]; rfl) c
  · next state => exact State.enterFault_guards (by rw [state]; rfl) c
  · next state => exact State.enterFault_guards (by rw [state]; rfl) c
  · next state => exact State.enterFault_guards (by rw [state]; rfl) c
  · exact .refl s
  · exact .refl s

/-! ### Passes and positioning moves (R67, R68, R85) -/

theorem positioningState_moving (ramp dist : Nat) (made : Int) {held : CarState}
    (moving : held = .rampUp ∨ held = .cruise ∨ held = .rampDown) :
    positioningState ramp dist made held = .rampUp ∨ positioningState ramp dist made held = .cruise ∨
      positioningState ramp dist made held = .rampDown := by
  unfold positioningState
  split
  · exact .inr (.inr rfl)
  · split
    · exact .inr (.inl rfl)
    · exact moving

theorem passState_moving (m : CarMotion) (x : Int) {held : CarState}
    (moving : held = .rampUp ∨ held = .cruise ∨ held = .rampDown) :
    passState m x held = .rampUp ∨ passState m x held = .cruise ∨ passState m x held = .rampDown := by
  unfold passState
  split
  · exact .inr (.inr rfl)
  · split
    · exact .inr (.inl rfl)
    · exact moving

theorem State.startPass_guards (motion : s.car.motion.isSome = true) : s.Guards s.startPass := by
  have started : s.Guards { s with car := { s.car with
      state := .rampUp, suspended := false, motion := s.car.motion.map fun m => { m with leg := .pass } } } :=
    .moving motion (fun _ => .inl rfl) rfl fun range => range.of_same rfl rfl rfl
  have walked := started.trans (State.walkStart_guards _)
  unfold State.startPass
  dsimp only
  split
  · exact .ite (walked.trans (State.modifyResult_lineOnly _ _ _).quiet.guards) walked
  · exact walked

theorem State.countPositioning_guards (motion : s.car.motion.isSome = true) (m : CarMotion) (o : Int) (d : Dir) :
    s.Guards (s.countPositioning m o d) :=
  .ite (.refl s) (.ite (State.startPass_guards motion)
    (.moving motion (positioningState_moving _ _ _) rfl fun range => range.of_same rfl rfl rfl))

/-- What reads neither the repair list nor the overflow mark in the fields that the invariants read, before the report is
handed over. -/
theorem State.Quiet.handOver {t : State} (h : s.Quiet t) : s.handOver.Quiet t.handOver :=
  { h with sequ := congrArg (fun q : Sequencer => { q with repairs := [], overflow := false }) h.sequ }

theorem State.finishPass_guards (motion : s.car.motion.isSome = true) : s.Guards s.finishPass := by
  have stopped : s.Guards { s with car := { s.car with state := .stopped, motion := none, suspended := false } } := by
    refine .rest rfl (fun _ => rfl) (fun one => one.disarmed fun seek => ?_) fun range => range.of_same rfl rfl rfl
    obtain moves | moves | moves := one.moving motion <;> rw [moves] at seek <;> cases seek
  exact (stopped.trans (State.walkEnd_handOver_guards _)).trans (State.endPass_lineOnly _).quiet.handOver.guards

theorem State.countPass_guards {m : CarMotion} (motion : s.car.motion = some m) (d : Dir) : s.Guards (s.countPass m d) := by
  have some : s.car.motion.isSome = true := by rw [motion]; rfl
  have passed : s.Guards { s with car := s.car.passed m d } := by
    refine .moving some (fun moves => ?_) rfl fun range => range.of_same rfl rfl rfl
    unfold Carriage.passed
    dsimp only
    split
    · exact passState_moving m _ moves
    · exact moves
  have counted := passed.trans (State.sequCount_guards _ d s.car.counter)
  have car := (State.sequCount_only { s with car := s.car.passed m d } d s.car.counter).car
  exact .ite (counted.trans (State.finishPass_guards (by rw [car]; exact some))) counted

/-! ### Homing (R75 to R77) -/

theorem State.startHoming_guards (s : State) : s.Guards s.startHoming :=
  .rest rfl (fun _ => rfl) (fun _ => rfl) fun range => range.of_same rfl rfl rfl

/-- The seek step begins in a homing, with the Paper Drive STOPPED (R76, R77). -/
theorem State.beginSeek_guards {k : HomingStep} (homing : s.car.state = .homing k)
    (stopped : s.OneMotion → s.drive.state = .stopped) : s.Guards s.beginSeek :=
  ⟨fun one => .of_homing rfl (one.of_homing_state homing) (fun _ => rfl) (stopped one),
    fun h => h.setCar (h.inRange.of_zero rfl rfl rfl)⟩

theorem State.countHoming_guards {k : HomingStep} (homing : s.car.state = .homing k) (d : Dir) :
    s.Guards (s.countHoming k d) := by
  unfold State.countHoming
  split
  · exact .refl s
  · exact .refl s
  · exact .ite (State.beginSeek_guards homing fun one => one.exclusive (by rw [homing]; rfl)) (.refl s)
  · exact .ite (State.failHoming_guards homing _) (.refl s)
  · refine .ite (State.failHoming_guards homing _) (.ite ?_ (.refl s))
    exact .rest rfl (fun one => one.of_homing_state homing) (fun one => one.disarmed (by rw [homing]; simp))
      fun range => range.of_same rfl rfl rfl

/-! ### One count (R66, R72) -/

theorem State.countTrusted_guards (trusted : s.car.state.trusted = true) (d : Dir) : s.Guards (s.countTrusted d) := by
  refine .ite (State.enterFault_guards trusted _) ?_
  split
  · exact .refl s
  · next m motion =>
    split
    · exact State.countPositioning_guards (by rw [motion]; rfl) m _ d
    · exact State.countPass_guards motion d

theorem State.countEffect_guards (s : State) (d : Dir) : s.Guards (s.countEffect d) := by
  by_cases trusted : s.car.state.trusted = true
  · rw [State.countEffect_of_trusted trusted]
    exact State.countTrusted_guards trusted d
  · unfold State.countEffect
    split
    · exact .refl s
    · exact .refl s
    · next homing => exact State.countHoming_guards homing d
    all_goals next state => exact absurd (by rw [state]; rfl) trusted

theorem State.countChange_guards (s : State) (ch : EncoderChannel) : s.Guards (s.countChange ch) :=
  ((s.takeCount_guards ch _).trans (State.countEffect_guards _ _)).trans (State.settle_guards _)

/-! ### The carriage start (R42, R50, R67) -/

theorem State.launch_guards (stopped : s.car.state = .stopped) (free : s.drive.state = .stopped) (q : PassPlan) :
    s.Guards (s.launch q) := by
  have launched (m : CarMotion) (x : CarState) (moving : x = .rampUp ∨ x = .cruise ∨ x = .rampDown) :
      s.Guards { s with car := { s.car with state := x, motion := some m, suspended := false } } :=
    ⟨fun one => .of_moving moving (one.disarmed (by rw [stopped]; exact CarState.noConfusion)) free,
      fun h => h.setCar (h.inRange.of_same rfl rfl rfl)⟩
  have moves := launched ⟨.positioning s.car.counter, q.dir, q.cls, q.startPoint, q.endPoint, q.firstTrigger, q.lastTrigger⟩ _
    (positioningState_moving q.cls.ramp (q.startPoint - s.car.counter).natAbs 0 (.inl rfl))
  exact .ite (moves.trans (State.startPass_guards rfl)) moves

theorem State.startReady_spec {p : PassId} {i : Fin 2} {q : PassPlan} (ready : s.startReady = some (p, i, q)) :
    s.drive.state = .stopped ∧ s.car.state = .stopped := by
  unfold State.startReady at ready
  split at ready
  · split at ready
    · split at ready
      · next all => exact ⟨of_decide_eq_true all.2.1, all.2.2.1⟩
      · cases ready
    · cases ready
  · cases ready

theorem State.giveStart_guards {p : PassId} {i : Fin 2} {q : PassPlan} (ready : s.startReady = some (p, i, q)) :
    s.Guards (s.giveStart p i q) := by
  obtain ⟨free, stopped⟩ := State.startReady_spec ready
  obtain ⟨t, ht⟩ : ∃ t : State, t = (({ s.setList i (.striking q) with dwell := .none }).recordDir p q.dir).setStage
    (.striking p) := ⟨_, rfl⟩
  have staged : s.gauges = t.gauges := by
    rw [ht]
    cases p <;> rfl
  have car : t.car = s.car := by rw [ht]; cases p <;> rfl
  have drive : t.drive = s.drive := by rw [ht]; cases p <;> rfl
  have started : s.Guards (t.launch q) :=
    .after staged.symm (State.launch_guards (by rw [car]; exact stopped) (by rw [drive]; exact free) q)
  rw [State.giveStart]
  dsimp only
  rw [← ht]
  split
  · exact started.trans (State.planOdd_quiet _ _ _).guards
  · exact started

end

end Sys2Proof.Machine

namespace Sys2Proof.Machine

/-! ## Ports and queues (R37, R180 to R182, R187, R189) -/

section
variable (s : State) (l : Link)

/-- A port whose notice queue does not grow past its bound. -/
theorem State.modifyPort_quiet {f : LinkPort → LinkPort}
    (bound : (s.port.get l).notices.length ≤ 16 → (f (s.port.get l)).notices.length ≤ 16) : s.Quiet (s.modifyPort l f) := by
  refine ⟨rfl, rfl, rfl, rfl, rfl, rfl, fun _ => id, fun k => ?_⟩
  rw [State.modifyPort_port, PerLink.get_set]
  split
  · next same => rw [same]; exact bound
  · exact id

theorem State.respond_quiet (f : Frame) (st : Status) (payload : List Byte) : s.Quiet (s.respond l f st payload) :=
  s.modifyPort_quiet l id

theorem State.receive_quiet (r : RxState) (n : Nat) : s.Quiet (s.receive l r n) := s.modifyPort_quiet l id

theorem State.selectFalls_quiet : s.Quiet (s.modifyPort l LinkPort.selectFalls) := by
  refine s.modifyPort_quiet l fun bound => ?_
  unfold LinkPort.selectFalls
  split <;> exact bound

theorem State.selectRises_quiet : s.Quiet (s.modifyPort l LinkPort.selectRises) := by
  refine s.modifyPort_quiet l fun bound => ?_
  unfold LinkPort.selectRises
  split <;> exact bound

theorem State.purge_quiet : s.Quiet (s.purge l) := .still rfl

theorem State.releaseHold_quiet : s.Quiet s.releaseHold := .still rfl

theorem State.linkReset_quiet : s.Quiet (s.linkReset l) := by
  have purged : s.Quiet ((s.purge l).modifyStore l fun t => { t with nextSeq := 0 }) := .still rfl
  exact (purged.trans (.ite (State.releaseHold_quiet _) (.refl _))).trans
    (State.modifyPort_quiet _ l fun _ => Nat.zero_le 16)

end

/-! ## The thermal monitor and the clock (R64, R113 to R122) -/

section
variable (s : State)

theorem State.modifyHeat_quiet {f : Thermal → Thermal} (same : (f s.heat).acc = s.heat.acc) : s.Quiet (s.modifyHeat f) :=
  ⟨rfl, rfl, same, rfl, rfl, rfl, fun _ => id, fun _ => id⟩

theorem State.rejudgeThermal_quiet : s.Quiet s.rejudgeThermal := by
  refine .ite (.refl s) (.trans (s.modifyHeat_quiet ?_) (State.postBoth_quiet _ _))
  rfl

theorem State.judgeHeat_quiet : s.Quiet s.judgeHeat := by
  refine .trans (s.modifyHeat_quiet ?_) (State.rejudgeThermal_quiet _)
  rfl

theorem State.takeTemperature_quiet (t : Int) : s.Quiet (s.takeTemperature t) := by
  refine .trans (s.modifyHeat_quiet ?_) (State.rejudgeThermal_quiet _)
  rfl

theorem State.takeSupply_quiet (v : Nat) : s.Quiet (s.takeSupply v) := by
  refine .ite (s.modifyHeat_quiet ?_) (.trans (s.modifyHeat_quiet ?_) (State.postBoth_quiet _ _)) <;> rfl

/-- A decay raises no accumulator (R113). -/
theorem State.decay_guards : s.Guards s.decay where
  motion one := ⟨one.exclusive, one.moving, one.armed⟩
  bounds h := by
    have heat (p : Pin) : s.decay.heatOf p ≤ 65535 := by
      have fallen : s.decay.heatOf p = decayed (s.heatOf p) := by
        simp only [State.heatOf, State.decay, State.modifyHeat, Vector.getElem_map]
      rw [fallen]
      exact (Nat.sub_le _ _).trans (h.heat p)
    exact { h with heat := heat }

theorem DelayTimer.advance_idle {x : DelayTimer} (idle : x = .idle) (n : Nat) : x.advance n = .idle := by
  rw [idle]
  rfl

/-- Time starts no timer and no motion (R64, R80). -/
theorem State.advance_guards (n : Nat) : s.Guards (s.advance n) where
  motion one := one.of_same rfl rfl rfl fun _ stopped => congrArg (DriveState.advance n) stopped
  bounds h :=
    { h with
      timer := Nat.min_le_left _ _
      todo := fun c held => by
        obtain ⟨d, test, rfl⟩ := Option.map_eq_some_iff.mp held
        exact h.todo d test
      idle := fun rest => by
        obtain ⟨timerA, timerB, repairs, overflow⟩ := h.idle rest
        exact ⟨DelayTimer.advance_idle timerA n, DelayTimer.advance_idle timerB n, repairs, overflow⟩ }

end

/-! ## The resets (R164, R189) -/

section
variable (s : State)

theorem HeadSettings.defaults_legal : HeadSettings.defaults.Legal := by
  unfold HeadSettings.Legal
  decide

/-- The part with its power-on values, but for the queue of commands and the free-value index, is sound (R63, R66, R101,
R111, R163). -/
theorem State.powerOn_oneMotion (pins : PowerOnPins) (job console : Bool) (i : Nat) (cs : List Instr) :
    ({ State.powerOn pins job console with freeIndex := i, pending := cs } : State).OneMotion := .of_rest rfl rfl rfl

theorem Carriage.powerOn_inRange (encA encB index : Bool) : (Carriage.powerOn encA encB index).InRange :=
  ⟨⟨(by decide : (-32768 : Int) ≤ 0), (by decide : (0 : Int) ≤ 32767)⟩,
    ⟨(by decide : 1 ≤ 200000), Nat.le_refl 200000⟩, Nat.zero_le 200000⟩

theorem State.heatOf_powerOn (pins : PowerOnPins) (job console : Bool) (p : Pin) :
    (State.powerOn pins job console).heatOf p = 0 := by
  simp [State.heatOf, State.powerOn, Thermal.powerOn]

theorem State.pinRecord_powerOn (pins : PowerOnPins) (job console : Bool) (p : Pin) :
    (State.powerOn pins job console).pinRecord p = PinRecord.powerOn := by
  simp [State.pinRecord, State.powerOn]

theorem State.powerOn_bounded (pins : PowerOnPins) (job console : Bool) (i : Nat) (cs : List Instr) :
    ({ State.powerOn pins job console with freeIndex := i, pending := cs } : State).Bounded := by
  have sound : PinRecord.powerOn.Sound := ⟨.inl ⟨rfl, rfl⟩, fun t h => by cases h⟩
  have range := Carriage.powerOn_inRange pins.encoderA pins.encoderB pins.index
  exact {
    heat := fun p => (State.heatOf_powerOn pins job console p).trans_le (Nat.zero_le _)
    notices := fun l => by cases l <;> exact Nat.zero_le _
    health := fun p => (State.pinRecord_powerOn pins job console p).symm ▸ sound.health
    rise := fun p => (State.pinRecord_powerOn pins job console p).symm ▸ sound.rise
    counter := range.counter
    period := range.period
    timer := range.timer
    head := HeadSettings.defaults_legal
    repairs := Nat.zero_le _
    todo := fun c h => by cases h
    idle := fun _ => ⟨rfl, rfl, rfl, rfl⟩ }

theorem State.powerOnReset_guards (pins : PowerOnPins) : s.Guards (s.powerOnReset pins) :=
  ⟨fun _ => State.powerOn_oneMotion _ _ _ _ _, fun _ => State.powerOn_bounded _ _ _ _ _⟩

theorem State.Bounded.resetTest {s : State} (h : s.Bounded) : s.resetTest.Bounded := by
  have closed {t : State} (bound : t.Bounded) : (t.setTest none).Bounded := bound.setTest fun d held => by cases held
  unfold State.resetTest
  split
  · exact h
  · split
    · next p _ => exact closed (h.setPinRecord p ⟨(h.record p).health, (h.record p).rise⟩)
    · exact closed h

/-- The engine reset leaves the carriage in the rest step of a homing and the drive STOPPED (R164). -/
theorem State.engineReset_guards : s.Guards s.engineReset where
  motion _ := by
    rw [State.engineReset_frame]
    exact .of_rest rfl rfl rfl
  bounds h := by
    have tested := h.resetTest
    have homed := s.startHoming_guards.bounds h
    obtain ⟨repairs, idle⟩ : (if s.sequ.walking then s.walkStop.sequ else s.sequ).repairs.length ≤ 5120 ∧
        Sequencer.IdleEmpty (if s.sequ.walking then s.walkStop.sequ else s.sequ) := by
      split
      · exact ⟨h.walkStop.repairs, h.walkStop.idle⟩
      · exact ⟨h.repairs, h.idle⟩
    rw [State.engineReset_frame]
    exact {
      heat := h.heat
      notices := fun l => (s.postBoth_quiet .engineReset).notices l (h.notices l)
      health := tested.health
      rise := tested.rise
      counter := homed.counter
      period := homed.period
      timer := homed.timer
      head := HeadSettings.defaults_legal
      repairs := repairs
      todo := fun c held => by cases held
      idle := idle }

end

/-! ## Requests (R133, R172, R173, R176 to R190) -/

theorem clampNat_bounds {lo hi : Nat} (order : lo ≤ hi) (x : Nat) : lo ≤ clampNat lo hi x ∧ clampNat lo hi x ≤ hi :=
  ⟨Nat.le_max_left _ _, Nat.max_le.mpr ⟨order, Nat.min_le_left _ _⟩⟩

theorem clampInt_bounds {lo hi : Int} (order : lo ≤ hi) (x : Int) : lo ≤ clampInt lo hi x ∧ clampInt lo hi x ≤ hi :=
  ⟨le_max_left _ _, max_le order (min_le_left _ _)⟩

/-- Each field of SET HEAD is clamped, or stays (R184). -/
theorem setHeadOf_legal {h : HeadSettings} (legal : h.Legal) (bs : List Byte) : (setHeadOf bs h).Legal := by
  obtain ⟨gap, trim, autoTear, idleRelease⟩ := legal
  have present {α : Type} {p : α → Prop} (b : Bool) {new old : α} (clamped : p new) (held : p old) :
      p (if b = true then new else old) := by
    split
    · exact clamped
    · exact held
  exact ⟨present (p := fun x => 1 ≤ x ∧ x ≤ 6) _ (clampNat_bounds (by decide) _) gap,
    present (p := fun x => -8 ≤ x ∧ x ≤ 7) _ (clampInt_bounds (by decide) _) trim,
    present (p := (· ≤ 15)) _ (Nat.min_le_left _ _) autoTear,
    present (p := fun x => 1 ≤ x ∧ x ≤ 30) _ (clampNat_bounds (by decide) _) idleRelease⟩

section
variable (s : State) (l : Link) (f : Frame)

theorem State.takePutLine_guards : s.Guards (s.takePutLine l f) := by
  unfold State.takePutLine
  split
  · exact (s.respond_quiet l f _ _).guards
  · exact .ite (((s.accept_quiet l _ _ _).trans (State.acceptLatch_quiet _ _)).trans (State.respond_quiet _ l f _ _)).settle
      (s.respond_quiet l f _ _).guards

theorem State.takePutMotion_guards : s.Guards (s.takePutMotion l f) := by
  refine .ite (s.respond_quiet l f _ _).guards ?_
  split
  · exact (s.respond_quiet l f _ _).guards
  · exact .ite ((s.accept_quiet l _ _ _).trans (State.respond_quiet _ l f _ _)).settle (s.respond_quiet l f _ _).guards

theorem State.takeSetForm_guards : s.Guards (s.takeSetForm l f) := by
  have applied (x : List Byte) (t : State) (h : s.Quiet t) : s.Quiet (t.respond l f .ok x).judgeTimers :=
    (h.trans (State.respond_quiet _ l f _ _)).trans (State.judgeTimers_quiet _)
  exact .ite (s.respond_quiet l f _ _).guards
    (.ite (s.respond_quiet l f _ _).guards (applied _ _ (s.applySetForm_quiet _)).guards)

theorem State.takeSetHead_guards : s.Guards (s.takeSetHead l f) := by
  have set : s.Guards (s.modifyArb fun a => { a with head := setHeadOf f.payload a.head }) :=
    ⟨fun one => ⟨one.exclusive, one.moving, one.armed⟩, fun h => h.setHead (setHeadOf_legal h.head _)⟩
  exact set.trans ((State.respond_quiet _ l f _ _).trans (State.judgeTimers_quiet _)).guards

theorem State.takeTakeNotice_guards : s.Guards (s.takeTakeNotice l f) := by
  have taken : s.Quiet (s.modifyPort l fun p =>
      { p with notices := (s.port.get l).notices.drop (noticeCountOf f.payload), lost := false }) :=
    s.modifyPort_quiet l fun bound => (List.drop_sublist _ _).length_le.trans bound
  exact (taken.trans (State.respond_quiet _ l f _ _)).guards

theorem State.takeCancel_guards : s.Guards (s.takeCancel l f) := by
  have purged := (s.purge_quiet l).trans (State.cancelGranted_quiet _ l)
  have freed := purged.trans (.ite (p := l = .job) (State.releaseHold_quiet _) (.refl _))
  exact ((freed.trans (State.post_quiet _ l _)).trans (State.respond_quiet _ l f _ _)).settle

theorem State.leaveCarriage_guards : s.Guards s.leaveCarriage :=
  .ite ((s.modifyHalt_quiet _).guards.trans (.ite (State.startHoming_guards _) (.refl _))) (.refl s)

theorem State.takeClear_guards : s.Guards (s.takeClear l f) := by
  have left := (s.leaveJam_quiet.guards.trans (State.leaveCarriage_guards _)).trans (State.takeUpLine_quiet _).guards
  exact .ite (s.respond_quiet l f _ _).guards (left.trans (State.respond_quiet _ l f _ _).settle)

theorem State.takeEngineReset_guards : s.Guards (s.takeEngineReset l f) :=
  .ite (s.respond_quiet l f _ _).guards (s.engineReset_guards.trans (State.respond_quiet _ l f _ _).guards)

theorem State.takeLinkReset_guards : s.Guards (s.takeLinkReset l f) :=
  ((s.linkReset_quiet l).trans (State.respond_quiet _ l f _ _)).settle

theorem State.modifyTally_quiet (u : Fin 2) (g : TallyUnit → TallyUnit) : s.Quiet (s.modifyTally u g) := .still rfl

theorem State.takeTallySet_guards : s.Guards (s.takeTallySet l f) :=
  (((s.modifyTally_quiet _ _).trans (.ite (State.latchRelease_quiet _ _) (.refl _))).trans
    (State.respond_quiet _ l f _ _)).settle

theorem State.takeTallyArm_guards : s.Guards (s.takeTallyArm l f) :=
  ((s.modifyTally_quiet _ _).trans (State.respond_quiet _ l f _ _)).guards

theorem State.takeTallyMask_guards : s.Guards (s.takeTallyMask l f) :=
  (((s.modifyTally_quiet _ _).trans (.ite (State.latchRelease_quiet _ _) (.refl _))).trans
    (State.respond_quiet _ l f _ _)).settle

theorem State.takeTallyClear_guards : s.Guards (s.takeTallyClear l f) :=
  ((s.modifyTally_quiet _ _).trans (State.respond_quiet _ l f _ _)).guards

theorem State.takeRequest_guards : s.Guards (s.takeRequest l f) := by
  unfold State.takeRequest
  cases f.kind with
  | noOp | readState | readPosition => exact (s.respond_quiet l f _ _).guards
  | putLine => exact s.takePutLine_guards l f
  | putMotion => exact s.takePutMotion_guards l f
  | setForm => exact s.takeSetForm_guards l f
  | setHead => exact s.takeSetHead_guards l f
  | takeNotice => exact s.takeTakeNotice_guards l f
  | cancel => exact s.takeCancel_guards l f
  | tallySet => exact s.takeTallySet_guards l f
  | tallyArm => exact s.takeTallyArm_guards l f
  | tallyMask => exact s.takeTallyMask_guards l f
  | tallyClear => exact s.takeTallyClear_guards l f
  | clear => exact s.takeClear_guards l f
  | engineReset => exact s.takeEngineReset_guards l f
  | linkReset => exact s.takeLinkReset_guards l f

theorem State.byteArrives_guards (b : Byte) : s.Guards (s.byteArrives l b) := by
  have heard := (s.receive_quiet l (rxByte (s.port.get l).rx b).rx 1).guards
  refine .ite ?_ (.refl s)
  split
  · exact heard.trans (State.takeRequest_guards _ l _)
  · exact heard

/-- A request guards what its taking guards. -/
theorem State.request_guards (k : ReqKind) (bytes : List Byte) {take : State → Link → Frame → State}
    (h : ∀ t f, State.Guards t (take t l f)) : s.Guards (s.request k l bytes take) := by
  obtain ⟨f, -, -, e⟩ | ⟨-, e⟩ := s.request_cases k l bytes take <;> rw [e]
  · exact (s.receive_quiet l _ _).guards.trans (h _ f)
  · exact .refl s

end

/-! ## The commands -/

/-- Every next state of an outcome keeps both invariants. -/
def guardsThrough (s : State) (o : Host.Outcome State Fault Refusal) : Prop := ∀ t, o = .next t → s.Guards t

section
variable {s t : State}

theorem State.Guards.through (h : s.Guards t) : guardsThrough s (.next t) := fun _ e => by
  cases e
  exact h

theorem State.Quiet.through (h : s.Quiet t) : guardsThrough s (.next t) := h.guards.through

/-- A command that does something under a condition, and else leaves the state. -/
theorem guardsThrough_ite {p : Prop} [Decidable p] (h : p → s.Guards t) :
    guardsThrough s (if p then .next t else .next s) := by
  split
  · next held => exact (h held).through
  · exact (State.Guards.refl s).through

theorem Carriage.InRange.atStandstill {c : Carriage} (h : c.InRange) :
    Carriage.InRange { c with periodTimer := standstillTicks } := ⟨h.counter, h.period, Nat.le_refl _⟩

theorem State.atStandstill_guards (s : State) : s.Guards s.atStandstill :=
  .setCar rfl rfl rfl Carriage.InRange.atStandstill

/-- The least period outside the window of the slowest class lies below the timer's greatest value (R64, R70). -/
theorem greatestInside_lt (cls : SpeedClass) : greatestInside cls < 200000 := by cases cls <;> decide

theorem State.openPeriod_guards (s : State) : s.Guards (s.modifyCar Carriage.openPeriod) := by
  refine .setCar ?_ ?_ ?_ fun range => ?_ <;> unfold Carriage.openPeriod
  iterate 3
    split
    · split <;> rfl
    · rfl
  split
  · split
    · exact ⟨range.counter, range.period, Nat.max_le.mpr ⟨range.timer, greatestInside_lt _⟩⟩
    · exact range
  · exact range

theorem State.homingRestEnd_guards (rest : s.car.state = .homing .rest) (stopped : s.drive.isStopped = true) :
    s.Guards (if s.car.indexHigh then s.atStandstill.setHoming (.clear none) else s.atStandstill.beginSeek) := by
  have free : s.drive.state = .stopped := of_decide_eq_true stopped
  have cleared : s.atStandstill.Guards (s.atStandstill.setHoming (.clear none)) :=
    ⟨fun one => .of_homing rfl (one.of_homing_state rest)
      (fun index => by cases rest.symm.trans (one.armed index)) free,
      fun h => h.setCar (h.inRange.of_same rfl rfl rfl)⟩
  have sought : s.atStandstill.Guards s.atStandstill.beginSeek := State.beginSeek_guards rest fun _ => free
  exact .ite (s.atStandstill_guards.trans cleared) (s.atStandstill_guards.trans sought)

/-- The armed index ends the seek step (R77). -/
theorem State.indexRises_guards (s : State) : s.Guards { s with car := s.car.indexRises } := by
  unfold Carriage.indexRises
  split
  · next edge =>
    have armed : s.car.indexArmed = true := (Bool.and_eq_true_iff.mp edge).2
    refine ⟨fun one => ?_, fun h => h.setCar (h.inRange.of_zero rfl rfl rfl)⟩
    have seek := one.armed armed
    exact .of_homing rfl (one.of_homing_state seek) (fun index => by cases index) (one.exclusive (by rw [seek]; rfl))
  · exact .setCar rfl rfl rfl fun range => range.of_same rfl rfl rfl

theorem State.indexFalls_guards (s : State) : s.Guards { s with car := s.car.indexFalls } := by
  unfold Carriage.indexFalls
  split
  · next edge =>
    obtain ⟨-, clear⟩ := edge
    refine ⟨fun one => ?_, fun h => h.setCar (h.inRange.of_same rfl rfl rfl)⟩
    exact .of_homing rfl (one.of_homing_state clear) (fun index => by rw [one.armed index] at clear; cases clear)
      (one.exclusive (by rw [clear]; rfl))
  · exact .setCar rfl rfl rfl fun range => range.of_same rfl rfl rfl

theorem State.indexEdge_guards (s : State) (level : Bool) :
    s.Guards (s.modifyCar fun c => if level then c.indexRises else c.indexFalls) := by
  cases level
  · exact s.indexFalls_guards
  · exact s.indexRises_guards

end

section
variable (s : State)

theorem execCarriageStart_guardsThrough : guardsThrough s (execCarriageStart s) := by
  unfold execCarriageStart
  split
  · next p i q ready =>
    split
    · exact (State.giveStart_guards ready).through
    · exact ((s.dropPlan_lineOnly).trans (State.setStage_lineOnly _ _)).quiet.through
  · exact (State.Guards.refl s).through

theorem execDelayTimerExpiry_guardsThrough (col : PinColumn) : guardsThrough s (execDelayTimerExpiry col s) := by
  unfold execDelayTimerExpiry
  split
  · next n i running =>
    have runs : s.sequ.timer col ≠ .idle := by rw [running]; exact DelayTimer.noConfusion
    exact (((s.fireEntry_strikes i).trans (State.setTimer_strikes _ col .idle)).guards
      fun bound => bound.walking_of_running runs).through
  · exact (State.Guards.refl s).through

theorem State.setChannel_quiet (p : Pin) (c : Channel) : s.Quiet (s.setChannel p c) := .still rfl

theorem State.shortPulse_guards (p : Pin) : s.Guards (s.shortPulse p) :=
  (s.setChannel_quiet p _).guards.trans (State.judgeFault_guards _ p .short)

theorem execDriveEnd_guardsThrough (p : Pin) (mA : Nat) : guardsThrough s (execDriveEnd p mA s) := by
  have judged (t : State) : t.Guards (t.judgeDriveEnd p mA) := .ite (t.judgeFault_guards p .weak) (t.judgeGood_guards p)
  unfold execDriveEnd
  split
  · split
    · exact (s.shortPulse_guards p).through
    · exact ((s.setChannel_quiet p _).guards.trans (judged _)).through
  · exact (State.Guards.refl s).through

theorem execOvercurrent_guardsThrough (p : Pin) : guardsThrough s (execOvercurrent p s) := by
  unfold execOvercurrent
  split
  · exact (s.shortPulse_guards p).through
  · exact (State.Guards.refl s).through

theorem execHoldEnd_guardsThrough (p : Pin) : guardsThrough s (execHoldEnd p s) := by
  unfold execHoldEnd
  split
  · exact (s.setChannel_quiet p _).through
  · exact (State.Guards.refl s).through

theorem execRecoveryEnd_guardsThrough (p : Pin) : guardsThrough s (execRecoveryEnd p s) := by
  unfold execRecoveryEnd
  split
  · exact (((s.setChannel_quiet p .ready).guards.trans (State.testProceed_guards _)).trans (State.settle_guards _)).through
  · exact (State.Guards.refl s).through

theorem State.startable_spec {d : DueMove} (due : s.startable = some d) : s.car.state = .stopped := by
  unfold State.startable at due
  split at due
  · next ready => exact ready.2
  · cases due

theorem execMoveStart_guardsThrough (paper : Bool) : guardsThrough s (execMoveStart paper s) := by
  unfold execMoveStart
  split
  · next d due =>
    have sensed : s.Quiet (s.modifyForm fun f => { f with paperSensor := paper }) := .still rfl
    have begins := State.beginMove_quiet (s := s.modifyForm fun f => { f with paperSensor := paper }) (s.startable_spec due) d
    exact (sensed.trans begins).settle.through
  · exact (State.Guards.refl s).through

theorem execStep_guardsThrough (paper mark : Bool) : guardsThrough s (execStep paper mark s) := by
  unfold execStep
  split
  · next m stepping _ =>
    exact (State.stepMove_quiet (by rw [stepping]; exact DriveState.noConfusion) m paper mark).settle.through
  · next n m backoff _ => exact (State.backoffStep_quiet (by rw [backoff]; exact DriveState.noConfusion) m n paper).through
  · exact (State.Guards.refl s).through

theorem execSensorPulse_guardsThrough : guardsThrough s (execSensorPulse s) := by
  unfold execSensorPulse
  split
  · refine guardsThrough_ite fun _ => State.Quiet.guards ?_
    exact .still rfl
  · exact (State.Guards.refl s).through

theorem execRetryTimerExpiry_guardsThrough : guardsThrough s (execRetryTimerExpiry s) := by
  unfold execRetryTimerExpiry
  split
  · next n waits => exact (State.Quiet.setDrive (fun _ => by rw [waits]; exact DriveState.noConfusion) _).through
  · exact (State.Guards.refl s).through

theorem execQualifiedEdge_guardsThrough (u : Fin 2) : guardsThrough s (execQualifiedEdge u s) := by
  unfold execQualifiedEdge
  split
  · exact ((s.modifyTally_quiet u _).trans (State.qualifiedEdge_quiet _ u)).settle.through
  · exact (State.Guards.refl s).through

theorem request_guardsThrough (k : ReqKind) (l : Link) (bytes : List Byte) {take : State → Link → Frame → State}
    (h : ∀ t f, State.Guards t (take t l f)) : guardsThrough s (.next (s.request k l bytes take)) :=
  (s.request_guards l k bytes h).through

/-- Every command keeps both invariants. -/
theorem exec_guardsThrough (c : Instr) : guardsThrough s (exec c s) := by
  cases c with
  | powerOnReset pins => exact (s.powerOnReset_guards pins).through
  | selectFalls l => exact (s.selectFalls_quiet l).through
  | selectRises l => exact (s.selectRises_quiet l).through
  | byteArrives l b => exact (s.byteArrives_guards l b).through
  | noOp l bytes => exact request_guardsThrough s _ l bytes fun t f => (t.respond_quiet l f _ _).guards
  | putLine l bytes => exact request_guardsThrough s _ l bytes fun t => t.takePutLine_guards l
  | putMotion l bytes => exact request_guardsThrough s _ l bytes fun t => t.takePutMotion_guards l
  | setForm l bytes => exact request_guardsThrough s _ l bytes fun t => t.takeSetForm_guards l
  | setHead l bytes => exact request_guardsThrough s _ l bytes fun t => t.takeSetHead_guards l
  | readState l bytes => exact request_guardsThrough s _ l bytes fun t f => (t.respond_quiet l f _ _).guards
  | readPosition l bytes => exact request_guardsThrough s _ l bytes fun t f => (t.respond_quiet l f _ _).guards
  | takeNotice l bytes => exact request_guardsThrough s _ l bytes fun t => t.takeTakeNotice_guards l
  | cancel l bytes => exact request_guardsThrough s _ l bytes fun t => t.takeCancel_guards l
  | tallySet l bytes => exact request_guardsThrough s _ l bytes fun t => t.takeTallySet_guards l
  | tallyArm l bytes => exact request_guardsThrough s _ l bytes fun t => t.takeTallyArm_guards l
  | tallyMask l bytes => exact request_guardsThrough s _ l bytes fun t => t.takeTallyMask_guards l
  | tallyClear l bytes => exact request_guardsThrough s _ l bytes fun t => t.takeTallyClear_guards l
  | clear l bytes => exact request_guardsThrough s _ l bytes fun t => t.takeClear_guards l
  | engineReset l bytes => exact request_guardsThrough s _ l bytes fun t => t.takeEngineReset_guards l
  | linkReset l bytes => exact request_guardsThrough s _ l bytes fun t => t.takeLinkReset_guards l
  | countChange ch dt => exact ((s.advance_guards dt).trans (State.countChange_guards _ ch)).through
  | illegalTransition =>
    have flipped : s.Guards (s.modifyCar fun c => { c with encA := !c.encA, encB := !c.encB }) :=
      .setCar rfl rfl rfl fun range => range.of_same rfl rfl rfl
    exact ((flipped.trans (State.carriageFails_guards _ _)).trans (State.settle_guards _)).through
  | stall =>
    exact guardsThrough_ite fun _ =>
      (s.atStandstill_guards.trans (State.carriageFails_guards _ _)).trans (State.settle_guards _)
  | openPeriodSuspension => exact s.openPeriod_guards.through
  | automaticHoming => exact guardsThrough_ite fun _ => s.atStandstill_guards.trans (State.startHoming_guards _)
  | homingRestEnd => exact guardsThrough_ite fun ⟨rest, stopped⟩ => State.homingRestEnd_guards rest stopped
  | indexEdge level => exact (s.indexEdge_guards level).through
  | planComplete => exact (((s.setLists_lineOnly _ _).trans (State.beginDwell_lineOnly _)).quiet).through
  | carriageStart => exact execCarriageStart_guardsThrough s
  | delayTimerExpiry col => exact execDelayTimerExpiry_guardsThrough s col
  | driveEnd p mA => exact execDriveEnd_guardsThrough s p mA
  | overcurrent p => exact execOvercurrent_guardsThrough s p
  | holdEnd p => exact execHoldEnd_guardsThrough s p
  | recoveryEnd p => exact execRecoveryEnd_guardsThrough s p
  | coilRise t =>
    exact guardsThrough_ite fun time =>
      (s.testPulseEnd_guards (CoilOutcome.riseInRange_riseOutcome time)).trans (State.settle_guards _)
  | testPulseTimeout =>
    exact ((s.testPulseEnd_guards fun _ h => by cases h).trans (State.settle_guards _)).through
  | windowEnd =>
    exact ((s.judgeHeat_quiet.guards.trans (State.decay_guards _)).trans (State.judgeGates_guards _)).through
  | temperatureConversion code =>
    exact guardsThrough_ite fun _ => (s.takeTemperature_quiet _).guards.trans (State.judgeGates_guards _)
  | supplyConversion code =>
    exact guardsThrough_ite fun _ => (s.takeSupply_quiet _).guards.trans (State.judgeGates_guards _)
  | dwellRunsOut =>
    have expired : s.Quiet { s with dwell := s.dwell.expire } := .still rfl
    exact expired.through
  | moveStart paper => exact execMoveStart_guardsThrough s paper
  | step paper mark => exact execStep_guardsThrough s paper mark
  | sensorPulse => exact execSensorPulse_guardsThrough s
  | retryTimerExpiry => exact execRetryTimerExpiry_guardsThrough s
  | idleReleaseTimerExpiry => exact guardsThrough_ite fun _ => s.releaseHold_quiet.settle
  | automaticTear =>
    have stopped : s.Quiet (s.modifyArb fun a => { a with autoTimer := none }) := .still rfl
    exact guardsThrough_ite fun _ => (stopped.trans (State.askTear_quiet _)).settle
  | tallyInputChange u level => exact (s.modifyTally_quiet u _).through
  | qualifiedEdge u => exact execQualifiedEdge_guardsThrough s u

/-- Every step, a command or a tick, keeps both invariants. -/
theorem step_guardsThrough : guardsThrough s (step s) := by
  unfold step
  split
  · exact (s.advance_guards 1).through
  · next c rest _ =>
    intro t run
    exact .after (t := { s with pending := rest }) rfl (exec_guardsThrough _ c t run)

end

/-- Settles O57: every command leaves the paper still while the carriage is driven, holds a motion in the moving states alone
and the index in the seek step alone (`step_guardsThrough`). -/
theorem oneMotionIsKept : Obligations.OneMotionIsKept := by
  unfold Obligations.OneMotionIsKept
  intro s t one run
  exact (step_guardsThrough s t run).motion one

/-- Settles O59: every command keeps the ranges of the monitors and an IDLE Sequencer empty (`step_guardsThrough`). -/
theorem boundsAreKept : Obligations.BoundsAreKept := by
  unfold Obligations.BoundsAreKept
  intro s t bound run
  exact (step_guardsThrough s t run).bounds bound

end Sys2Proof.Machine

namespace Sys2Proof.Machine

/-! ## Power-on reset (R164) -/

section
variable (pins : PowerOnPins) (job console : Bool) (i : Nat) (cs : List Instr)

theorem State.powerOn_links :
    ({ State.powerOn pins job console with freeIndex := i, pending := cs } : State).LinksPoweredOn where
  receiver l := by cases l <;> exact ⟨rfl, rfl, rfl⟩
  notices l := by cases l <;> exact ⟨rfl, rfl, rfl⟩
  queues l := by cases l <;> exact ⟨rfl, rfl, rfl⟩
  free := ⟨rfl, rfl⟩
  engine := ⟨rfl, rfl, rfl, rfl⟩
  timers := ⟨rfl, rfl⟩
  head := rfl
  planner := ⟨rfl, rfl⟩
  tally u := by
    match u with
    | 0 | 1 => exact ⟨rfl, rfl, rfl, rfl, rfl, rfl⟩

theorem State.powerOn_mechanism :
    ({ State.powerOn pins job console with freeIndex := i, pending := cs } : State).MechanismPoweredOn pins where
  straps := ⟨rfl, rfl⟩
  carriage := ⟨rfl, rfl, rfl, rfl⟩
  window := ⟨rfl, rfl, rfl⟩
  sequencer := ⟨rfl, rfl, rfl, rfl, rfl⟩
  channels p := by simp [State.channel, State.powerOn]
  health p := State.pinRecord_powerOn pins job console p
  test := rfl
  heat p := State.heatOf_powerOn pins job console p
  scan := ⟨rfl, rfl, rfl⟩
  readings := ⟨rfl, rfl, rfl⟩
  levels := ⟨rfl, rfl, rfl⟩
  form := rfl
  map := rfl
  drive := ⟨rfl, rfl⟩
  steppers := rfl
  tally := ⟨rfl, rfl⟩

/-- The form map after power-on reset lies in its ranges (R129). -/
theorem FormMap.powerOn_legal : FormMap.powerOn.Legal where
  programmed := by decide
  learned n h := by cases h
  tof := by decide
  trim := by decide
  skip := by decide
  few := by decide
  ascending := by decide
  below := by decide

theorem State.powerOn_formSound : (State.powerOn pins job console).FormSound where
  map := FormMap.powerOn_legal
  offset := (by decide : 0 < FormMap.powerOn.len)
  candidate n h := by cases h

theorem State.powerOn_queue (l : Link) : ((State.powerOn pins job console).store.get l).queue = [] := by cases l <;> rfl

/-- Empty queues hold no chain and no stamp (R26). -/
theorem State.powerOn_storeSound : (State.powerOn pins job console).StoreSound where
  distinct := List.nodup_nil
  range _ h := by cases h
  charge l e h := by rw [State.powerOn_queue] at h; cases h
  blocks := Nat.zero_le 240
  descs := Nat.zero_le 24
  order l := by rw [State.powerOn_queue]; exact .nil
  stamps l e h := by rw [State.powerOn_queue] at h; cases h
  apart _ h := by cases h

theorem State.powerOn_grantSound : (State.powerOn pins job console).GrantSound := by
  refine .of_idle rfl rfl rfl rfl ?_ ?_
  · intro l e h
    rw [State.powerOn_queue] at h
    cases h
  · intro e h
    cases h

end

/-- Settles O4: the values of `State.powerOn`, which the queue of commands and the free-value index do not touch. -/
theorem powerOnResetLeavesItsValues : Obligations.PowerOnResetLeavesItsValues := by
  unfold Obligations.PowerOnResetLeavesItsValues
  have reset : State.reset = { State.powerOn PowerOnPins.standard false false with freeIndex := 0, pending := [] } := rfl
  refine ⟨fun pins s => ⟨s.powerOnReset pins, rfl, ?_, ?_⟩, ?_, ?_⟩
  · exact State.powerOn_links pins _ _ _ _
  · exact State.powerOn_mechanism pins _ _ _ _
  · rw [reset]
    exact State.powerOn_links _ _ _ _ _
  · rw [reset]
    exact State.powerOn_mechanism _ _ _ _ _

/-- Settles O5: the reset state has the values of `State.powerOn`, empty queues and nothing in progress. -/
theorem resetStateIsSound : Obligations.ResetStateIsSound := by
  unfold Obligations.ResetStateIsSound
  have reset : State.reset = { State.powerOn PowerOnPins.standard false false with freeIndex := 0, pending := [] } := rfl
  have bounded : State.reset.Bounded := by
    rw [reset]
    exact State.powerOn_bounded _ _ _ _ _
  have motion : State.reset.OneMotion := by
    rw [reset]
    exact State.powerOn_oneMotion _ _ _ _ _
  exact ⟨bounded, State.powerOn_formSound _ _ _, motion, State.powerOn_storeSound _ _ _, State.powerOn_grantSound _ _ _⟩

/-! ## A tick (R64, R80, R88, R113, R114, R120, R149, R170, R175, R178) -/

section
variable (s : State) (n : Nat)

theorem State.advance_channel (p : Pin) : (s.advance n).channel p = (s.channel p).advance n := by
  simp only [State.channel, State.advance, Vector.getElem_map]

theorem State.advance_qual (u : Fin 2) : ((s.advance n).tallyUnit u).qual = (s.tallyUnit u).qual.advance n := by
  simp only [State.tallyUnit, State.advance, Vector.getElem_map]

theorem State.advance_timer (col : PinColumn) : (s.advance n).sequ.timer col = (s.sequ.timer col).advance n := by
  cases col <;> rfl

end

/-- Settles O2: with no command waiting the step is `State.advance` by one tick. -/
theorem idleStepPassesOneTick : Obligations.IdleStepPassesOneTick := by
  unfold Obligations.IdleStepPassesOneTick
  intro s idle
  have tick : step s = .next (s.advance 1) := by
    unfold step
    rw [idle]
  refine ⟨s.advance 1, tick, rfl, rfl, rfl, rfl, rfl, fun n dwell => ?dwell, fun n drive => ?drive, fun col n e timer => ?timer,
    fun p => ?channel, fun u e qual => ?qual, rfl, rfl, rfl, rfl, rfl, rfl, rfl, rfl, rfl, rfl, rfl, rfl, rfl, rfl, rfl, idle⟩
  case dwell => exact congrArg (Dwell.advance 1) dwell
  case drive => exact congrArg (DriveState.advance 1) drive
  case timer =>
    rw [State.advance_timer, timer]
    rfl
  case channel =>
    rw [State.advance_channel]
    cases s.channel p <;> rfl
  case qual =>
    rw [State.advance_qual, qual]
    rfl

end Sys2Proof.Machine

namespace Sys2Proof.Machine

/-! ## The dials of the carriage (R61, R63, R64)

The counter, the count period, the period timer and the channel levels: a count sets them, and what the carriage state held
makes of the count leaves them, but for the counter at the last count of a clear step. -/

/-- The counter, the count period, the period timer and the levels of the two channels. -/
def Carriage.dials (c : Carriage) : Int × Nat × Nat × Bool × Bool := (c.counter, c.period, c.periodTimer, c.encA, c.encB)

section
variable (s : State)

theorem State.enterFault_dials (c : CarCause) : (s.enterFault c).car.dials = s.car.dials := by
  rw [← (State.settle_settling _).car, State.enterFault_car]
  rfl

theorem State.failHoming_car (c : CarCause) :
    (s.failHoming c).car = { s.car with state := .unhomed, indexArmed := false } := rfl

theorem State.startPass_dials : s.startPass.car.dials = s.car.dials := by
  rw [State.startPass_car]
  rfl

theorem State.finishPass_dials : s.finishPass.car.dials = s.car.dials := by
  obtain ⟨car, -⟩ := s.finishPass_ends
  rw [car]
  rfl

/-- What leaves the dials under both branches of a condition. -/
theorem dials_ite {t u : State} {p : Prop} [Decidable p] (h : t.car.dials = s.car.dials) (k : u.car.dials = s.car.dials) :
    (if p then t else u).car.dials = s.car.dials := by
  split
  · exact h
  · exact k

theorem State.countPositioning_dials (m : CarMotion) (o : Int) (d : Dir) :
    (s.countPositioning m o d).car.dials = s.car.dials :=
  dials_ite s rfl (dials_ite s s.startPass_dials rfl)

theorem State.countPass_dials (m : CarMotion) (d : Dir) : (s.countPass m d).car.dials = s.car.dials := by
  have counted : (({ s with car := s.car.passed m d } : State).sequCount d s.car.counter).car.dials = s.car.dials := by
    rw [(State.sequCount_only _ _ _).car]
    rfl
  exact dials_ite s ((State.finishPass_dials _).trans counted) counted

theorem State.countTrusted_dials (d : Dir) : (s.countTrusted d).car.dials = s.car.dials := by
  refine dials_ite s (s.enterFault_dials _) ?_
  split
  · rfl
  · split
    · exact s.countPositioning_dials _ _ d
    · exact s.countPass_dials _ d

/-- A clear step that goes on keeps the counter (R76). -/
theorem State.countHoming_dials {k : HomingStep} (short : ∀ low, k = .clear (some low) → s.car.counter < low + 144) (d : Dir) :
    (s.countHoming k d).car.dials = s.car.dials := by
  unfold State.countHoming
  split
  · rfl
  · rfl
  · next low => rw [if_neg (not_le.mpr (short low rfl))]
  · exact dials_ite s rfl rfl
  · exact dials_ite s rfl (dials_ite s rfl rfl)

theorem State.countEffect_dials (d : Dir)
    (short : ∀ low, s.car.state = .homing (.clear (some low)) → s.car.counter < low + 144) :
    (s.countEffect d).car.dials = s.car.dials := by
  unfold State.countEffect
  split
  · rfl
  · rfl
  · next k homing => exact s.countHoming_dials (fun low clear => short low (by rw [homing, clear])) d
  all_goals exact s.countTrusted_dials d

/-- With the position untrusted and no homing in progress a count has no effect of its own (R66). -/
theorem State.countEffect_of_untrusted (lost : s.car.state = .unhomed ∨ s.car.state = .fault) (d : Dir) :
    s.countEffect d = s := by
  unfold State.countEffect
  obtain state | state := lost <;> rw [state]

theorem State.countEffect_of_homing {k : HomingStep} (homing : s.car.state = .homing k) (d : Dir) :
    s.countEffect d = s.countHoming k d := by
  unfold State.countEffect
  rw [homing]

end

/-- Settles O30: the count is that of `State.counted`, and neither its effect (`State.countEffect_dials`) nor what the event
brings with it changes the dials. -/
theorem countChangeCounts : Obligations.CountChangeCounts := by
  unfold Obligations.CountChangeCounts
  intro ch dt s range
  refine ⟨fun short => ⟨_, State.countChange_advance range, ?_⟩, fun lost => ?_⟩
  · have dials := (s.counted ch dt).countEffect_dials ((s.advance dt).countDir ch) short
    rw [← (State.settle_settling _).car] at dials
    simp only [Carriage.dials, Prod.mk.injEq] at dials
    exact dials
  · rw [State.countChange_advance range, State.countEffect_of_untrusted (s.counted ch dt) lost]

/-! ## A homing fails (R62, R72, R76, R77) -/

section
variable {s : State}

/-- With CARRIAGE in the halt set an event brings at most plans (R165, R168, R171). -/
theorem State.settle_lineOnly_of_carriage (halted : s.arb.halt.carriage = true) : s.LineOnly s.settle := by
  refine State.settle_rel (fun s t => s.arb.halt.carriage = true → s.LineOnly t) (fun s _ => .refl s)
    (fun a b halted => (a halted).trans (b ((a halted).halt ▸ halted))) (fun {s t} h halted => ?_)
    (fun s _ => s.judgeTimers_lineOnly) s halted
  obtain ⟨p, -, rfl⟩ | ⟨e, -, load, -⟩ | ⟨l, -, -, idle, -, -⟩ := State.settleOnce_cases h
  · exact s.planNow_lineOnly p
  · obtain ⟨-, -, -, -, only⟩ := State.loadReady_spec load
    simp [HaltSet.onlyPaper, halted] at only
  · obtain ⟨clear, -, -⟩ := State.isIdle_spec idle
    rw [(HaltSet.isEmpty_iff _).mp clear] at halted
    cases halted

theorem State.engine_of_carriage (halted : s.arb.halt.carriage = true) : s.engine = .halted := by
  have held : s.arb.halt.isEmpty = false := by simp [HaltSet.isEmpty, halted]
  rw [State.engine, held]
  rfl

theorem State.failHoming_failed (s : State) (c : CarCause) : s.HomingFailed (s.failHoming c).settle c := by
  have kept := State.settle_lineOnly_of_carriage (s := s.failHoming c) rfl
  have car : (s.failHoming c).settle.car = { s.car with state := .unhomed, indexArmed := false } :=
    (State.settle_settling _).car.trans (s.failHoming_car c)
  have halted : (s.failHoming c).settle.arb.halt.carriage = true := by rw [kept.halt]; rfl
  refine ⟨by rw [car]; exact ⟨rfl, rfl⟩, by rw [car], ⟨halted, State.engine_of_carriage halted⟩, fun l => ?_⟩
  have posted : (s.failHoming c).port.get l = (s.port.get l).post (.carriageFault c s.car.counter .homing) :=
    State.postBoth_get _ l _
  obtain ⟨more, notices⟩ := (kept.ports l).notices
  obtain heard | lost := LinkPort.post_heard (s.port.get l) (.carriageFault c s.car.counter .homing)
  · exact .inl (by rw [notices, posted]; exact List.mem_append_left _ heard)
  · exact .inr ((kept.ports l).lost (by rw [posted]; exact lost))

theorem State.carriageFails_of_homing {k : HomingStep} (homing : s.car.state = .homing k) (c : CarCause) :
    s.carriageFails c = s.failHoming c := by
  unfold State.carriageFails
  rw [homing]

/-- A homing that fails after a change of the carriage's levels or of its period timer alone (R62, R72). -/
theorem State.carriageFails_failed {k : HomingStep} (homing : s.car.state = .homing k) (c : CarCause) (f : Carriage → Carriage)
    (state : (f s.car).state = s.car.state) (counter : (f s.car).counter = s.car.counter) :
    s.HomingFailed ((s.modifyCar f).carriageFails c).settle c := by
  rw [State.carriageFails_of_homing (s := s.modifyCar f) (state.trans homing)]
  obtain ⟨hstate, hcounter, hhalt, hnotice⟩ := (s.modifyCar f).failHoming_failed c
  have same : (s.modifyCar f).car.counter = s.car.counter := counter
  rw [same] at hcounter hnotice
  exact ⟨hstate, hcounter, hhalt, hnotice⟩

/-- A homing that fails at a count (R76, R77). -/
theorem State.countChange_failed {ch : EncoderChannel} {dt : Nat} {k : HomingStep} {c : CarCause}
    (range : (s.counted ch dt).counterInRange) (homing : s.car.state = .homing k)
    (fails : ∀ d, (s.counted ch dt).countHoming k d = (s.counted ch dt).failHoming c) :
    ∃ t, exec (.countChange ch dt) s = .next t ∧ (s.counted ch dt).HomingFailed t c := by
  refine ⟨_, State.countChange_advance range, ?_⟩
  rw [State.countEffect_of_homing (s.counted ch dt) homing, fails]
  exact State.failHoming_failed _ c

end

/-- Settles O32: each cause fails the homing by `failHoming`, and `State.failHoming_failed` says what that leaves. -/
theorem homingFailureHalts : Obligations.HomingFailureHalts := by
  unfold Obligations.HomingFailureHalts
  intro s k homing
  refine ⟨?_, fun moves => ?_, fun ch dt range seek past => ?_, fun ch dt range settles past => ?_⟩
  · exact ⟨_, rfl, State.carriageFails_failed homing .encoder (fun c => { c with encA := !c.encA, encB := !c.encB }) rfl rfl⟩
  · have driven : s.car.state.driven = true := by
      rw [homing]
      cases k with
      | rest => exact absurd rfl moves
      | clear | seek | settle => rfl
    exact ⟨_, if_pos driven,
      State.carriageFails_failed homing .stall (fun c => { c with periodTimer := standstillTicks }) rfl rfl⟩
  · subst seek
    exact State.countChange_failed range homing fun _ => if_pos past
  · subst settles
    exact State.countChange_failed range homing fun _ => if_pos past

/-! ## The course of a homing (R74, R76, R77) -/

section
variable {s : State}

/-- A count up is one to the right (the table of R61). -/
theorem State.countDir_of_countsUp {ch : EncoderChannel} {dt : Nat} (up : s.countsUp ch = true) :
    (s.advance dt).countDir ch = .right := by
  have delta : (s.countDir ch).delta = 1 := by rw [State.countDir_delta, up]; rfl
  exact Dir.delta_inj.mp delta

theorem State.isStopped_iff : s.drive.isStopped = true ↔ s.drive.state = .stopped := by simp [Drive.isStopped]

theorem State.execHomingRestEnd_eq (rest : s.car.state = .homing .rest) (stopped : s.drive.state = .stopped) :
    exec .homingRestEnd s =
      .next (if s.car.indexHigh then s.atStandstill.setHoming (.clear none) else s.atStandstill.beginSeek) :=
  if_pos ⟨rest, State.isStopped_iff.mpr stopped⟩

theorem Carriage.indexRises_of_edge {c : Carriage} (low : c.indexHigh = false) (armed : c.indexArmed = true) :
    c.indexRises = { c with indexHigh := true, indexArmed := false, counter := 0, state := .homing .settle } :=
  if_pos (by rw [low, armed]; rfl)

theorem Carriage.indexRises_of_other {c : Carriage} (other : c.indexHigh = true ∨ c.indexArmed = false) :
    c.indexRises = { c with indexHigh := true } :=
  if_neg (by obtain h | h := other <;> simp [h])

theorem Carriage.indexFalls_of_clear {c : Carriage} (high : c.indexHigh = true) (clear : c.state = .homing (.clear none)) :
    c.indexFalls = { c with indexHigh := false, state := .homing (.clear (some c.counter)) } := if_pos ⟨high, clear⟩

theorem Carriage.indexFalls_of_other {c : Carriage} (other : c.state ≠ .homing (.clear none)) :
    c.indexFalls = { c with indexHigh := false } := if_neg fun edge => other edge.2

/-- A count in a homing, with what it makes of the carriage (R76, R77). -/
theorem State.countChange_homing {ch : EncoderChannel} {dt : Nat} {k : HomingStep} {t : State}
    (range : (s.counted ch dt).counterInRange) (homing : s.car.state = .homing k)
    (effect : (s.counted ch dt).countHoming k ((s.advance dt).countDir ch) = t) :
    ∃ u, exec (.countChange ch dt) s = .next u ∧ u.car = t.car := by
  refine ⟨_, State.countChange_advance range, ?_⟩
  rw [(State.settle_settling _).car, State.countEffect_of_homing (s.counted ch dt) homing, effect]

/-- The last of the 144 counts of the clear step begins the seek step (R76, log entry 34). -/
theorem State.clearEnds {ch : EncoderChannel} {dt : Nat} {low : Int} (range : (s.counted ch dt).counterInRange)
    (clear : s.car.state = .homing (.clear (some low))) (past : low + 144 ≤ (s.counted ch dt).car.counter) :
    ∃ t, exec (.countChange ch dt) s = .next t ∧ t.car.state = .homing .seek ∧ t.car.counter = 0 ∧
      t.car.indexArmed = true := by
  obtain ⟨t, run, car⟩ := State.countChange_homing (t := (s.counted ch dt).beginSeek) range clear (if_pos past)
  exact ⟨t, run, by rw [car]; exact ⟨rfl, rfl, rfl⟩⟩

/-- A count up onto 0 completes the homing (R77, log entry 34). -/
theorem State.settleEnds {ch : EncoderChannel} {dt : Nat} (settles : s.car.state = .homing .settle) (before : s.car.counter = -1)
    (up : s.countsUp ch = true) :
    ∃ t, exec (.countChange ch dt) s = .next t ∧ t.car.state = .stopped ∧ t.car.counter = 0 := by
  have zero : (s.counted ch dt).car.counter = 0 := by
    rw [State.counted_counter, State.countDir_of_countsUp up, before]
    rfl
  have range : (s.counted ch dt).counterInRange := by
    rw [State.counterInRange, zero]
    decide
  have completes : (s.counted ch dt).countHoming .settle ((s.advance dt).countDir ch) = (s.counted ch dt).completeHoming := by
    have inside : ¬ (s.counted ch dt).car.counter < -144 := by rw [zero]; decide
    exact (if_neg inside).trans (if_pos ⟨zero, State.countDir_of_countsUp up⟩)
  obtain ⟨t, run, car⟩ := State.countChange_homing range settles completes
  exact ⟨t, run, by rw [car]; exact ⟨rfl, zero⟩⟩

end

/-- Settles O33: each step of the homing by the case of its command (`State.execHomingRestEnd_eq`, `Carriage.indexRises_of_edge`
and its companions), and the ends of the clear and the settle step by the effect of a count. -/
theorem homingRunsItsSteps : Obligations.HomingRunsItsSteps := by
  unfold Obligations.HomingRunsItsSteps
  intro s
  have rises (c : Carriage) (h : s.car.indexRises = c) : exec (.indexEdge true) s = .next { s with car := c } := by
    rw [← h]
    rfl
  have falls (c : Carriage) (h : s.car.indexFalls = c) : exec (.indexEdge false) s = .next { s with car := c } := by
    rw [← h]
    rfl
  refine ⟨fun fault stopped => ?automatic, fun rest stopped high => ?clear, fun rest stopped low => ?seek,
    fun low armed => rises _ (Carriage.indexRises_of_edge low armed),
    fun other => rises _ (Carriage.indexRises_of_other other),
    fun high clear => falls _ (Carriage.indexFalls_of_clear high clear),
    fun other => falls _ (Carriage.indexFalls_of_other other),
    fun ch dt low range clear past => State.clearEnds range clear past,
    fun ch dt settles before up => State.settleEnds settles before up⟩
  case automatic => exact if_pos ⟨fault, State.isStopped_iff.mpr stopped⟩
  case clear =>
    rw [State.execHomingRestEnd_eq rest stopped, if_pos high]
    rfl
  case seek =>
    rw [State.execHomingRestEnd_eq rest stopped, if_neg (by rw [low]; exact Bool.false_ne_true)]
    rfl

end Sys2Proof.Machine

namespace Sys2Proof.Machine

/-! ## The entry of a delay timer (R84, R89) -/

section
variable {s : State}

theorem State.fireEntry_of_disable {q : PassPlan} {e : StrikeEntry} {i : Nat}
    (walked : s.lists[s.sequ.list.val] = .striking q) (there : q.entries[i]? = some e) (disable : s.car.enable = false) :
    s.fireEntry i = s.missEntry q.pass e := by
  unfold State.fireEntry
  rw [State.walkedPlan_eq walked]
  dsimp only
  rw [there]
  exact if_neg (by rw [disable]; exact Bool.false_ne_true)

/-- An entry that fires with the enable on, or is missed with it off (R84, R89). -/
theorem State.fireEntry_fired {q : PassPlan} {e : StrikeEntry} {i : Nat} {struck : Pin → Bool}
    (walked : s.lists[s.sequ.list.val] = .striking q) (there : q.entries[i]? = some e)
    (hstruck : struck = fun p => s.car.enable && e.rowMask.getLsbD p.val && s.strikable p) : ∃ w,
    s.Fired (s.fireEntry i) q i e w struck (e.items q.pass ((pinsOf e.rowMask).filter fun p => !struck p)) := by
  cases enable : s.car.enable with
  | false =>
    have none : struck = fun _ => false := by rw [hstruck, enable]; rfl
    have all : (pinsOf e.rowMask).filter (fun p => !struck p) = pinsOf e.rowMask :=
      List.filter_eq_self.mpr fun p _ => by rw [none]; rfl
    rw [State.fireEntry_of_disable walked there enable, State.missEntry_eq, all, none]
    exact ⟨e, .of_missed walked there _⟩
  | true =>
    have hits : struck = fun p => decide (p ∈ pinsOf e.rowMask) && s.strikable p := by
      rw [hstruck, enable]
      funext p
      simp [mem_pinsOf]
    have misses : (pinsOf e.rowMask).filter (fun p => !struck p) = (pinsOf e.rowMask).filter fun p => !s.strikable p :=
      List.filter_congr fun p mem => by simp [hits, mem]
    rw [State.fireEntry_of_enable walked there enable, misses, hits]
    exact State.foldl_firePin (pinsOf_nodup e.rowMask) walked there q.pass e

theorem Sequencer.setTimer_timer (g : Sequencer) (c k : PinColumn) (x : DelayTimer) :
    (g.setTimer c x).timer k = if k = c then x else g.timer k := by
  cases c <;> cases k <;> rfl

theorem Sequencer.setTimer_frame (g : Sequencer) (c : PinColumn) (x : DelayTimer) :
    g.setTimer c x = { g with timerA := (g.setTimer c x).timerA, timerB := (g.setTimer c x).timerB } := by
  cases c <;> rfl

end

/-- Settles O42: what the entry strikes and misses is `State.fireEntry_fired`; its timer then becomes IDLE. -/
theorem delayTimerFiresTheEntry : Obligations.DelayTimerFiresTheEntry := by
  unfold Obligations.DelayTimerFiresTheEntry
  intro s col n i q e struck missed running walked there bound hstruck hmissed
  obtain ⟨w, fired⟩ := State.fireEntry_fired walked there (struck := struck) (by
    funext p
    rw [hstruck, State.strikable]
    simp only [Bool.and_assoc])
  have items : e.items q.pass ((pinsOf e.rowMask).filter fun p => !struck p) = missed := hmissed.symm
  rw [items] at fired
  have run : exec (.delayTimerExpiry col) s = .next ((s.fireEntry i).modifySequ (·.setTimer col .idle)) := by
    show execDelayTimerExpiry col s = _
    unfold execDelayTimerExpiry
    rw [running]
  have sequ : (s.fireEntry i).sequ = s.sequ.offers missed := by rw [fired.frame]
  have idle : ((s.fireEntry i).modifySequ (·.setTimer col .idle)).sequ = (s.sequ.offers missed).setTimer col .idle := by
    rw [← sequ]
    rfl
  refine ⟨_, run, ?frame, ?timer, fun k other => ?others, ?head, fired.channel, fired.heat,
    ⟨w, fired.lists, fired.entry, fired.marks⟩, ?repairs, ?overflow⟩
  case frame =>
    dsimp only [State.modifySequ]
    rw [fired.frame]
  case timer => rw [idle, Sequencer.setTimer_timer, if_pos rfl]
  case others => rw [idle, Sequencer.setTimer_timer, if_neg other, Sequencer.offers_timer]
  case head => rw [idle, Sequencer.setTimer_frame, Sequencer.offers_head]
  case repairs => rw [idle, Sequencer.setTimer_frame, Sequencer.offers_eq bound]
  case overflow =>
    rw [idle, Sequencer.setTimer_frame, Sequencer.offers_eq bound]
    simp

end Sys2Proof.Machine

namespace Sys2Proof.Machine

/-! ## The phases of a strike pulse (R88, R92, R93, R95, R96) -/

section
variable {s : State}

theorem State.judgeDriveEnd_weak {mA : Nat} (weak : mA < 1200) (p : Pin) : s.judgeDriveEnd p mA = s.judgeFault p .weak :=
  if_pos weak

theorem State.judgeDriveEnd_good {mA : Nat} (good : 1200 ≤ mA) (p : Pin) : s.judgeDriveEnd p mA = s.judgeGood p :=
  if_neg (Nat.not_lt.mpr good)

/-- The first or second fault in a row, as the pulse leaves for its next phase (R95). -/
theorem State.judgeFault_of_few {p : Pin} (few : (s.pinRecord p).faults < 2) (x : Channel) (c : PinCause) :
    (s.setChannel p x).judgeFault p c = (s.setChannel p x).setPinRecord p
      { s.pinRecord p with faults := (s.pinRecord p).faults + 1, health := .suspect } :=
  if_neg (Nat.not_le.mpr few)

/-- The third fault in a row (R95, R96). -/
theorem State.judgeFault_of_third {p : Pin} (third : (s.pinRecord p).faults = 2) (x : Channel) (c : PinCause) :
    (s.setChannel p x).judgeFault p c = ((s.setChannel p x).setPinRecord p
      { s.pinRecord p with faults := 3, health := .failed }).postBoth (.pinFailed p c) :=
  if_pos (Nat.le_of_eq third.symm)

theorem execDriveEnd_of_drive {p : Pin} {n mA : Nat} (drive : s.channel p = .drive n false) (inside : mA ≤ 4000) :
    exec (.driveEnd p mA) s = .next ((s.setChannel p (.hold holdTicks)).judgeDriveEnd p mA) := by
  have under : isOvercurrent mA = false := decide_eq_false (Nat.not_lt.mpr inside)
  show execDriveEnd p mA s = _
  unfold execDriveEnd
  rw [drive]
  dsimp only
  rw [under]
  rfl

/-- Both ways in which a strike pulse ends short (R92, log entry 25). -/
theorem exec_of_short {p : Pin} {n : Nat} {cmd : Instr} (drive : s.channel p = .drive n false)
    (short : cmd = .overcurrent p ∨ ∃ mA, 4000 < mA ∧ cmd = .driveEnd p mA) : exec cmd s = .next (s.shortPulse p) := by
  obtain rfl | ⟨mA, high, rfl⟩ := short
  · show execOvercurrent p s = _
    unfold execOvercurrent
    rw [drive]
  · have above : isOvercurrent mA = true := decide_eq_true high
    show execDriveEnd p mA s = _
    unfold execDriveEnd
    rw [drive]
    dsimp only
    rw [above]
    rfl

theorem execHoldEnd_of_hold {p : Pin} {n : Nat} (hold : s.channel p = .hold n) :
    exec (.holdEnd p) s = .next (s.setChannel p (.recovery recoveryTicks)) := by
  show execHoldEnd p s = _
  unfold execHoldEnd
  rw [hold]

theorem execRecoveryEnd_of_recovery {p : Pin} {n : Nat} (recovery : s.channel p = .recovery n) :
    exec (.recoveryEnd p) s = .next (s.setChannel p .ready).testProceed.settle := by
  show execRecoveryEnd p s = _
  unfold execRecoveryEnd
  rw [recovery]

end

/-! ## The course of a coil test (R102 to R109) -/

section
variable {s : State} {c : TestContext} {p : Pin}

theorem State.testAdvance_of_last (last : c.todo = []) :
    s.testAdvance c = ({ s with test := none } : State).completeEntry .console := by
  rw [State.testAdvance, last]
  rfl

theorem State.testAdvance_of_next {q : Pin} {rest : List Pin} (next : c.todo = q :: rest) :
    s.testAdvance c = { s with test := some { c with todo := rest, pin := some q, step := .waiting } } := by
  rw [State.testAdvance, next]
  rfl

/-- The pins left become fewer, until the test is closed (R102). -/
theorem State.testAdvance_todo {d : TestContext} (held : (s.testAdvance c).test = some d) :
    d.todo.length < c.todo.length := by
  cases todo : c.todo with
  | nil =>
    rw [State.testAdvance_of_last todo, State.completeEntry_frame] at held
    cases held
  | cons q rest =>
    rw [State.testAdvance_of_next todo] at held
    cases held
    exact Nat.lt_succ_self _

/-- The state in which the result of a pin has been recorded and posted, with the test context still as it was (R106,
R107). -/
def State.testReport (s : State) (c : TestContext) (p : Pin) (o : CoilOutcome) : State :=
  (({ s with health := s.health.set p.val ((s.pinRecord p).tested o) } : State).post .console (.coilResult c.seq p o c.supply
    ((s.pinRecord p).tested o).health ((s.pinRecord p).tested o).faults c.todo.isEmpty)).postPinFailed p (s.pinRecord p).health o

theorem State.testResult_eq (s : State) (c : TestContext) (p : Pin) (o : CoilOutcome) :
    s.testResult c p o = (s.testReport c p o).testAdvance c := rfl

/-- The state in which the supply reading has been taken: without one, a free value of the model stands for it (R107). -/
def State.supplyTaken (s : State) : State := if s.heat.supply.isNone then s.useFree else s

/-- The test context with the supply reading held when the pin's test begins (R107). -/
def State.withSupply (s : State) (c : TestContext) : TestContext :=
  { c with supply := s.heat.supply.getD (Config.unreadSupply s.freeIndex) }

theorem State.supplyTaken_of_read {x : Nat} (read : s.heat.supply = some x) : s.supplyTaken = s :=
  if_neg (by rw [read]; exact Bool.false_ne_true)

theorem State.withSupply_of_read {x : Nat} (read : s.heat.supply = some x) (c : TestContext) :
    s.withSupply c = { c with supply := x } := by
  rw [State.withSupply, read]
  rfl

/-! ### When the test goes on (R103) -/

theorem State.testGo_of_idle (idle : ∀ c, s.test = some c → c.pin = none ∨ ∃ n, c.step = .pulse n) (n : Nat) :
    s.testGo n = s := by
  cases n with
  | zero => rfl
  | succ n =>
    unfold State.testGo
    split
    · rfl
    · next c held =>
      split
      · next pin step =>
        obtain h | ⟨_, h⟩ := idle c held
        · rw [h] at pin
          cases pin
        · rw [h] at step
          cases step
      · rfl

theorem State.testGo_of_none (none : s.test = none) (n : Nat) : s.testGo n = s :=
  State.testGo_of_idle (fun c held => by rw [none] at held; cases held) n

/-- The test of `c` has the pin `p` in progress, in WAITING (R102). -/
structure State.Waits (s : State) (c : TestContext) (p : Pin) : Prop where
  test : s.test = some c
  pin : c.pin = some p
  step : c.step = .waiting

theorem State.Waits.of_not_idle (busy : ¬ ∀ c, s.test = some c → c.pin = none ∨ ∃ n, c.step = .pulse n) :
    ∃ c p, s.Waits c p := by
  push Not at busy
  obtain ⟨c, test, pin, step⟩ := busy
  obtain ⟨p, pin⟩ := Option.ne_none_iff_exists'.mp pin
  cases waiting : c.step with
  | waiting => exact ⟨c, p, test, pin, waiting⟩
  | pulse n => exact absurd waiting (step n)

theorem State.Waits.testGo_succ (h : s.Waits c p) (n : Nat) : s.testGo (n + 1) =
    if s.channel p = .ready then
      match s.supplyTaken.testBar with
      | some cause => (s.supplyTaken.testResult (s.withSupply c) p (.invalid cause)).testGo n
      | none => s.supplyTaken.testPulse (s.withSupply c) p
    else s := by
  obtain ⟨seq, todo, x, g, supply⟩ := c
  obtain ⟨test, rfl, rfl⟩ := h
  rw [State.testGo, test]
  rfl

theorem State.Waits.testGo_of_busy (h : s.Waits c p) (busy : s.channel p ≠ .ready) (n : Nat) : s.testGo n = s := by
  cases n with
  | zero => rfl
  | succ n => rw [h.testGo_succ, if_neg busy]

theorem State.Waits.testGo_of_free (h : s.Waits c p) (ready : s.channel p = .ready) (free : s.supplyTaken.testBar = none)
    (n : Nat) : s.testGo (n + 1) = s.supplyTaken.testPulse (s.withSupply c) p := by
  rw [h.testGo_succ, if_pos ready, free]

theorem State.Waits.testGo_of_bar {cause : InvalidCause} (h : s.Waits c p) (ready : s.channel p = .ready)
    (bar : s.supplyTaken.testBar = some cause) (n : Nat) :
    s.testGo (n + 1) = (s.supplyTaken.testResult (s.withSupply c) p (.invalid cause)).testGo n := by
  rw [h.testGo_succ, if_pos ready, bar]

/-- Each pin passed over leaves fewer, so that a bound above the pins left is never reached (R102, R103). -/
theorem State.testGo_enough {n : Nat} (few : ∀ c, s.test = some c → c.todo.length < n) : s.testGo (n + 1) = s.testGo n := by
  induction n generalizing s with
  | zero =>
    have none : s.test = none := Option.eq_none_iff_forall_ne_some.mpr fun c held => Nat.not_lt_zero _ (few c held)
    exact State.testGo_of_none none 1
  | succ n ih =>
    by_cases idle : ∀ c, s.test = some c → c.pin = none ∨ ∃ n, c.step = .pulse n
    · rw [State.testGo_of_idle idle, State.testGo_of_idle idle]
    · obtain ⟨c, p, waits⟩ := State.Waits.of_not_idle idle
      by_cases ready : s.channel p = .ready
      · cases bar : s.supplyTaken.testBar with
        | none => rw [waits.testGo_of_free ready bar, waits.testGo_of_free ready bar]
        | some cause =>
          rw [waits.testGo_of_bar ready bar, waits.testGo_of_bar ready bar]
          refine ih fun d held => ?_
          have fewer := State.testAdvance_todo held
          have bound := few c waits.test
          exact Nat.lt_of_lt_of_le fewer (Nat.le_of_lt_succ bound)
      · rw [waits.testGo_of_busy ready, waits.testGo_of_busy ready]

/-! ### A pin whose channel is READY (R103) -/

theorem State.testBar_of_open (gate : s.heat.thermal ≠ .limit) (supply : s.heat.lowSupply = false)
    (stopped : s.car.state = .stopped) : s.testBar = none := by
  simp [State.testBar, gate, supply, stopped]

/-- The first cause that holds, in the order of R103. -/
theorem State.testBar_of_cause {cause : InvalidCause} (first : cause = .limit ∧ s.heat.thermal = .limit ∨
    cause = .supply ∧ s.heat.thermal ≠ .limit ∧ s.heat.lowSupply = true ∨
    cause = .carriage ∧ s.heat.thermal ≠ .limit ∧ s.heat.lowSupply = false ∧ s.car.state ≠ .stopped) :
    s.testBar = some cause := by
  obtain ⟨rfl, limit⟩ | ⟨rfl, gate, low⟩ | ⟨rfl, gate, supply, away⟩ := first
  · simp [State.testBar, limit]
  · simp [State.testBar, gate, low]
  · simp [State.testBar, gate, supply, away]

theorem State.Waits.testProceed_pulses {x : Nat} (h : s.Waits c p) (ready : s.channel p = .ready)
    (gate : s.heat.thermal ≠ .limit) (supply : s.heat.lowSupply = false) (stopped : s.car.state = .stopped)
    (read : s.heat.supply = some x) : s.testProceed = { s with
      channels := s.channels.set p.val (.drive 600 true)
      heat := { s.heat with acc := s.heat.acc.set p.val (min 65535 (s.heatOf p + 60)) }
      test := some { c with step := .pulse 0, supply := x } } := by
  have taken := State.supplyTaken_of_read read
  have free : s.supplyTaken.testBar = none := by rw [taken]; exact State.testBar_of_open gate supply stopped
  rw [State.testProceed, h.testGo_of_free ready free, taken, State.withSupply_of_read read]
  rfl

/-- A pin that a cause bars is INVALID, and the test goes on with a bound above the pins left. -/
theorem State.Waits.testProceed_invalid {x : Nat} {cause : InvalidCause} (h : s.Waits c p) (ready : s.channel p = .ready)
    (read : s.heat.supply = some x) (bar : s.testBar = some cause) :
    s.testProceed = ((s.testReport { c with supply := x } p (.invalid cause)).testAdvance { c with supply := x }).testGo 18 := by
  have taken := State.supplyTaken_of_read read
  rw [State.testProceed, h.testGo_of_bar ready (taken.symm ▸ bar), taken, State.withSupply_of_read read,
    State.testResult_eq]

/-! ### The end of a pulse (R104 to R107, R109) -/

theorem State.testPulseEnd_eq {n : Nat} (test : s.test = some c) (pin : c.pin = some p) (pulse : c.step = .pulse n)
    (o : CoilOutcome) : s.testPulseEnd o =
      (((s.setChannel p (.recovery recoveryTicks)).testReport c p o).testAdvance c).testProceed := by
  rw [State.testPulseEnd, test]
  dsimp only
  rw [pin, pulse]
  rfl

theorem State.testCut_eq {n : Nat} (test : s.test = some c) (pin : c.pin = some p) (pulse : c.step = .pulse n) :
    s.testCut = ((s.testReport c p (.invalid .cut)).testAdvance c).testProceed := by
  rw [State.testCut, test]
  dsimp only
  rw [pin, pulse]
  rfl

/-- After the last pin the test is closed, and nothing goes on. -/
theorem State.testGo_of_last (last : c.todo = []) (n : Nat) :
    (s.testAdvance c).testGo n = ({ s with test := none } : State).completeEntry .console := by
  rw [← State.testAdvance_of_last last]
  refine State.testGo_of_none ?_ n
  rw [State.testAdvance_of_last last, State.completeEntry_frame]

/-- The commands that end a test pulse, with their outcomes (R104). -/
theorem exec_of_pulseEnd {cmd : Instr} {o : CoilOutcome}
    (ends : (∃ t, 1 ≤ t ∧ t ≤ 29 ∧ cmd = .coilRise t ∧ o = .short t) ∨
      (∃ t, 30 ≤ t ∧ t ≤ 599 ∧ cmd = .coilRise t ∧ o = .normal t) ∨ (cmd = .testPulseTimeout ∧ o = .openCoil)) :
    exec cmd s = .next (s.testPulseEnd o).settle := by
  have rise {t : Nat} (ok : riseTimeOk t = true) (h : riseOutcome t = o) :
      exec (.coilRise t) s = .next (s.testPulseEnd o).settle := by
    rw [← h]
    exact if_pos ok
  obtain ⟨t, low, high, rfl, rfl⟩ | ⟨t, low, high, rfl, rfl⟩ | ⟨rfl, rfl⟩ := ends
  · exact rise (by simp [riseTimeOk]; omega) (if_pos high)
  · exact rise (by simp [riseTimeOk]; omega) (if_neg (by omega))
  · rfl

end

/-- Settles O43: each phase by the case of its command; the judgements are `State.judgeFault_of_few`,
`State.judgeFault_of_third` and `State.judgeDriveEnd_good`. -/
theorem pinPulseIsJudged : Obligations.PinPulseIsJudged := by
  unfold Obligations.PinPulseIsJudged
  rintro s p n r rfl
  refine ⟨fun drive => ⟨fun mA weak few => ?few, fun mA weak third => ?third, fun mA good inside => ?good,
    fun cmd short => ⟨fun few => ?shortFew, fun third => ?shortThird⟩⟩, fun hold => ?hold, fun recovery => ?recovery⟩
  case few =>
    rw [execDriveEnd_of_drive drive (by omega), State.judgeDriveEnd_weak weak, State.judgeFault_of_few few]
    rfl
  case third =>
    rw [execDriveEnd_of_drive drive (by omega), State.judgeDriveEnd_weak weak, State.judgeFault_of_third third]
    rfl
  case good =>
    rw [execDriveEnd_of_drive drive inside, State.judgeDriveEnd_good good]
    rfl
  case shortFew =>
    rw [exec_of_short drive short, State.shortPulse, State.judgeFault_of_few few]
    rfl
  case shortThird =>
    rw [exec_of_short drive short, State.shortPulse, State.judgeFault_of_third third]
    rfl
  case hold => exact execHoldEnd_of_hold hold
  case recovery =>
    refine ⟨execRecoveryEnd_of_recovery recovery, fun none => ?_⟩
    have still : (s.setChannel p .ready).testProceed = s.setChannel p .ready :=
      State.testGo_of_none (s := s.setChannel p .ready) none 19
    rw [execRecoveryEnd_of_recovery recovery, still]
    rfl

/-- Settles O44: the end of a pulse by `exec_of_pulseEnd` and `State.testPulseEnd_eq`, a waiting pin by the lemmas of
`State.Waits`, the pins passed over by `State.testGo_enough`, and the cut by `State.testCut_eq`. -/
theorem coilTestPulseDecides : Obligations.CoilTestPulseDecides := by
  unfold Obligations.CoilTestPulseDecides
  refine ⟨fun s u v c p n cmd o r test pin pulse ends hr hu hv => ?ends,
    fun s c p x test pin step ready gate supply stopped read =>
      State.Waits.testProceed_pulses ⟨test, pin, step⟩ ready gate supply stopped read,
    fun s c p test pin step busy => State.Waits.testGo_of_busy ⟨test, pin, step⟩ busy 19,
    fun s idle => State.testGo_of_idle idle 19,
    fun s c p x n test pin step recovery gate supply stopped read => ?recovers,
    fun s u c p x cause test pin step ready read first hu => ?invalid,
    fun s u v c p n test pin pulse hu => ?cut⟩
  case ends =>
    have reported : (s.setChannel p (.recovery recoveryTicks)).testReport c p o = v := by
      rw [hv, hu, hr]
      obtain ⟨t, -, -, -, rfl⟩ | ⟨t, -, -, -, rfl⟩ | ⟨-, rfl⟩ := ends <;> rfl
    rw [exec_of_pulseEnd ends, State.testPulseEnd_eq test pin pulse, reported]
    refine ⟨fun q rest next => by rw [State.testAdvance_of_next next], fun last => ?_⟩
    rw [State.testProceed, State.testGo_of_last last]
  case recovers =>
    have waits : (s.setChannel p .ready).Waits c p := ⟨test, pin, step⟩
    rw [execRecoveryEnd_of_recovery recovery, waits.testProceed_pulses (s.channel_setChannel p .ready) gate supply stopped read]
    simp only [State.setChannel, Vector.set_set]
    rfl
  case invalid =>
    have waits : s.Waits c p := ⟨test, pin, step⟩
    have goes := waits.testProceed_invalid ready read (State.testBar_of_cause first)
    have reported : s.testReport { c with supply := x } p (.invalid cause) = u := hu.symm
    rw [reported] at goes
    refine ⟨fun last => ?last, fun q rest next busy => ?busy, fun q rest next few => ?next⟩
    case last => rw [goes, State.testGo_of_last (c := { c with supply := x }) last]
    case busy =>
      rw [goes, State.testAdvance_of_next (c := { c with supply := x }) next]
      have channel : u.channel q = s.channel q := State.channel_congr (by rw [hu]; rfl) q
      exact State.Waits.testGo_of_busy ⟨rfl, rfl, rfl⟩ (channel ▸ busy) 18
    case next =>
      rw [goes, State.testAdvance_of_next (c := { c with supply := x }) next]
      refine (State.testGo_enough fun d held => ?_).symm
      cases held
      exact Nat.lt_succ_of_le (Nat.le_succ_of_le few)
  case cut =>
    have reported : s.testReport c p (.invalid .cut) = u := hu.symm
    have goes := State.testCut_eq test pin pulse
    rw [reported] at goes
    refine ⟨fun last => ?last, fun q rest next => ?next, fun stopped motion still hv => ?fault⟩
    case last => rw [goes, State.testProceed, State.testGo_of_last last]
    case next => rw [goes, State.testAdvance_of_next next]
    case fault =>
      obtain ⟨t, ht⟩ : ∃ t : State, t = s.modifyCar fun c => { c with encA := !c.encA, encB := !c.encB } := ⟨_, rfl⟩
      have run : exec .illegalTransition s = .next (t.carriageFails .encoder).settle := by rw [ht]; rfl
      have fails : t.carriageFails .encoder = t.enterFault .encoder := by
        rw [State.carriageFails, show t.car.state = .stopped by rw [ht]; exact stopped]
      have stop : t.faultStop = v := by
        rw [State.faultStop_eq, hv, ht]
        simp [still, motion, State.modifyCar]
      have none : t.car.motion = none := by rw [ht]; exact motion
      rw [run, fails, State.enterFault_eq, stop, none, ht]
      simp [State.faultWork, State.modifyCar, stopped, CarState.name]

end Sys2Proof.Machine

namespace Sys2Proof.Machine

/-! ## What leaves the pin channels (R88)

Each operation that neither begins, ends nor cuts a pulse has one lemma here, in the order of the model's files; each
composite cites those of its parts. -/

@[simp] theorem State.channels_ite (c : Prop) [Decidable c] (s t : State) :
    (if c then s else t).channels = if c then s.channels else t.channels := apply_ite State.channels c s t

theorem State.LineOnly.channels {s t : State} (h : s.LineOnly t) : t.channels = s.channels := by rw [h.frame]

theorem State.FormOnly.channels {s t : State} (h : s.FormOnly t) : t.channels = s.channels := by rw [h]

section
variable (s : State) (l : Link)

/-! ### The form and the work of a line -/

@[simp] theorem State.phaseCorrection_channels : s.phaseCorrection.channels = s.channels := by
  rw [State.phaseCorrection_frame]

@[simp] theorem State.judgeBoundary_channels (n : BitVec 16) (d : MoveDir) :
    (s.judgeBoundary n d).channels = s.channels := by
  obtain e | e := s.judgeBoundary_cases n d <;> simp [e]

@[simp] theorem State.changePath_channels (p : PaperPath) : (s.changePath p).channels = s.channels := by
  rw [State.changePath_frame]

@[simp] theorem State.formStep_channels (d : MoveDir) (paper mark : Bool) :
    (s.formStep d paper mark).channels = s.channels := (State.FormOnly.formStep s d paper mark).channels

/-- Each field of SET FORM is present or absent, and a present one changes the map or the form alone (R133). -/
@[simp] theorem State.applySetForm_channels (r : SetFormFields) : (s.applySetForm r).1.channels = s.channels := by
  obtain ⟨length, tof, trim, skip, stops, lock⟩ := r
  cases length <;> cases tof <;> cases trim <;> cases skip <;> cases stops <;> simp [State.applySetForm, State.setLength]

@[simp] theorem State.completeEntry_channels : (s.completeEntry l).channels = s.channels :=
  (s.completeEntry_lineOnly l).channels

@[simp] theorem State.completeLine_channels : s.completeLine.channels = s.channels := s.completeLine_lineOnly.channels

@[simp] theorem State.dropPhases_channels : s.dropPhases.channels = s.channels := s.dropPhases_lineOnly.channels

@[simp] theorem State.loseAll_channels : s.loseAll.channels = s.channels := s.loseAll_lineOnly.channels

@[simp] theorem State.markImperfect_channels : s.markImperfect.channels = s.channels := s.markImperfect_lineOnly.channels

@[simp] theorem State.abandonPass_channels : s.abandonPass.channels = s.channels := s.abandonPass_lineOnly.channels

@[simp] theorem State.planOdd_channels (p : PassId) (x : Int) : (s.planOdd p x).channels = s.channels := by
  have plan := (s.planPass_lineOnly p x).channels
  unfold State.planOdd
  split
  all_goals
    next e => rw [e] at plan; simpa using plan

@[simp] theorem State.lineMoveDone_channels : s.lineMoveDone.channels = s.channels := by
  unfold State.lineMoveDone
  split
  · rfl
  split <;> simp

@[simp] theorem State.lineJammed_channels : s.lineJammed.channels = s.channels := by
  unfold State.lineJammed
  split <;> simp

@[simp] theorem State.lineTail_channels : s.lineTail.channels = s.channels := by simp [State.lineTail]

@[simp] theorem State.takeUpLine_channels : s.takeUpLine.channels = s.channels := by
  obtain ⟨e, -⟩ | ⟨_, -, -, -, e⟩ := s.takeUpLine_cases <;> simp [e]

@[simp] theorem State.cancelLine_channels : s.cancelLine.channels = s.channels := by
  unfold State.cancelLine
  split
  · rfl
  · dsimp only
    split <;> simp

@[simp] theorem State.openLine_channels (f : LineFields) : (s.openLine l f).channels = s.channels := by
  simp [State.openLine]

/-! ### The walk of the Sequencer, but for its strikes -/

@[simp] theorem State.missEntry_channels (a : PassId) (e : StrikeEntry) : (s.missEntry a e).channels = s.channels := by
  rw [State.missEntry_frame]

@[simp] theorem State.walkReset_channels : s.walkReset.channels = s.channels := by simp [State.walkReset]

@[simp] theorem State.walkStart_channels : s.walkStart.channels = s.channels := by
  unfold State.walkStart
  split
  · rfl
  split <;> rfl

@[simp] theorem State.endTimer_channels (c : PinColumn) : (s.endTimer c).channels = s.channels := by
  unfold State.endTimer
  split
  · dsimp only
    split <;> simp
  · rfl

@[simp] theorem State.walkEnd_channels : s.walkEnd.channels = s.channels := by
  unfold State.walkEnd
  dsimp only
  split <;> simp [State.foldl_missEntry]

@[simp] theorem State.judgeFault_channels (p : Pin) (c : PinCause) : (s.judgeFault p c).channels = s.channels := by
  simp [State.judgeFault]

@[simp] theorem State.judgeGood_channels (p : Pin) : (s.judgeGood p).channels = s.channels := rfl

/-! ### The results of a coil test -/

@[simp] theorem State.postPinFailed_channels (p : Pin) (h : Health) (o : CoilOutcome) :
    (s.postPinFailed p h o).channels = s.channels := by
  unfold State.postPinFailed
  split <;> simp

@[simp] theorem State.testAdvance_channels (c : TestContext) : (s.testAdvance c).channels = s.channels := by
  unfold State.testAdvance
  split <;> simp

@[simp] theorem State.testResult_channels (c : TestContext) (p : Pin) (o : CoilOutcome) :
    (s.testResult c p o).channels = s.channels := by simp [State.testResult]

@[simp] theorem State.resetTest_channels : s.resetTest.channels = s.channels := by
  unfold State.resetTest
  split
  · rfl
  split <;> rfl

/-! ### Paper motion -/

@[simp] theorem State.completeRun_channels (r : MotionRun) (o : MoveOutcome) (x : Option NotMadeReason) :
    (s.completeRun r o x).channels = s.channels := by simp [State.completeRun]

@[simp] theorem State.runMove_channels (r : MotionRun) (k : MoveKind) : (s.runMove r k).channels = s.channels := rfl

@[simp] theorem State.judgeRun_channels (r : MotionRun) : (s.judgeRun r).channels = s.channels := by
  unfold State.judgeRun
  dsimp only
  split <;> simp

@[simp] theorem State.startRun_channels (n : SeqNo) (k : MotionKind) : (s.startRun l n k).channels = s.channels := by
  simp [State.startRun]

@[simp] theorem State.runNext_channels (r : MotionRun) (k : MoveKind) : (s.runNext r k).channels = s.channels := by
  unfold State.runNext
  split <;> simp

@[simp] theorem State.runMoveEnded_channels (m : MoveContext) (e : MoveEnd) :
    (s.runMoveEnded m e).channels = s.channels := by
  unfold State.runMoveEnded
  split
  · rfl
  · cases e <;> simp

@[simp] theorem State.settleMove_channels (k : MoveKind) (e : MoveEnd) : (s.settleMove k e).channels = s.channels := by
  unfold State.settleMove
  split <;> rfl

@[simp] theorem State.haltMove_channels (e : MoveEnd) : (s.haltMove e).channels = s.channels := by cases e <;> rfl

@[simp] theorem State.endMove_channels (e : MoveEnd) : (s.endMove e).channels = s.channels := by
  unfold State.endMove
  split
  · rfl
  · dsimp only
    split <;> split <;> split <;> simp

@[simp] theorem State.prepareMove_channels (k : MoveKind) : (s.prepareMove k).channels = s.channels := by
  cases k with
  | load =>
    unfold State.prepareMove
    dsimp only
    split <;> rfl
  | _ => rfl

@[simp] theorem State.beginMove_channels (d : DueMove) : (s.beginMove d).channels = s.channels := by
  simp [State.beginMove]

@[simp] theorem State.tearBy_channels (k : MoveKind) (n : Int) : (s.tearBy k n).channels = s.channels := by
  simp [State.tearBy]

@[simp] theorem State.stallMove_channels (m : MoveContext) : (s.stallMove m).channels = s.channels := by
  simp [State.stallMove]

@[simp] theorem State.stepMove_channels (m : MoveContext) (paper mark : Bool) :
    (s.stepMove m paper mark).channels = s.channels := by simp [State.stepMove]

@[simp] theorem State.backoffStep_channels (m : MoveContext) (n : Nat) (paper : Bool) :
    (s.backoffStep m n paper).channels = s.channels := by simp [State.backoffStep]

@[simp] theorem State.resetDrive_channels : s.resetDrive.channels = s.channels := by
  unfold State.resetDrive
  dsimp only
  split <;> simp

/-! ### The Line Store, the Arbiter, the heat and the tally units -/

@[simp] theorem State.accept_channels (r : Record) (n : Nat) (st : EntryState) :
    (s.accept l r n st).channels = s.channels := by rw [State.accept_frame]

@[simp] theorem State.judgeTimers_channels : s.judgeTimers.channels = s.channels := by rw [State.judgeTimers_frame]

@[simp] theorem State.askTear_channels : s.askTear.channels = s.channels := by simp [State.askTear]

@[simp] theorem State.rejudgeThermal_channels : s.rejudgeThermal.channels = s.channels := by simp [State.rejudgeThermal]

@[simp] theorem State.judgeHeat_channels : s.judgeHeat.channels = s.channels := by simp [State.judgeHeat]

@[simp] theorem State.decay_channels : s.decay.channels = s.channels := rfl

@[simp] theorem State.takeTemperature_channels (t : Int) : (s.takeTemperature t).channels = s.channels := by
  simp [State.takeTemperature]

@[simp] theorem State.takeSupply_channels (v : Nat) : (s.takeSupply v).channels = s.channels := by
  simp [State.takeSupply]

@[simp] theorem State.release_channels (u : Fin 2) (x : ReleaseSource) : (s.release u x).channels = s.channels := by
  unfold State.release
  split <;> simp

@[simp] theorem State.latchRelease_channels (u : Fin 2) : (s.latchRelease u).channels = s.channels := by
  simp [State.latchRelease]

@[simp] theorem State.qualifiedEdge_channels (u : Fin 2) : (s.qualifiedEdge u).channels = s.channels := by
  unfold State.qualifiedEdge
  dsimp only
  split <;> simp

/-! ### The carriage -/

@[simp] theorem State.failHoming_channels (c : CarCause) : (s.failHoming c).channels = s.channels := rfl

@[simp] theorem State.startHoming_channels : s.startHoming.channels = s.channels := rfl

@[simp] theorem State.startPass_channels : s.startPass.channels = s.channels := by
  unfold State.startPass
  dsimp only
  split <;> simp

@[simp] theorem State.countPositioning_channels (m : CarMotion) (o : Int) (d : Dir) :
    (s.countPositioning m o d).channels = s.channels := by simp [State.countPositioning]

@[simp] theorem State.countHoming_channels (k : HomingStep) (d : Dir) : (s.countHoming k d).channels = s.channels := by
  unfold State.countHoming
  split <;> simp [State.beginSeek, State.completeHoming]

@[simp] theorem State.finishPass_channels : s.finishPass.channels = s.channels := by
  simp [State.finishPass, (State.endPass_lineOnly _).channels]

@[simp] theorem State.takeCount_channels (ch : EncoderChannel) (d : Dir) : (s.takeCount ch d).channels = s.channels := by
  unfold State.takeCount State.countCounter
  dsimp only
  split <;> rfl

@[simp] theorem State.launch_channels (q : PassPlan) : (s.launch q).channels = s.channels := by
  unfold State.launch
  dsimp only
  split <;> simp

@[simp] theorem State.recordDir_channels (p : PassId) (d : Dir) : (s.recordDir p d).channels = s.channels := by
  cases p <;> rfl

@[simp] theorem State.giveStart_channels (p : PassId) (i : Fin 2) (q : PassPlan) :
    (s.giveStart p i q).channels = s.channels := by
  unfold State.giveStart
  dsimp only
  split <;> simp

/-! ### Requests -/

@[simp] theorem State.acceptLatch_channels (x : LineFields) : (s.acceptLatch x).channels = s.channels := by
  unfold State.acceptLatch
  split <;> simp

@[simp] theorem State.cancelGranted_channels : (s.cancelGranted l).channels = s.channels := by
  unfold State.cancelGranted
  split <;> simp

@[simp] theorem State.clearJam_channels : s.clearJam.channels = s.channels := by
  unfold State.clearJam
  split <;> simp

@[simp] theorem State.leaveJam_channels : s.leaveJam.channels = s.channels := by simp [State.leaveJam]

@[simp] theorem State.requestHoming_channels : s.requestHoming.channels = s.channels := by simp [State.requestHoming]

@[simp] theorem State.leaveCarriage_channels : s.leaveCarriage.channels = s.channels := by simp [State.leaveCarriage]

@[simp] theorem State.linkReset_channels : (s.linkReset l).channels = s.channels := by simp [State.linkReset]

/-- An engine reset cuts every pulse (R91, R164). -/
@[simp] theorem State.engineReset_channels : s.engineReset.channels = s.channels.map Channel.cut := by
  simp [State.engineReset, State.resetTally, State.purgeAll, State.resetForm, State.resetPlanner, State.resetArbiter]

end

end Sys2Proof.Machine

namespace Sys2Proof.Machine

/-! ## Pulses that go on, and strikes that begin (R88, R89) -/

/-- From `s` to `t` no strike pulse begins, and none in DRIVE gains time. -/
def State.NoStrike (s t : State) : Prop := ∀ p n, t.channel p = .drive n false → ∃ m, n ≤ m ∧ s.channel p = .drive m false

/-- From `s` to `t` no channel changes but for strikes of pins that are not FAILED and whose channels are READY; the pin
records stay. -/
structure State.StrikesReady (s t : State) : Prop where
  health : t.health = s.health
  channel : ∀ p, t.channel p = s.channel p ∨
    s.channel p = .ready ∧ s.isFailed p = false ∧ ∃ n, t.channel p = .drive n false

/-- What the obligation asks of an event: a strike pulse in `t` is one of `s` that has gained no time, or has begun from READY
for a pin that was not FAILED. -/
def State.StrikesSoundly (s t : State) : Prop := ∀ p n, t.channel p = .drive n false →
  (∃ m, n ≤ m ∧ s.channel p = .drive m false) ∨ (s.channel p = .ready ∧ (s.pinRecord p).health ≠ .failed)

section
variable {s t u : State}

theorem State.NoStrike.of_channels (same : t.channels = s.channels) : s.NoStrike t := fun p n strikes =>
  ⟨n, Nat.le_refl n, State.channel_congr same p ▸ strikes⟩

theorem State.NoStrike.refl (s : State) : s.NoStrike s := .of_channels rfl

theorem State.NoStrike.trans (a : s.NoStrike t) (b : t.NoStrike u) : s.NoStrike u := fun p n strikes => by
  obtain ⟨m, at_u, held⟩ := b p n strikes
  obtain ⟨k, at_t, began⟩ := a p m held
  exact ⟨k, Nat.le_trans at_u at_t, began⟩

theorem State.NoStrike.ite {p : Prop} [Decidable p] (a : s.NoStrike t) (b : s.NoStrike u) :
    s.NoStrike (if p then t else u) := by
  split
  · exact a
  · exact b

/-- Channels that are all cut (R91). -/
theorem State.NoStrike.of_cut (cut : t.channels = s.channels.map Channel.cut) : s.NoStrike t := fun p n strikes => by
  rw [State.channel_congr (s := s.cutAll) cut, State.channel_cutAll] at strikes
  exact absurd strikes (Channel.cut_ne_drive _ _ _)

theorem State.setChannel_noStrike (s : State) (p : Pin) {c : Channel} (other : ∀ n, c ≠ .drive n false) :
    s.NoStrike (s.setChannel p c) := fun q n strikes => by
  by_cases same : q = p
  · rw [same, State.channel_setChannel] at strikes
    exact absurd strikes (other n)
  · rw [State.channel_setChannel_other _ _ same] at strikes
    exact ⟨n, Nat.le_refl n, strikes⟩

theorem State.StrikesReady.of_channels (channels : t.channels = s.channels) (health : t.health = s.health) :
    s.StrikesReady t := ⟨health, fun p => .inl (State.channel_congr channels p)⟩

theorem State.StrikesReady.refl (s : State) : s.StrikesReady s := .of_channels rfl rfl

/-- A pin struck in the first part is no longer READY in the second (R89). -/
theorem State.StrikesReady.trans (a : s.StrikesReady t) (b : t.StrikesReady u) : s.StrikesReady u where
  health := b.health.trans a.health
  channel p := by
    have failed : t.isFailed p = s.isFailed p := State.isFailed_congr a.health p
    obtain first | ⟨ready, sound, n, struck⟩ := a.channel p
    · rw [← first, ← failed]
      exact b.channel p
    · obtain second | ⟨again, -⟩ := b.channel p
      · exact .inr ⟨ready, sound, n, second.trans struck⟩
      · rw [struck] at again
        cases again

theorem State.StrikesReady.ite {p : Prop} [Decidable p] (a : s.StrikesReady t) (b : s.StrikesReady u) :
    s.StrikesReady (if p then t else u) := by
  split
  · exact a
  · exact b

theorem State.StrikesReady.foldl {α : Type} {f : State → α → State} (h : ∀ (s : State) (a : α), s.StrikesReady (f s a))
    (xs : List α) (s : State) : s.StrikesReady (xs.foldl f s) := by
  induction xs generalizing s with
  | nil => exact .refl s
  | cons x xs ih => exact (h s x).trans (ih _)

theorem State.NoStrike.soundly (h : s.NoStrike t) : s.StrikesSoundly t := fun p n strikes => .inl (h p n strikes)

theorem State.StrikesReady.soundly (h : s.StrikesReady t) : s.StrikesSoundly t := fun p n strikes => by
  obtain same | ⟨ready, sound, -⟩ := h.channel p
  · exact .inl ⟨n, Nat.le_refl n, same ▸ strikes⟩
  · exact .inr ⟨ready, fun failed => by rw [(s.isFailed_iff p).mpr failed] at sound; cases sound⟩

theorem State.StrikesSoundly.trans_noStrike (a : s.StrikesSoundly t) (b : t.NoStrike u) : s.StrikesSoundly u :=
  fun p n strikes => by
    obtain ⟨m, gained, held⟩ := b p n strikes
    obtain ⟨k, more, began⟩ | fresh := a p m held
    · exact .inl ⟨k, Nat.le_trans gained more, began⟩
    · exact .inr fresh

/-- What leaves the channels and the pin records, before strikes. -/
theorem State.StrikesSoundly.after (channels : t.channels = s.channels) (health : t.health = s.health)
    (h : t.StrikesSoundly u) : s.StrikesSoundly u := fun p n strikes => by
  rw [← State.channel_congr channels p, ← State.pinRecord_congr health p]
  exact h p n strikes

/-- A strike in DRIVE runs on in the ticks before an event, and a channel that is READY there was READY before (R88). -/
theorem State.StrikesSoundly.advance {k : Nat} (h : (s.advance k).StrikesSoundly t) : s.StrikesSoundly t :=
  fun p n strikes => by
    have aged := State.advance_channel s k p
    obtain ⟨m, more, held⟩ | ⟨ready, sound⟩ := h p n strikes
    · rw [aged] at held
      cases channel : s.channel p with
      | drive left test =>
        rw [channel] at held
        cases held
        exact .inl ⟨left, Nat.le_trans more (Nat.sub_le _ _), rfl⟩
      | ready | hold left | recovery left =>
        rw [channel] at held
        cases held
    · rw [aged] at ready
      cases channel : s.channel p with
      | ready => exact .inr ⟨rfl, sound⟩
      | drive left test | hold left | recovery left =>
        rw [channel] at ready
        cases ready

end

/-! ### Coil tests, grants and what an event brings with it: no strike begins -/

section
variable (s : State)

/-- A test pulse is no strike (R105). -/
theorem State.testPulse_noStrike (c : TestContext) (p : Pin) : s.NoStrike (s.testPulse c p) :=
  (s.setChannel_noStrike p (c := .drive 600 true) fun _ => by simp).trans (.of_channels rfl)

theorem State.testGo_noStrike (fuel : Nat) : s.NoStrike (s.testGo fuel) := by
  induction fuel generalizing s with
  | zero => exact .refl s
  | succ fuel ih =>
    by_cases idle : ∀ c, s.test = some c → c.pin = none ∨ ∃ n, c.step = .pulse n
    · rw [State.testGo_of_idle idle]
      exact .refl s
    · obtain ⟨c, p, waits⟩ := State.Waits.of_not_idle idle
      have taken : s.NoStrike s.supplyTaken := .ite (.of_channels rfl) (.refl s)
      by_cases ready : s.channel p = .ready
      · cases bar : s.supplyTaken.testBar with
        | none =>
          rw [waits.testGo_of_free ready bar]
          exact taken.trans (State.testPulse_noStrike _ _ _)
        | some cause =>
          rw [waits.testGo_of_bar ready bar]
          exact (taken.trans (.of_channels (State.testResult_channels _ _ _ _))).trans (ih _)
      · rw [waits.testGo_of_busy ready]
        exact .refl s

theorem State.testProceed_noStrike : s.NoStrike s.testProceed := s.testGo_noStrike 19

theorem State.openTest_noStrike (n : SeqNo) (x : Option Pin) : s.NoStrike (s.openTest n x) :=
  .trans (.of_channels (s.testAdvance_channels _)) (State.testProceed_noStrike _)

theorem State.testCut_noStrike : s.NoStrike s.testCut := by
  unfold State.testCut
  split
  · split
    · exact .trans (.of_channels (s.testResult_channels _ _ _)) (State.testProceed_noStrike _)
    · exact .refl s
  · exact .refl s

theorem State.testPulseEnd_noStrike (o : CoilOutcome) : s.NoStrike (s.testPulseEnd o) := by
  unfold State.testPulseEnd
  split
  · split
    · exact ((s.setChannel_noStrike _ fun _ => Channel.noConfusion).trans
        (.of_channels (State.testResult_channels _ _ _ _))).trans (State.testProceed_noStrike _)
    · exact .refl s
  · exact .refl s

theorem State.grant_noStrike (l : Link) (e : Entry) : s.NoStrike (s.grant l e) := by
  unfold State.grant
  dsimp only
  split
  · exact .of_channels (by simp)
  · exact .trans (.of_channels rfl) (State.openTest_noStrike _ _ _)
  · exact .of_channels (by simp)
  · exact .of_channels (by simp)

theorem State.judgeHead_noStrike (l : Link) : s.NoStrike (s.judgeHead l) := by
  obtain ⟨-, e⟩ | ⟨_, -, -, e⟩ | ⟨_, -, -, e⟩ | ⟨_, -, -, e⟩ := s.judgeHead_cases l <;> rw [e]
  · exact .refl s
  · exact s.grant_noStrike _ _
  · exact .of_channels rfl
  · exact .of_channels rfl

theorem State.settle_noStrike : s.NoStrike s.settle := by
  refine State.settle_rel State.NoStrike State.NoStrike.refl State.NoStrike.trans (fun {s t} once => ?_)
    (fun s => .of_channels s.judgeTimers_channels) s
  obtain ⟨p, -, rfl⟩ | ⟨e, -, -, rfl⟩ | ⟨l, -, -, -, -, rfl⟩ := State.settleOnce_cases once
  · exact .of_channels (s.planNow_lineOnly p).channels
  · exact s.grant_noStrike _ _
  · exact s.judgeHead_noStrike _

variable {s} in
/-- An operation that leaves the channels, with what its event brings. -/
theorem State.NoStrike.settle {t : State} (same : t.channels = s.channels) : s.NoStrike t.settle :=
  .trans (.of_channels same) t.settle_noStrike

theorem State.judgeGates_noStrike : s.NoStrike s.judgeGates := .ite s.settle_noStrike (.refl s)

/-! ### Faults and resets: pulses are cut -/

theorem State.enterFault_noStrike (c : CarCause) : s.NoStrike (s.enterFault c) := by
  have stopped : s.NoStrike s.faultStop := .of_cut (by rw [State.faultStop_eq])
  have work (t : State) (moving : Bool) : t.NoStrike (t.faultWork moving) :=
    .ite (t.testCut_noStrike.trans (.of_channels (State.abandonPass_channels _))) t.testCut_noStrike
  rw [State.enterFault_eq]
  exact (stopped.trans (work _ _)).trans (.of_channels rfl)

theorem State.carriageFails_noStrike (c : CarCause) : s.NoStrike (s.carriageFails c) := by
  unfold State.carriageFails
  split
  · exact .of_channels rfl
  iterate 4 exact s.enterFault_noStrike c
  iterate 2 exact .refl s

theorem State.powerOnReset_noStrike (pins : PowerOnPins) : s.NoStrike (s.powerOnReset pins) := fun p n strikes => by
  have ready : (s.powerOnReset pins).channel p = .ready := by simp [State.channel, State.powerOnReset, State.powerOn]
  rw [ready] at strikes
  cases strikes

/-! ### The work of the Sequencer: strikes begin from READY (R84, R89) -/

theorem State.missEntry_strikesReady (a : PassId) (e : StrikeEntry) : s.StrikesReady (s.missEntry a e) :=
  .of_channels (s.missEntry_channels a e) (by rw [State.missEntry_frame])

theorem State.firePin_strikesReady (a : PassId) (i : Nat) (e : StrikeEntry) (p : Pin) :
    s.StrikesReady (s.firePin a i e p) := by
  obtain ⟨sound, ready, h⟩ | ⟨-, h⟩ := s.firePin_cases a i e p <;> rw [h]
  · rw [State.markStruck_frame]
    refine ⟨rfl, fun q => ?_⟩
    by_cases same : q = p
    · rw [same]
      exact .inr ⟨ready, sound, _, s.channel_setChannel p _⟩
    · exact .inl (s.channel_setChannel_other _ same)
  · exact .of_channels rfl rfl

theorem State.fireEntry_strikesReady (i : Nat) : s.StrikesReady (s.fireEntry i) := by
  unfold State.fireEntry
  split
  · exact .refl s
  · split
    · exact .refl s
    · exact .ite (.foldl (fun t p => t.firePin_strikesReady _ i _ p) _ s) (s.missEntry_strikesReady _ _)

theorem State.armEntry_strikesReady (a : PassId) (i : Nat) (e : StrikeEntry) : s.StrikesReady (s.armEntry a i e) := by
  unfold State.armEntry
  split
  · exact s.missEntry_strikesReady _ _
  · exact .ite (s.fireEntry_strikesReady _) (.of_channels rfl rfl)

theorem State.reachHead_strikesReady (y : Int) : s.StrikesReady (s.reachHead y) := by
  have past : s.StrikesReady (s.modifySequ fun q => { q with head := q.head + 1 }) := .of_channels rfl rfl
  unfold State.reachHead
  split
  · exact .refl s
  · split
    · exact .refl s
    · exact .ite (.ite (past.trans (State.armEntry_strikesReady _ _ _ _))
        (past.trans (State.missEntry_strikesReady _ _ _))) (.refl s)

theorem State.sequCount_strikesReady (d : Dir) (y : Int) : s.StrikesReady (s.sequCount d y) :=
  .ite ((s.reachHead_strikesReady y).trans (State.reachHead_strikesReady _ y)) (.refl s)

/-! ### One count (R66, R68, R72, R82) -/

theorem State.countPass_strikesSoundly (m : CarMotion) (d : Dir) : s.StrikesSoundly (s.countPass m d) := by
  have passed : s.StrikesReady { s with car := s.car.passed m d } := .of_channels rfl rfl
  have walked := passed.trans (State.sequCount_strikesReady _ d s.car.counter)
  exact walked.soundly.trans_noStrike (.ite (.of_channels (State.finishPass_channels _)) (.refl _))

theorem State.countTrusted_strikesSoundly (d : Dir) : s.StrikesSoundly (s.countTrusted d) := by
  unfold State.countTrusted
  split
  · exact (s.enterFault_noStrike _).soundly
  · split
    · exact (State.NoStrike.refl s).soundly
    · split
      · exact (State.NoStrike.of_channels (s.countPositioning_channels _ _ d)).soundly
      · exact s.countPass_strikesSoundly _ d

theorem State.countEffect_strikesSoundly (d : Dir) : s.StrikesSoundly (s.countEffect d) := by
  unfold State.countEffect
  split
  iterate 2 exact (State.NoStrike.refl s).soundly
  · exact (State.NoStrike.of_channels (s.countHoming_channels _ d)).soundly
  iterate 4 exact s.countTrusted_strikesSoundly d

theorem State.countChange_strikesSoundly (ch : EncoderChannel) : s.StrikesSoundly (s.countChange ch) := by
  have health : (s.takeCount ch (s.countDir ch)).health = s.health := by
    unfold State.takeCount State.countCounter
    dsimp only
    split <;> rfl
  exact .after (s.takeCount_channels ch _) health
    ((State.countEffect_strikesSoundly _ _).trans_noStrike (State.settle_noStrike _))

/-! ### Requests -/

section
variable (l : Link) (f : Frame)

theorem State.takePutLine_noStrike : s.NoStrike (s.takePutLine l f) := by
  unfold State.takePutLine
  split
  · exact .of_channels rfl
  · exact .ite (.settle (by simp)) (.of_channels rfl)

theorem State.takePutMotion_noStrike : s.NoStrike (s.takePutMotion l f) := by
  refine .ite (.of_channels rfl) ?_
  split
  · exact .of_channels rfl
  · exact .ite (.settle (by simp)) (.of_channels rfl)

theorem State.takeSetForm_noStrike : s.NoStrike (s.takeSetForm l f) :=
  .of_channels (by simp [State.takeSetForm])

theorem State.takeSetHead_noStrike : s.NoStrike (s.takeSetHead l f) :=
  .of_channels (by simp [State.takeSetHead])

theorem State.takeCancel_noStrike : s.NoStrike (s.takeCancel l f) := .settle (by simp)

theorem State.takeTallySet_noStrike : s.NoStrike (s.takeTallySet l f) := .settle (by simp [State.respondTally])

theorem State.takeTallyMask_noStrike : s.NoStrike (s.takeTallyMask l f) := .settle (by simp [State.respondTally])

theorem State.takeClear_noStrike : s.NoStrike (s.takeClear l f) := .ite (.of_channels rfl) (.settle (by simp))

theorem State.takeEngineReset_noStrike : s.NoStrike (s.takeEngineReset l f) :=
  .ite (.of_channels rfl) (.of_cut (by simp))

theorem State.takeLinkReset_noStrike : s.NoStrike (s.takeLinkReset l f) := .settle (by simp)

theorem State.takeRequest_noStrike : s.NoStrike (s.takeRequest l f) := by
  unfold State.takeRequest
  cases f.kind with
  | noOp | readState | readPosition | takeNotice | tallyArm | tallyClear => exact .of_channels rfl
  | putLine => exact s.takePutLine_noStrike l f
  | putMotion => exact s.takePutMotion_noStrike l f
  | setForm => exact s.takeSetForm_noStrike l f
  | setHead => exact s.takeSetHead_noStrike l f
  | cancel => exact s.takeCancel_noStrike l f
  | tallySet => exact s.takeTallySet_noStrike l f
  | tallyMask => exact s.takeTallyMask_noStrike l f
  | clear => exact s.takeClear_noStrike l f
  | engineReset => exact s.takeEngineReset_noStrike l f
  | linkReset => exact s.takeLinkReset_noStrike l f

theorem State.byteArrives_noStrike (b : Byte) : s.NoStrike (s.byteArrives l b) := by
  have heard : s.NoStrike (s.receive l (rxByte (s.port.get l).rx b).rx 1) := .of_channels rfl
  refine .ite ?_ (.refl s)
  split
  · exact heard.trans (State.takeRequest_noStrike _ l _)
  · exact heard

end

/-! ### The commands -/

/-- Every next state of an outcome has struck soundly. -/
def strikesThrough (s : State) (o : Host.Outcome State Fault Refusal) : Prop := ∀ t, o = .next t → s.StrikesSoundly t

section
variable {s} {t : State}

theorem State.StrikesSoundly.through (h : s.StrikesSoundly t) : strikesThrough s (.next t) := fun _ e => by
  cases e
  exact h

theorem State.NoStrike.through (h : s.NoStrike t) : strikesThrough s (.next t) := h.soundly.through

theorem strikesThrough_of_channels (same : t.channels = s.channels) : strikesThrough s (.next t) :=
  (State.NoStrike.of_channels same).through

/-- A command that does something under a condition, and else leaves the state. -/
theorem strikesThrough_ite {p : Prop} [Decidable p] (h : s.NoStrike t) :
    strikesThrough s (if p then .next t else .next s) := by
  split
  · exact h.through
  · exact (State.NoStrike.refl s).through

end

theorem request_strikesThrough (k : ReqKind) (l : Link) (bytes : List Byte) {take : State → Link → Frame → State}
    (h : ∀ t f, State.NoStrike t (take t l f)) : strikesThrough s (.next (s.request k l bytes take)) := by
  refine State.NoStrike.through ?_
  obtain ⟨f, -, -, e⟩ | ⟨-, e⟩ := s.request_cases k l bytes take <;> rw [e]
  · exact .trans (.of_channels rfl) (h _ f)
  · exact .refl s

theorem execCarriageStart_strikesThrough : strikesThrough s (execCarriageStart s) := by
  unfold execCarriageStart
  split
  · split
    · exact strikesThrough_of_channels (s.giveStart_channels _ _ _)
    · exact strikesThrough_of_channels rfl
  · exact strikesThrough_of_channels rfl

theorem execDelayTimerExpiry_strikesThrough (col : PinColumn) : strikesThrough s (execDelayTimerExpiry col s) := by
  unfold execDelayTimerExpiry
  split
  · next n i running =>
    have idle (t : State) : t.StrikesReady (t.modifySequ (·.setTimer col .idle)) := .of_channels rfl rfl
    exact ((s.fireEntry_strikesReady i).trans (idle _)).soundly.through
  · exact strikesThrough_of_channels rfl

theorem State.shortPulse_noStrike (p : Pin) : s.NoStrike (s.shortPulse p) :=
  (s.setChannel_noStrike p fun _ => Channel.noConfusion).trans (.of_channels (State.judgeFault_channels _ _ _))

theorem execDriveEnd_strikesThrough (p : Pin) (mA : Nat) : strikesThrough s (execDriveEnd p mA s) := by
  have judged (t : State) : t.NoStrike (t.judgeDriveEnd p mA) :=
    .ite (.of_channels (t.judgeFault_channels p .weak)) (.of_channels (t.judgeGood_channels p))
  unfold execDriveEnd
  split
  · split
    · exact (s.shortPulse_noStrike p).through
    · exact ((s.setChannel_noStrike p fun _ => Channel.noConfusion).trans (judged _)).through
  · exact strikesThrough_of_channels rfl

theorem execOvercurrent_strikesThrough (p : Pin) : strikesThrough s (execOvercurrent p s) := by
  unfold execOvercurrent
  split
  · exact (s.shortPulse_noStrike p).through
  · exact strikesThrough_of_channels rfl

theorem execHoldEnd_strikesThrough (p : Pin) : strikesThrough s (execHoldEnd p s) := by
  unfold execHoldEnd
  split
  · exact (s.setChannel_noStrike p fun _ => Channel.noConfusion).through
  · exact strikesThrough_of_channels rfl

theorem execRecoveryEnd_strikesThrough (p : Pin) : strikesThrough s (execRecoveryEnd p s) := by
  unfold execRecoveryEnd
  split
  · exact (((s.setChannel_noStrike p fun _ => Channel.noConfusion).trans (State.testProceed_noStrike _)).trans
      (State.settle_noStrike _)).through
  · exact strikesThrough_of_channels rfl

theorem execMoveStart_strikesThrough (paper : Bool) : strikesThrough s (execMoveStart paper s) := by
  unfold execMoveStart
  split
  · exact (State.NoStrike.settle (by simp)).through
  · exact strikesThrough_of_channels rfl

theorem execStep_strikesThrough (paper mark : Bool) : strikesThrough s (execStep paper mark s) := by
  unfold execStep
  split
  · exact (State.NoStrike.settle (by simp)).through
  · exact strikesThrough_of_channels (by simp)
  · exact strikesThrough_of_channels rfl

theorem execSensorPulse_strikesThrough : strikesThrough s (execSensorPulse s) := by
  unfold execSensorPulse
  split
  · exact strikesThrough_ite (.of_channels rfl)
  · exact strikesThrough_of_channels rfl

theorem execRetryTimerExpiry_strikesThrough : strikesThrough s (execRetryTimerExpiry s) := by
  unfold execRetryTimerExpiry
  split <;> exact strikesThrough_of_channels rfl

theorem execQualifiedEdge_strikesThrough (u : Fin 2) : strikesThrough s (execQualifiedEdge u s) := by
  unfold execQualifiedEdge
  split
  · exact (State.NoStrike.settle (by simp)).through
  · exact strikesThrough_of_channels rfl

/-- Strikes begin in COUNT_CHANGE and DELAY_TIMER_EXPIRY alone, and there from READY. -/
theorem exec_strikesThrough (c : Instr) : strikesThrough s (exec c s) := by
  cases c with
  | powerOnReset pins => exact (s.powerOnReset_noStrike pins).through
  | selectFalls l | selectRises l => exact strikesThrough_of_channels rfl
  | byteArrives l b => exact (s.byteArrives_noStrike l b).through
  | noOp l bytes | readState l bytes | readPosition l bytes | takeNotice l bytes | tallyArm l bytes | tallyClear l bytes =>
    exact request_strikesThrough s _ l bytes fun t f => .of_channels rfl
  | putLine l bytes => exact request_strikesThrough s _ l bytes fun t => t.takePutLine_noStrike l
  | putMotion l bytes => exact request_strikesThrough s _ l bytes fun t => t.takePutMotion_noStrike l
  | setForm l bytes => exact request_strikesThrough s _ l bytes fun t => t.takeSetForm_noStrike l
  | setHead l bytes => exact request_strikesThrough s _ l bytes fun t => t.takeSetHead_noStrike l
  | cancel l bytes => exact request_strikesThrough s _ l bytes fun t => t.takeCancel_noStrike l
  | tallySet l bytes => exact request_strikesThrough s _ l bytes fun t => t.takeTallySet_noStrike l
  | tallyMask l bytes => exact request_strikesThrough s _ l bytes fun t => t.takeTallyMask_noStrike l
  | clear l bytes => exact request_strikesThrough s _ l bytes fun t => t.takeClear_noStrike l
  | engineReset l bytes => exact request_strikesThrough s _ l bytes fun t => t.takeEngineReset_noStrike l
  | linkReset l bytes => exact request_strikesThrough s _ l bytes fun t => t.takeLinkReset_noStrike l
  | countChange ch dt => exact ((s.advance dt).countChange_strikesSoundly ch).advance.through
  | illegalTransition =>
    have flipped : s.NoStrike (s.modifyCar fun c => { c with encA := !c.encA, encB := !c.encB }) := .of_channels rfl
    exact ((flipped.trans (State.carriageFails_noStrike _ _)).trans (State.settle_noStrike _)).through
  | stall =>
    have timed : s.NoStrike s.atStandstill := .of_channels rfl
    exact strikesThrough_ite ((timed.trans (State.carriageFails_noStrike _ _)).trans (State.settle_noStrike _))
  | openPeriodSuspension | indexEdge level | tallyInputChange u level | dwellRunsOut =>
    exact strikesThrough_of_channels rfl
  | automaticHoming => exact strikesThrough_ite (.of_channels rfl)
  | homingRestEnd => exact strikesThrough_ite (.ite (.of_channels rfl) (.of_channels rfl))
  | planComplete => exact strikesThrough_of_channels (State.beginDwell_lineOnly _).channels
  | carriageStart => exact execCarriageStart_strikesThrough s
  | delayTimerExpiry col => exact execDelayTimerExpiry_strikesThrough s col
  | driveEnd p mA => exact execDriveEnd_strikesThrough s p mA
  | overcurrent p => exact execOvercurrent_strikesThrough s p
  | holdEnd p => exact execHoldEnd_strikesThrough s p
  | recoveryEnd p => exact execRecoveryEnd_strikesThrough s p
  | coilRise t => exact strikesThrough_ite ((s.testPulseEnd_noStrike _).trans (State.settle_noStrike _))
  | testPulseTimeout => exact ((s.testPulseEnd_noStrike _).trans (State.settle_noStrike _)).through
  | windowEnd => exact (State.NoStrike.trans (.of_channels (by simp)) (State.judgeGates_noStrike _)).through
  | temperatureConversion code =>
    exact strikesThrough_ite (.trans (.of_channels (s.takeTemperature_channels _)) (State.judgeGates_noStrike _))
  | supplyConversion code =>
    exact strikesThrough_ite (.trans (.of_channels (s.takeSupply_channels _)) (State.judgeGates_noStrike _))
  | moveStart paper => exact execMoveStart_strikesThrough s paper
  | step paper mark => exact execStep_strikesThrough s paper mark
  | sensorPulse => exact execSensorPulse_strikesThrough s
  | retryTimerExpiry => exact execRetryTimerExpiry_strikesThrough s
  | idleReleaseTimerExpiry => exact strikesThrough_ite (.settle rfl)
  | automaticTear => exact strikesThrough_ite (.settle (by simp))
  | qualifiedEdge u => exact execQualifiedEdge_strikesThrough s u

end

/-- Settles O45: `exec_strikesThrough`; a strike begins through `State.firePin_strikesReady` alone. -/
theorem strikesStartFromReady : Obligations.StrikesStartFromReady := by
  unfold Obligations.StrikesStartFromReady
  intro c s t p n run strikes
  exact exec_strikesThrough s c t run p n strikes

end Sys2Proof.Machine

namespace Sys2Proof.Machine

/-! ## The ADC's readings (R115) -/

section
variable (code : BitVec 10)

theorem temperatureOf_eq : temperatureOf code = (code.toNat : Int) / 6 - 20 := by
  rw [temperatureOf, Int.natCast_ediv]
  rfl

theorem supplyOf_eq : supplyOf code = code.toNat * 400 / 1023 := rfl

/-- The six codes from the least one of a temperature. -/
theorem temperatureOf_eq_iff (t : Int) :
    temperatureOf code = t ↔ 6 * (t + 20) ≤ code.toNat ∧ (code.toNat : Int) ≤ 6 * (t + 20) + 5 := by
  rw [temperatureOf_eq]
  omega

theorem supplyOf_eq_iff (v : Nat) :
    supplyOf code = v ↔ 1023 * v ≤ code.toNat * 400 ∧ code.toNat * 400 < 1023 * (v + 1) := by
  rw [supplyOf_eq]
  omega

theorem temperatureOf_range : -20 ≤ temperatureOf code ∧ temperatureOf code ≤ 150 := by
  have bound := code.isLt
  rw [temperatureOf_eq]
  omega

theorem supplyOf_le : supplyOf code ≤ 400 := by
  have bound := code.isLt
  rw [supplyOf_eq]
  omega

end

/-- Settles O47: every code by the two quotients, and the codes of a reading by their inversions `temperatureOf_eq_iff` and
`supplyOf_eq_iff`. -/
theorem adcCodesGiveReadings : Obligations.AdcCodesGiveReadings := by
  unfold Obligations.AdcCodesGiveReadings
  refine ⟨fun code => ?_, by decide, by decide, by decide, by decide, fun code => ?_⟩
  · obtain ⟨least, greatest⟩ := temperatureOf_range code
    exact ⟨temperatureOf_eq code, supplyOf_eq code, least, greatest, supplyOf_le code⟩
  · simp only [temperatureOf_eq_iff, supplyOf_eq_iff]
    omega

/-! ## Judgements of the levels (R116, R117, R118) -/

theorem Level.higher_rank (a b : Level) : (a.higher b).rank = max a.rank b.rank := by
  unfold Level.higher
  split <;> omega

/-- A judgement raises a level to the one reached, or lets it fall to the highest one that the value does not leave. -/
theorem judgeLevel_rank {reached : Level} {leaves : Level → Bool} {stay : Nat} (margin : reached.rank ≤ stay)
    (falls : ∀ x, leaves x = true ↔ stay < x.rank) (held : Level) :
    (judgeLevel reached leaves held).rank = max reached.rank (min held.rank stay) := by
  unfold judgeLevel
  split
  · omega
  · next kept =>
    generalize reached.rank = entry at margin kept ⊢
    cases held with
    | cool =>
      simp only [Level.rank] at kept ⊢
      omega
    | warm | hot | limit =>
      simp only [falls, Level.rank] at kept ⊢
      split_ifs <;> dsimp only <;> omega

theorem heatReached_rank (h : Nat) : (heatReached h).rank = heatEntryRank h := by
  unfold heatReached heatEntryRank
  split_ifs <;> rfl

theorem tempReached_rank (t : Int) : (tempReached t).rank = tempEntryRank t := by
  unfold tempReached tempEntryRank
  split_ifs <;> rfl

/-- Each exit value lies below the entry value of its level. -/
theorem heatEntryRank_le_stay (h : Nat) : heatEntryRank h ≤ heatStayRank h := by
  unfold heatEntryRank heatStayRank
  split_ifs <;> omega

theorem tempEntryRank_le_stay (t : Int) : tempEntryRank t ≤ tempStayRank t := by
  unfold tempEntryRank tempStayRank
  split_ifs <;> omega

theorem heatLeaves_iff (h : Nat) (x : Level) : heatLeaves h x = true ↔ heatStayRank h < x.rank := by
  unfold heatStayRank
  cases x with
  | cool => simp [heatLeaves, Level.rank]
  | warm | hot | limit =>
    simp only [heatLeaves, Level.rank, decide_eq_true_eq]
    split_ifs <;> omega

theorem tempLeaves_iff (t : Int) (x : Level) : tempLeaves t x = true ↔ tempStayRank t < x.rank := by
  unfold tempStayRank
  cases x with
  | cool => simp [tempLeaves, Level.rank]
  | warm | hot | limit =>
    simp only [tempLeaves, Level.rank, decide_eq_true_eq]
    split_ifs <;> omega

theorem judgeLevel_heat_rank (h : Nat) (held : Level) : (judgeLevel (heatReached h) (heatLeaves h) held).rank =
    max (heatEntryRank h) (min held.rank (heatStayRank h)) := by
  rw [judgeLevel_rank ((heatReached_rank h).trans_le (heatEntryRank_le_stay h)) (heatLeaves_iff h), heatReached_rank]

theorem judgeLevel_temp_rank (t : Int) (held : Level) : (judgeLevel (tempReached t) (tempLeaves t) held).rank =
    max (tempEntryRank t) (min held.rank (tempStayRank t)) := by
  rw [judgeLevel_rank ((tempReached_rank t).trans_le (tempEntryRank_le_stay t)) (tempLeaves_iff t), tempReached_rank]

/-! ## The greatest accumulator (R113, R116, R118) -/

section
variable (acc : Vector Nat 18)

/-- The fold of `peakPinOf` is the library's search for a first greatest element, begun with pin 0. -/
theorem peakPinOf_mem_argmax : peakPinOf acc ∈ (List.finRange 18).argmax fun p : Pin => acc[p.val] := by
  have hom := List.foldl_hom some (l := (List.finRange 17).map Fin.succ) (init := (0 : Pin))
    (g₁ := fun best p : Pin => if acc[best.val] < acc[p.val] then p else best)
    (g₂ := List.argAux fun b c : Pin => acc[c.val] < acc[b.val]) fun best p => (apply_ite some _ _ _).symm
  rw [Option.mem_def, List.argmax, peakPinOf, List.finRange_succ, List.foldl_cons, List.foldl_cons, if_neg (lt_irrefl _)]
  exact hom

theorem acc_le_peakPinOf (p : Pin) : acc[p.val] ≤ acc[(peakPinOf acc).val] :=
  List.le_of_mem_argmax (f := fun q : Pin => acc[q.val]) (List.mem_finRange p) (peakPinOf_mem_argmax acc)

/-- Below the peak's pin every accumulator is smaller: that pin is the lowest-numbered one of several. -/
theorem acc_lt_of_lt_peakPinOf {p : Pin} (before : p < peakPinOf acc) : acc[p.val] < acc[(peakPinOf acc).val] := by
  by_contra equal
  have later := List.index_of_argmax (peakPinOf_mem_argmax acc) (List.mem_finRange p) (Nat.le_of_not_lt equal)
  rw [List.idxOf_finRange, List.idxOf_finRange] at later
  exact absurd before (Nat.not_lt.mpr later)

end

/-! ## What the Monitor's events leave (R113, R114, R118, R122) -/

section
variable (s : State)

/-- The thermal state is the higher one after every re-evaluation, and a change of it posts THERMAL. -/
theorem State.rejudgeThermal_eq : s.rejudgeThermal = { s with
    heat := { s.heat with thermal := s.heat.heatState.higher s.heat.tempState }
    port := if s.heat.heatState.higher s.heat.tempState = s.heat.thermal then s.port
      else (s.postBoth (.thermal (s.heat.heatState.higher s.heat.tempState) s.heat.thermal s.heat.heatState s.heat.tempState
        s.heat.peak s.heat.peakPin s.heat.temperature)).port } := by
  unfold State.rejudgeThermal
  dsimp only
  split
  · next same => rw [same]
  · rfl

theorem State.judgeHeat_frame : s.judgeHeat = { s with
    heat := { s.heat with
      heatState := s.judgeHeat.heat.heatState, thermal := s.judgeHeat.heat.thermal
      peak := s.judgeHeat.heat.peak, peakPin := s.judgeHeat.heat.peakPin }
    port := s.judgeHeat.port } := by
  rw [State.judgeHeat, State.rejudgeThermal_eq]
  rfl

theorem State.judgeHeat_peakPin : s.judgeHeat.heat.peakPin = peakPinOf s.heat.acc := by
  rw [State.judgeHeat, State.rejudgeThermal_eq]
  rfl

theorem State.judgeHeat_peak : s.judgeHeat.heat.peak = s.heatOf s.judgeHeat.heat.peakPin := by
  rw [State.judgeHeat, State.rejudgeThermal_eq]
  rfl

theorem State.judgeHeat_heatState_rank : s.judgeHeat.heat.heatState.rank =
    max (heatEntryRank s.judgeHeat.heat.peak) (min s.heat.heatState.rank (heatStayRank s.judgeHeat.heat.peak)) := by
  rw [State.judgeHeat, State.rejudgeThermal_eq]
  exact judgeLevel_heat_rank _ _

theorem State.judgeHeat_thermal_rank :
    s.judgeHeat.heat.thermal.rank = max s.judgeHeat.heat.heatState.rank s.heat.tempState.rank := by
  rw [State.judgeHeat, State.rejudgeThermal_eq]
  exact Level.higher_rank _ _

theorem State.heatOf_le_peak (p : Pin) : s.heatOf p ≤ s.judgeHeat.heat.peak := by
  rw [s.judgeHeat_peak, s.judgeHeat_peakPin]
  exact acc_le_peakPinOf s.heat.acc p

theorem State.heatOf_lt_peak {p : Pin} (before : p < s.judgeHeat.heat.peakPin) : s.heatOf p < s.judgeHeat.heat.peak := by
  rw [s.judgeHeat_peakPin] at before
  rw [s.judgeHeat_peak, s.judgeHeat_peakPin]
  exact acc_lt_of_lt_peakPinOf s.heat.acc before

theorem State.judgeHeat_port : s.judgeHeat.port =
    if s.judgeHeat.heat.thermal = s.heat.thermal then s.port
    else (s.postBoth (.thermal s.judgeHeat.heat.thermal s.heat.thermal s.judgeHeat.heat.heatState s.heat.tempState
      s.judgeHeat.heat.peak s.judgeHeat.heat.peakPin s.heat.temperature)).port := by
  rw [State.judgeHeat, State.rejudgeThermal_eq]
  rfl

theorem State.heatOf_decay (p : Pin) : s.decay.heatOf p = decayed (s.heatOf p) := by
  simp only [State.heatOf, State.decay, State.modifyHeat_heat, Vector.getElem_map]

theorem State.judgeHeat_decay_frame :
    s.judgeHeat.decay = { s with heat := s.judgeHeat.decay.heat, port := s.judgeHeat.decay.port } := by
  rw [s.judgeHeat_frame]
  rfl

theorem State.judgeHeat_decay_heatOf (p : Pin) : s.judgeHeat.decay.heatOf p = s.heatOf p - (s.heatOf p + 7) / 8 := by
  rw [State.heatOf_decay, s.judgeHeat_frame]
  rfl

theorem State.takeTemperature_frame (t : Int) : s.takeTemperature t = { s with
    heat := { s.heat with
      scan := .supply, convLeft := 10000, temperature := some t
      tempState := (s.takeTemperature t).heat.tempState, thermal := (s.takeTemperature t).heat.thermal }
    port := (s.takeTemperature t).port } := by
  rw [State.takeTemperature, State.rejudgeThermal_eq]
  rfl

theorem State.takeTemperature_tempState_rank (t : Int) : (s.takeTemperature t).heat.tempState.rank =
    max (tempEntryRank t) (min s.heat.tempState.rank (tempStayRank t)) := by
  rw [State.takeTemperature, State.rejudgeThermal_eq]
  exact judgeLevel_temp_rank t _

theorem State.takeTemperature_thermal_rank (t : Int) : (s.takeTemperature t).heat.thermal.rank =
    max s.heat.heatState.rank (s.takeTemperature t).heat.tempState.rank := by
  rw [State.takeTemperature, State.rejudgeThermal_eq]
  exact Level.higher_rank _ _

theorem State.takeTemperature_port (t : Int) : (s.takeTemperature t).port =
    if (s.takeTemperature t).heat.thermal = s.heat.thermal then s.port
    else (s.postBoth (.thermal (s.takeTemperature t).heat.thermal s.heat.thermal s.heat.heatState
      (s.takeTemperature t).heat.tempState s.heat.peak s.heat.peakPin (some t))).port := by
  rw [State.takeTemperature, State.rejudgeThermal_eq]
  rfl

theorem lowSupplyAfter_clear (v : Nat) : lowSupplyAfter false v = true ↔ v < 190 := decide_eq_true_iff

theorem lowSupplyAfter_set (v : Nat) : lowSupplyAfter true v = false ↔ 200 ≤ v :=
  decide_eq_false_iff_not.trans Nat.not_lt

/-- A supply reading decides the flag, and a change of the flag posts LOW SUPPLY. -/
theorem State.takeSupply_eq (v : Nat) : s.takeSupply v = { s with
    heat := { s.heat with
      scan := .temperature, convLeft := 10000, supply := some v, lowSupply := lowSupplyAfter s.heat.lowSupply v }
    port := if lowSupplyAfter s.heat.lowSupply v = s.heat.lowSupply then s.port
      else (s.postBoth (.lowSupply (lowSupplyAfter s.heat.lowSupply v) v)).port } := by
  unfold State.takeSupply
  dsimp only
  split <;> rfl

theorem State.takeSupply_lowSupply (v : Nat) :
    (s.takeSupply v).heat.lowSupply = lowSupplyAfter s.heat.lowSupply v := by
  rw [State.takeSupply_eq]

theorem State.takeSupply_frame (v : Nat) : s.takeSupply v = { s with
    heat := { s.heat with
      scan := .temperature, convLeft := 10000, supply := some v, lowSupply := (s.takeSupply v).heat.lowSupply }
    port := (s.takeSupply v).port } := by
  rw [State.takeSupply_eq]

theorem State.takeSupply_port (v : Nat) : (s.takeSupply v).port =
    if (s.takeSupply v).heat.lowSupply = s.heat.lowSupply then s.port
    else (s.postBoth (.lowSupply (s.takeSupply v).heat.lowSupply v)).port := by
  rw [State.takeSupply_eq]

/-! ## The pass that waits for the gates (R42, R121) -/

theorem State.planDue_of_unawaited (other : ∀ c p, s.line = some c → c.stage ≠ .planDue p) : s.planDue = none := by
  cases line : s.line with
  | none => exact State.planDue_of_line_none line
  | some c => exact State.planDue_of_stage line fun p => other c p line

theorem State.judgeGates_of_none (idle : s.planDue = none) : s.judgeGates = s := by simp [State.judgeGates, idle]

theorem State.judgeGates_of_shut (shut : s.gatesOpen = false) : s.judgeGates = s := by
  refine s.judgeGates_of_none (State.planDue_of_closed ?_)
  by_contra clear
  obtain ⟨thermal, supply⟩ := not_or.mp clear
  exact Bool.eq_false_iff.mp shut (State.gatesOpen_iff.mpr ⟨thermal, eq_false_of_ne_true supply⟩)

theorem State.judgeGates_of_waiting (gates : s.gatesOpen = true) (waits : ∃ c p, s.line = some c ∧ c.stage = .planDue p) :
    s.judgeGates = s.settle := by
  obtain ⟨c, p, line, stage⟩ := waits
  obtain ⟨thermal, supply⟩ := State.gatesOpen_iff.mp gates
  simp [State.judgeGates, State.planDue_of_open line stage thermal supply]

/-- Behind a judgement that leaves the line, the pass that waits is planned when the gates are open. -/
theorem State.judgeGates_settles {u : State} (line : u.line = s.line) :
    ((∀ c p, s.line = some c → c.stage ≠ .planDue p) ∨ u.gatesOpen = false → u.judgeGates = u) ∧
    (u.gatesOpen = true → (∃ c p, s.line = some c ∧ c.stage = .planDue p) → u.judgeGates = u.settle) := by
  rw [← line]
  refine ⟨fun kept => ?_, u.judgeGates_of_waiting⟩
  obtain other | shut := kept
  · exact u.judgeGates_of_none (u.planDue_of_unawaited other)
  · exact u.judgeGates_of_shut shut

end

/-! ## The commands of the Monitor -/

/-- Settles O46: the state is `s.judgeHeat.decay`, whose levels, peak and notice are those of `State.judgeHeat`; the pass that
waits goes by `State.judgeGates_settles`. -/
theorem windowEndJudgesAndDecays : Obligations.WindowEndJudgesAndDecays := by
  unfold Obligations.WindowEndJudgesAndDecays
  intro s
  have line : s.judgeHeat.decay.line = s.line := congrArg (·.line) s.judgeHeat_frame
  have low : s.judgeHeat.decay.heat.lowSupply = s.heat.lowSupply := congrArg (·.heat.lowSupply) s.judgeHeat_frame
  obtain ⟨still, planned⟩ := s.judgeGates_settles line
  refine ⟨s.judgeHeat.decay, s.judgeHeat_decay_frame, s.judgeHeat_decay_heatOf, rfl, s.judgeHeat_peak, s.heatOf_le_peak,
    fun _ => s.heatOf_lt_peak, s.judgeHeat_heatState_rank, ?temp, s.judgeHeat_thermal_rank, ?temperature, ?supply, low,
    ?scan, ?conv, s.judgeHeat_port, ?gates, fun other => congrArg _ (still (.inl other)),
    fun gates waits => congrArg _ (planned gates waits), fun shut => congrArg _ (still (.inr shut))⟩
  case gates => rw [State.gatesOpen_iff, low]
  case temp | temperature | supply | scan | conv =>
    rw [s.judgeHeat_frame]
    rfl

theorem exec_temperatureConversion {s : State} (scan : s.heat.scan = .temperature) (code : BitVec 10) :
    exec (.temperatureConversion code) s = .next (s.takeTemperature ((code.toNat : Int) / 6 - 20)).judgeGates := by
  rw [← temperatureOf_eq]
  exact if_pos scan

theorem exec_supplyConversion {s : State} (scan : s.heat.scan = .supply) (code : BitVec 10) :
    exec (.supplyConversion code) s = .next (s.takeSupply (code.toNat * 400 / 1023)).judgeGates :=
  if_pos scan

/-- Settles O48: the states are those of `State.takeTemperature` and `State.takeSupply`; the pass that waits goes by
`State.judgeGates_settles`. -/
theorem conversionsAreJudged : Obligations.ConversionsAreJudged := by
  unfold Obligations.ConversionsAreJudged
  refine ⟨fun s code scan => ?temperature, fun s code scan => ?supply⟩
  case temperature =>
    have run := exec_temperatureConversion scan code
    generalize (code.toNat : Int) / 6 - 20 = t at run ⊢
    have line : (s.takeTemperature t).line = s.line := congrArg (·.line) (s.takeTemperature_frame t)
    obtain ⟨still, planned⟩ := s.judgeGates_settles line
    exact ⟨s.takeTemperature t, s.takeTemperature_frame t, s.takeTemperature_tempState_rank t,
      s.takeTemperature_thermal_rank t, s.takeTemperature_port t, fun kept => run.trans (congrArg _ (still kept)),
      fun gates waits => run.trans (congrArg _ (planned gates waits))⟩
  case supply =>
    have run := exec_supplyConversion scan code
    generalize code.toNat * 400 / 1023 = v at run ⊢
    have line : (s.takeSupply v).line = s.line := congrArg (·.line) (s.takeSupply_frame v)
    obtain ⟨still, planned⟩ := s.judgeGates_settles line
    refine ⟨s.takeSupply v, s.takeSupply_frame v, fun clear => ?set, fun set => ?clear, s.takeSupply_port v,
      fun kept => run.trans (congrArg _ (still kept)), fun gates waits => run.trans (congrArg _ (planned gates waits))⟩
    case set => rw [s.takeSupply_lowSupply, clear, lowSupplyAfter_clear]
    case clear => rw [s.takeSupply_lowSupply, set, lowSupplyAfter_set]

end Sys2Proof.Machine

namespace Sys2Proof.Machine

/-! ## What leaves the Form Position Unit (R126, R129)

`State.formUnit` is what the Form Position Unit holds. Each operation that is no work of the unit has one lemma here: it
leaves `State.formUnit` as it is. The lemmas stand in the order of the model's files, and each composite cites those of its
parts. -/

/-- The form position record and the form map. -/
def State.formUnit (s : State) : FormPosition × FormMap := (s.form, s.map)

@[simp] theorem State.formUnit_ite (c : Prop) [Decidable c] (s t : State) :
    (if c then s else t).formUnit = if c then s.formUnit else t.formUnit := apply_ite State.formUnit c s t

theorem State.LineOnly.formUnit {s t : State} (h : s.LineOnly t) : t.formUnit = s.formUnit := by rw [h.frame]; rfl

theorem State.SequOnly.formUnit {s t : State} (h : s.SequOnly t) : t.formUnit = s.formUnit := by rw [h.frame]; rfl

section
variable (s : State) (l : Link)

/-! ### Shared operations -/

@[simp] theorem State.modifyPort_formUnit (f : LinkPort → LinkPort) : (s.modifyPort l f).formUnit = s.formUnit := rfl
@[simp] theorem State.modifyStore_formUnit (f : LinkStore → LinkStore) : (s.modifyStore l f).formUnit = s.formUnit := rfl
@[simp] theorem State.post_formUnit (n : Notice) : (s.post l n).formUnit = s.formUnit := rfl
@[simp] theorem State.postBoth_formUnit (n : Notice) : (s.postBoth n).formUnit = s.formUnit := rfl
@[simp] theorem State.purge_formUnit : (s.purge l).formUnit = s.formUnit := rfl
@[simp] theorem State.modifyHead_formUnit (f : Entry → Entry) : (s.modifyHead l f).formUnit = s.formUnit := rfl
@[simp] theorem State.modifyResult_formUnit (f : LineResult → LineResult) : (s.modifyResult l f).formUnit = s.formUnit := rfl
@[simp] theorem State.releaseHold_formUnit : s.releaseHold.formUnit = s.formUnit := rfl
@[simp] theorem State.modifyHalt_formUnit (f : HaltSet → HaltSet) : (s.modifyHalt f).formUnit = s.formUnit := rfl
@[simp] theorem State.modifyArb_formUnit (f : Arbiter → Arbiter) : (s.modifyArb f).formUnit = s.formUnit := rfl
@[simp] theorem State.modifyDrive_formUnit (f : Drive → Drive) : (s.modifyDrive f).formUnit = s.formUnit := rfl
@[simp] theorem State.modifyCar_formUnit (f : Carriage → Carriage) : (s.modifyCar f).formUnit = s.formUnit := rfl
@[simp] theorem State.setChannel_formUnit (p : Pin) (c : Channel) : (s.setChannel p c).formUnit = s.formUnit := rfl
@[simp] theorem State.setPinRecord_formUnit (p : Pin) (r : PinRecord) : (s.setPinRecord p r).formUnit = s.formUnit := rfl
@[simp] theorem State.setTest_formUnit (c : Option TestContext) : (s.setTest c).formUnit = s.formUnit := rfl
@[simp] theorem State.modifyTally_formUnit (u : Fin 2) (f : TallyUnit → TallyUnit) :
    (s.modifyTally u f).formUnit = s.formUnit := rfl

@[simp] theorem State.accept_formUnit (r : Record) (n : Nat) (st : EntryState) :
    (s.accept l r n st).formUnit = s.formUnit := by rw [State.accept_frame]; rfl

@[simp] theorem State.completeEntry_formUnit : (s.completeEntry l).formUnit = s.formUnit :=
  (s.completeEntry_lineOnly l).formUnit

@[simp] theorem State.judgeTimers_formUnit : s.judgeTimers.formUnit = s.formUnit := s.judgeTimers_lineOnly.formUnit

/-! ### The line -/

@[simp] theorem State.setStage_formUnit (g : LineStage) : (s.setStage g).formUnit = s.formUnit := rfl
@[simp] theorem State.setDue_formUnit (d : Option DueMove) : (s.setDue d).formUnit = s.formUnit := rfl
@[simp] theorem State.modifyLine_formUnit (f : LineContext → LineContext) : (s.modifyLine f).formUnit = s.formUnit := rfl
@[simp] theorem State.useFree_formUnit : s.useFree.formUnit = s.formUnit := rfl
@[simp] theorem State.completeLine_formUnit : s.completeLine.formUnit = s.formUnit := s.completeLine_lineOnly.formUnit
@[simp] theorem State.dropPhases_formUnit : s.dropPhases.formUnit = s.formUnit := s.dropPhases_lineOnly.formUnit
@[simp] theorem State.loseAll_formUnit : s.loseAll.formUnit = s.formUnit := s.loseAll_lineOnly.formUnit
@[simp] theorem State.markImperfect_formUnit : s.markImperfect.formUnit = s.formUnit := s.markImperfect_lineOnly.formUnit
@[simp] theorem State.dropPlan_formUnit : s.dropPlan.formUnit = s.formUnit := rfl
@[simp] theorem State.abandonPass_formUnit : s.abandonPass.formUnit = s.formUnit := s.abandonPass_lineOnly.formUnit
@[simp] theorem State.endPass_formUnit : s.endPass.formUnit = s.formUnit := s.endPass_lineOnly.formUnit
@[simp] theorem State.beginDwell_formUnit : s.beginDwell.formUnit = s.formUnit := s.beginDwell_lineOnly.formUnit
@[simp] theorem State.planNow_formUnit (p : PassId) : (s.planNow p).formUnit = s.formUnit := (s.planNow_lineOnly p).formUnit

@[simp] theorem State.planOdd_formUnit (p : PassId) (x : Int) : (s.planOdd p x).formUnit = s.formUnit := by
  have plan := (s.planPass_lineOnly p x).formUnit
  unfold State.planOdd
  split
  all_goals
    next e => rw [e] at plan; simpa using plan

@[simp] theorem State.lineMoveDone_formUnit : s.lineMoveDone.formUnit = s.formUnit := by
  unfold State.lineMoveDone
  split
  · rfl
  split <;> simp

@[simp] theorem State.lineJammed_formUnit : s.lineJammed.formUnit = s.formUnit := by
  unfold State.lineJammed
  split <;> simp

@[simp] theorem State.lineTail_formUnit : s.lineTail.formUnit = s.formUnit := by simp [State.lineTail]

@[simp] theorem State.takeUpLine_formUnit : s.takeUpLine.formUnit = s.formUnit := by
  obtain ⟨e, -⟩ | ⟨_, -, -, -, e⟩ := s.takeUpLine_cases <;> simp [e]

@[simp] theorem State.cancelGranted_formUnit : (s.cancelGranted l).formUnit = s.formUnit := by
  have cancelled : s.cancelLine.formUnit = s.formUnit := by
    unfold State.cancelLine
    split
    · rfl
    · dsimp only
      split <;> simp
  unfold State.cancelGranted
  split <;> simp [cancelled]

@[simp] theorem State.openLine_formUnit (f : LineFields) : (s.openLine l f).formUnit = s.formUnit := by
  unfold State.openLine
  dsimp only
  split <;> rfl

/-! ### Strikes -/

@[simp] theorem State.fireEntry_formUnit (i : Nat) : (s.fireEntry i).formUnit = s.formUnit := (s.fireEntry_only i).formUnit

@[simp] theorem State.walkEnd_formUnit : s.walkEnd.formUnit = s.formUnit := s.walkEnd_only.formUnit

@[simp] theorem State.sequCount_formUnit (d : Dir) (x : Int) : (s.sequCount d x).formUnit = s.formUnit :=
  (s.sequCount_only d x).formUnit

@[simp] theorem State.walkStart_formUnit : s.walkStart.formUnit = s.formUnit := by
  unfold State.walkStart
  split
  · rfl
  split <;> rfl

@[simp] theorem State.judgeFault_formUnit (p : Pin) (c : PinCause) : (s.judgeFault p c).formUnit = s.formUnit := by
  simp [State.judgeFault]

@[simp] theorem State.judgeGood_formUnit (p : Pin) : (s.judgeGood p).formUnit = s.formUnit := rfl

/-! ### Coil tests -/

@[simp] theorem State.testResult_formUnit (c : TestContext) (p : Pin) (o : CoilOutcome) :
    (s.testResult c p o).formUnit = s.formUnit := by
  have advanced (t : State) : (t.testAdvance c).formUnit = t.formUnit := by
    unfold State.testAdvance
    split <;> simp
  have posted (t : State) (h : Health) : (t.postPinFailed p h o).formUnit = t.formUnit := by
    unfold State.postPinFailed
    split <;> simp
  simp [State.testResult, advanced, posted]

@[simp] theorem State.testProceed_formUnit : s.testProceed.formUnit = s.formUnit := by
  have go (fuel : Nat) : ∀ t : State, (t.testGo fuel).formUnit = t.formUnit := by
    induction fuel with
    | zero => exact fun t => rfl
    | succ fuel ih =>
      intro t
      unfold State.testGo
      split
      · rfl
      split
      · split
        · dsimp only
          split
          · simp [ih]
          · split <;> rfl
        · rfl
      · rfl
  exact go 19 s

@[simp] theorem State.openTest_formUnit (n : SeqNo) (x : Option Pin) : (s.openTest n x).formUnit = s.formUnit := by
  unfold State.openTest State.testAdvance
  split <;> simp

@[simp] theorem State.testPulseEnd_formUnit (o : CoilOutcome) : (s.testPulseEnd o).formUnit = s.formUnit := by
  unfold State.testPulseEnd
  split
  · split <;> simp
  · rfl

@[simp] theorem State.testCut_formUnit : s.testCut.formUnit = s.formUnit := by
  unfold State.testCut
  split
  · split <;> simp
  · rfl

/-! ### Paper motion, without its steps -/

@[simp] theorem State.driveStep_formUnit (d : MoveDir) : (s.driveStep d).formUnit = s.formUnit := rfl

@[simp] theorem State.runMove_formUnit (r : MotionRun) (k : MoveKind) : (s.runMove r k).formUnit = s.formUnit := rfl

@[simp] theorem State.completeRun_formUnit (r : MotionRun) (o : MoveOutcome) (x : Option NotMadeReason) :
    (s.completeRun r o x).formUnit = s.formUnit := by simp [State.completeRun]

@[simp] theorem State.haltMove_formUnit (e : MoveEnd) : (s.haltMove e).formUnit = s.formUnit := by cases e <;> rfl

@[simp] theorem State.judgeBoundary_formUnit (n : BitVec 16) (d : MoveDir) : (s.judgeBoundary n d).formUnit = s.formUnit := by
  obtain e | e := s.judgeBoundary_cases n d <;> simp [e]

@[simp] theorem State.endNotice_formUnit (m : MoveContext) (e : MoveEnd) : (s.endNotice m e).formUnit = s.formUnit := by
  simp [State.endNotice_eq]

@[simp] theorem State.askTear_formUnit : s.askTear.formUnit = s.formUnit := by simp [State.askTear]

/-! ### The head's heat and the tally units -/

@[simp] theorem State.judgeHeat_decay_formUnit : s.judgeHeat.decay.formUnit = s.formUnit := by
  rw [State.judgeHeat_decay_frame]; rfl

@[simp] theorem State.takeTemperature_formUnit (t : Int) : (s.takeTemperature t).formUnit = s.formUnit := by
  rw [State.takeTemperature_frame]; rfl

@[simp] theorem State.takeSupply_formUnit (v : Nat) : (s.takeSupply v).formUnit = s.formUnit := by
  rw [State.takeSupply_frame]; rfl

@[simp] theorem State.release_formUnit (u : Fin 2) (x : ReleaseSource) : (s.release u x).formUnit = s.formUnit := by
  unfold State.release
  split <;> simp

@[simp] theorem State.latchRelease_formUnit (u : Fin 2) : (s.latchRelease u).formUnit = s.formUnit := by
  simp [State.latchRelease]

@[simp] theorem State.qualifiedEdge_formUnit (u : Fin 2) : (s.qualifiedEdge u).formUnit = s.formUnit := by
  unfold State.qualifiedEdge
  dsimp only
  split <;> simp

@[simp] theorem State.acceptLatch_formUnit (x : LineFields) : (s.acceptLatch x).formUnit = s.formUnit := by
  unfold State.acceptLatch
  split <;> simp

/-! ### The carriage -/

@[simp] theorem State.startHoming_formUnit : s.startHoming.formUnit = s.formUnit := rfl
@[simp] theorem State.failHoming_formUnit (c : CarCause) : (s.failHoming c).formUnit = s.formUnit := rfl
@[simp] theorem State.atStandstill_formUnit : s.atStandstill.formUnit = s.formUnit := rfl
@[simp] theorem State.advance_formUnit (n : Nat) : (s.advance n).formUnit = s.formUnit := rfl

@[simp] theorem State.takeCount_formUnit (ch : EncoderChannel) (d : Dir) : (s.takeCount ch d).formUnit = s.formUnit := by
  unfold State.takeCount State.countCounter
  dsimp only
  split <;> rfl

@[simp] theorem State.enterFault_formUnit (c : CarCause) : (s.enterFault c).formUnit = s.formUnit := by
  have stopped : s.faultStop.formUnit = s.formUnit := by
    unfold State.faultStop
    dsimp only
    split <;> rfl
  rw [State.enterFault_eq]
  simp [State.faultWork, stopped]

@[simp] theorem State.carriageFails_formUnit (c : CarCause) : (s.carriageFails c).formUnit = s.formUnit := by
  unfold State.carriageFails
  split <;> simp

@[simp] theorem State.startPass_formUnit : s.startPass.formUnit = s.formUnit := by
  unfold State.startPass
  dsimp only
  split <;> simp

@[simp] theorem State.countPass_formUnit (m : CarMotion) (d : Dir) : (s.countPass m d).formUnit = s.formUnit := by
  have ended (t : State) : t.finishPass.formUnit = t.formUnit := by
    have handed (u : State) : u.handOver.formUnit = u.formUnit := rfl
    simp [State.finishPass, handed]
  unfold State.countPass
  dsimp only
  rw [State.formUnit_ite]
  simp [ended]

@[simp] theorem State.countEffect_formUnit (d : Dir) : (s.countEffect d).formUnit = s.formUnit := by
  have homing (h : HomingStep) : (s.countHoming h d).formUnit = s.formUnit := by
    unfold State.countHoming
    split <;> simp [State.beginSeek, State.completeHoming]
  have trusted : (s.countTrusted d).formUnit = s.formUnit := by
    unfold State.countTrusted
    split
    · simp
    split
    · rfl
    split <;> simp [State.countPositioning]
  unfold State.countEffect
  split <;> simp [homing, trusted]

@[simp] theorem State.giveStart_formUnit (p : PassId) (i : Fin 2) (q : PassPlan) :
    (s.giveStart p i q).formUnit = s.formUnit := by
  have launched (t : State) : (t.launch q).formUnit = t.formUnit := by
    unfold State.launch
    dsimp only
    split <;> simp
  have recorded (t : State) : (t.recordDir p q.dir).formUnit = t.formUnit := by cases p <;> rfl
  unfold State.giveStart
  dsimp only
  split
  · exact (State.planOdd_formUnit _ _ _).trans ((launched _).trans (recorded _))
  · exact (launched _).trans (recorded _)

/-! ### Requests -/

@[simp] theorem State.respond_formUnit (f : Frame) (st : Status) (bs : List Byte) :
    (s.respond l f st bs).formUnit = s.formUnit := rfl

@[simp] theorem State.receive_formUnit (r : RxState) (n : Nat) : (s.receive l r n).formUnit = s.formUnit := rfl

@[simp] theorem State.leaveJam_formUnit : s.leaveJam.formUnit = s.formUnit := by
  have cleared (t : State) : t.clearJam.formUnit = t.formUnit := by
    unfold State.clearJam
    split <;> simp
  simp [State.leaveJam, cleared]

@[simp] theorem State.leaveCarriage_formUnit : s.leaveCarriage.formUnit = s.formUnit := by
  unfold State.leaveCarriage State.requestHoming
  split
  · split <;> rfl
  · rfl

@[simp] theorem State.linkReset_formUnit : (s.linkReset l).formUnit = s.formUnit := by simp [State.linkReset]

end

end Sys2Proof.Machine

namespace Sys2Proof.Machine

/-! ## The form map and the offset through the operations of the Form Position Unit (R126 to R139, R159)

`State.FormSound` reads the form map, the offset and the candidate length. Here stand the rules by which the operations of
the unit are judged. -/

section
variable {s t : State}

theorem State.FormSound.of_same (h : s.FormSound) (map : t.map = s.map) (offset : t.form.offset = s.form.offset)
    (candidate : t.form.candidate = s.form.candidate) : t.FormSound where
  map := map ▸ h.map
  offset := by rw [map, offset]; exact h.offset
  candidate := by rw [candidate]; exact h.candidate

/-- Whatever leaves the unit keeps it sound. -/
theorem State.FormSound.of_unit (h : s.FormSound) (same : t.formUnit = s.formUnit) : t.FormSound := by
  obtain ⟨form, map⟩ := Prod.mk.inj same
  exact h.of_same map (congrArg _ form) (congrArg _ form)

/-- A record with its offset on the form, and with the candidate held or none. -/
theorem State.FormSound.setForm (h : s.FormSound) {f : FormPosition} (offset : f.offset < s.map.len)
    (candidate : f.candidate = s.form.candidate ∨ f.candidate = none) : ({ s with form := f } : State).FormSound where
  map := h.map
  offset := offset
  candidate n held := by
    change f.candidate = some n at held
    obtain same | none := candidate
    · exact h.candidate n (same ▸ held)
    · rw [none] at held
      cases held

/-- A change of the record that holds the offset, and holds the candidate or discards it. -/
theorem State.FormSound.modifyForm (h : s.FormSound) {f : FormPosition → FormPosition}
    (offset : (f s.form).offset = s.form.offset)
    (candidate : (f s.form).candidate = s.form.candidate ∨ (f s.form).candidate = none) : (s.modifyForm f).FormSound :=
  h.setForm (offset ▸ h.offset) candidate

theorem State.FormSound.ite {p : Prop} [Decidable p] (a : s.FormSound) (b : t.FormSound) : (if p then s else t).FormSound := by
  split
  · exact a
  · exact b

theorem State.FormSound.postBoth (h : s.FormSound) (n : Notice) : (s.postBoth n).FormSound := h.of_unit rfl

/-- A change of the effective length (R130). -/
theorem State.FormSound.relength (h : s.FormSound) {p : Nat} {l : Option Nat} (programmed : 144 ≤ p ∧ p ≤ 8640)
    (learned : ∀ n, l = some n → 144 ≤ n ∧ n ≤ 8640) :
    ({ s with map := { s.map with programmed := p, learned := l } } : State).relength.FormSound := by
  have legal := FormMap.legal_of_clamped (m := { s.map with programmed := p, learned := l }) programmed learned h.map.trim
    h.map.few h.map.ascending
  exact ⟨legal, Nat.mod_lt _ legal.len_pos, h.candidate⟩

/-- The learned length goes, with what that changes (R130, R136, R140). -/
theorem State.FormSound.unlearn (h : s.FormSound) :
    (if s.map.learned.isSome then (s.modifyMap fun m => { m with learned := none }).relength
      else s.modifyMap fun m => { m with learned := none }).FormSound := by
  split
  · exact h.relength h.map.programmed fun n held => by cases held
  · next unlearned =>
    have same : { s.map with learned := none } = s.map := by rw [← Option.not_isSome_iff_eq_none.mp unlearned]
    exact h.of_same same rfl rfl

/-! ### Steps (R127, R135 to R141) -/

theorem State.FormSound.stallCorrection (h : s.FormSound) (k : Nat) : (s.stallCorrection k).FormSound where
  map := h.map
  offset := State.stallCorrection_offset_lt k h.offset
  candidate n held := h.candidate n (by rw [State.stallCorrection_form] at held; exact held)

theorem State.FormSound.sensePaper (h : s.FormSound) (d : MoveDir) (paper : Bool) : (s.sensePaper d paper).FormSound := by
  unfold State.sensePaper
  dsimp only
  split
  · exact h.of_same rfl rfl rfl
  · exact h.of_same rfl rfl rfl
  · split <;> exact h.of_same rfl rfl rfl
  · exact h.of_same rfl rfl rfl
  · exact h.of_same rfl rfl rfl

theorem State.FormSound.takeAge (h : s.FormSound) : s.takeAge.FormSound := by
  have unlearned := h.unlearn
  unfold State.takeAge State.age
  refine .ite (State.FormSound.postBoth ?_ _) h
  exact unlearned.modifyForm rfl (.inr rfl)

/-- A candidate that is confirmed is a form length (R138). -/
theorem State.FormSound.migrate (h : s.FormSound) {c : Nat} (length : 144 ≤ c ∧ c ≤ 8640) (e : Odo) :
    (s.migrate c e).FormSound := by
  have learned := h.relength h.map.programmed (l := some c) fun n held => Option.some.inj held ▸ length
  exact (learned.modifyForm (f := fun f => { f with candidate := none, edge := .locked, pendingCorrection := some e }) rfl
    (.inr rfl)).postBoth _

/-- A length that becomes the candidate was measured between the limits of R137. -/
theorem State.FormSound.judgeLength (h : s.FormSound) (p e : Odo) : (s.judgeLength p e).FormSound := by
  have sound : (s.modifyForm fun f => { f with previousEdge := some e }).FormSound := h.modifyForm rfl (.inl rfl)
  unfold State.judgeLength
  dsimp only
  split
  · exact sound.modifyForm rfl (.inr rfl)
  split
  · exact sound.modifyForm rfl (.inl rfl)
  next measured =>
  obtain ⟨least, greatest⟩ := not_or.mp measured
  have proposed : ((s.modifyForm fun f => { f with previousEdge := some e }).modifyForm fun f =>
      { f with candidate := some (odoDiff e p).toNat, edge := f.edge.unlocked }).FormSound :=
    ⟨h.map, h.offset, fun n held => by cases held; omega⟩
  split
  · exact proposed
  · next c held => exact .ite (sound.migrate (sound.candidate c held) e) proposed

theorem State.FormSound.perforation (h : s.FormSound) (e : Odo) : (s.perforation e).FormSound := by
  unfold State.perforation
  split
  · exact h.modifyForm rfl (.inl rfl)
  · split
    · exact h.modifyForm rfl (.inl rfl)
    · exact h.modifyForm rfl (.inl rfl)
    · exact h.judgeLength _ e
  · exact h

theorem State.FormSound.paperArrives (h : s.FormSound) : s.paperArrives.FormSound := h.modifyForm rfl (.inl rfl)

theorem State.FormSound.formStep (h : s.FormSound) (d : MoveDir) (paper mark : Bool) : (s.formStep d paper mark).FormSound := by
  have moved (e : MoveDir) : (s.modifyForm fun f => f.moved s.map.len e).FormSound :=
    h.setForm (FormPosition.moved_offset_lt h.offset e) (.inl (by cases e <;> rfl))
  cases d with
  | reverse => exact (moved .reverse).sensePaper .reverse paper
  | forward =>
    rw [State.formStep_forward]
    have sound := moved .forward
    refine State.FormSound.sensePaper (State.FormSound.takeAge ?_) _ _
    exact .ite (.ite sound.paperArrives sound) (.ite (sound.perforation _) sound)

/-! ### Moves (R128, R139, R150, R154 to R160) -/

/-- The target of a phase correction lies on the form (R139). -/
theorem State.FormSound.phaseCorrection (h : s.FormSound) : s.phaseCorrection.FormSound := by
  have len := h.map.len_pos
  unfold State.phaseCorrection
  split
  · exact h
  · next e _ =>
    refine h.setForm ?_ (.inl rfl)
    have low := Int.emod_nonneg ((s.map.len : Int) - s.map.tof + odoDiff s.form.odometer e - 864) (b := s.map.len) (by omega)
    have high := Int.emod_lt_of_pos ((s.map.len : Int) - s.map.tof + odoDiff s.form.odometer e - 864) (b := s.map.len) (by omega)
    simp only [FormMap.correctionTarget]
    omega

theorem State.FormSound.endPhase (h : s.FormSound) (e : MoveEnd) : (s.endPhase e).FormSound := by
  cases e with
  | jam => exact h.of_same rfl rfl rfl
  | done | tail | noEdge | noPaper => exact h.phaseCorrection

/-- A LOAD that ends at the top of form leaves the offset 0; no other move's end changes it (R156). -/
theorem State.FormSound.settleMove (h : s.FormSound) (k : MoveKind) (e : MoveEnd) : (s.settleMove k e).FormSound := by
  unfold State.settleMove
  split
  · exact h.setForm h.map.len_pos (.inl rfl)
  · exact h.modifyForm rfl (.inl rfl)
  · exact h.modifyForm rfl (.inl rfl)
  · exact h.modifyForm rfl (.inl rfl)
  · exact h.modifyForm rfl (.inl rfl)
  · exact h

theorem State.FormSound.tearBy (h : s.FormSound) (k : MoveKind) (n : Int) : (s.tearBy k n).FormSound :=
  .ite (h.modifyForm rfl (.inl rfl)) h

theorem State.FormSound.prepareMove (h : s.FormSound) (k : MoveKind) : (s.prepareMove k).FormSound := by
  have begun : s.beginLoad.FormSound := h.modifyForm rfl (.inr rfl)
  unfold State.prepareMove
  split
  · exact h.modifyForm rfl (.inl rfl)
  · exact h.modifyForm rfl (.inl rfl)
  · exact .ite begun.paperArrives begun
  · exact h.modifyForm rfl (.inl rfl)
  · exact h

theorem State.FormSound.edgeOff (h : s.FormSound) : s.edgeOff.FormSound := by
  unfold State.edgeOff
  exact h.unlearn.modifyForm rfl (.inr rfl)

theorem State.FormSound.changePath (h : s.FormSound) (p : PaperPath) : (s.changePath p).FormSound := by
  have path : (s.modifyForm fun f => { f with path := p }).FormSound := h.modifyForm rfl (.inl rfl)
  cases p with
  | sheet => exact path.edgeOff
  | tractor => exact path.of_same rfl rfl rfl

end

end Sys2Proof.Machine

namespace Sys2Proof.Machine

/-! ## The form through moves, motion entries and grants (R146 to R161, R165 to R171) -/

section
variable {s t : State}

theorem State.FormSound.completeRun (h : s.FormSound) (r : MotionRun) (o : MoveOutcome) (x : Option NotMadeReason) :
    (s.completeRun r o x).FormSound := h.of_unit (s.completeRun_formUnit r o x)

theorem State.FormSound.judgeRun (h : s.FormSound) (r : MotionRun) : (s.judgeRun r).FormSound := by
  have ends := h.completeRun r
  have moves (k : MoveKind) : (s.runMove r k).FormSound := h.of_unit rfl
  unfold State.judgeRun
  dsimp only
  split
  · exact .ite (ends _ _) (moves _)
  · exact .ite (ends _ _) (moves _)
  · exact .ite (ends _ _) (moves _)
  · exact .ite (ends _ _) (.ite (ends _ _) (moves _))
  · exact .ite (ends _ _) (.ite (ends _ _) (.ite (ends _ _) (.ite (moves _) (moves _))))
  · exact .ite (ends _ _) (.ite (moves _) (moves _))
  · exact .ite (ends _ _) (.ite (moves _) (ends _ _))
  · exact .ite (ends _ _) (.ite (moves _) ((h.changePath _).completeRun _ _ _))
  · exact ends _ _

theorem State.FormSound.startRun (h : s.FormSound) (l : Link) (n : SeqNo) (k : MotionKind) : (s.startRun l n k).FormSound :=
  .ite (h.of_unit rfl) (h.judgeRun _)

theorem State.FormSound.runNext (h : s.FormSound) (r : MotionRun) (k : MoveKind) : (s.runNext r k).FormSound := by
  unfold State.runNext
  split
  · exact h.judgeRun r
  · exact h.of_unit rfl
  · exact h.of_unit rfl
  · exact (h.changePath _).completeRun r _ _
  · exact (h.changePath _).completeRun r _ _
  · exact h.completeRun r _ _

theorem State.FormSound.endSource (h : s.FormSound) (m : MoveContext) (e : MoveEnd) : (s.endSource m e).FormSound := by
  have told : (s.runMoveEnded m e).FormSound := by
    unfold State.runMoveEnded
    split
    · exact h
    · cases e with
      | jam => exact h.of_unit rfl
      | tail | noEdge | noPaper => exact h.completeRun _ _ _
      | done => exact h.runNext _ _
  unfold State.endSource
  split
  · exact told
  · exact h
  · split
    · exact h.of_unit s.lineJammed_formUnit
    · exact h.of_unit s.lineTail_formUnit
    · exact h.of_unit s.lineMoveDone_formUnit

theorem State.FormSound.endMove (h : s.FormSound) (e : MoveEnd) : (s.endMove e).FormSound := by
  cases move : s.drive.move with
  | none =>
    rw [State.endMove, move]
    exact h
  | some m =>
    have stopped : (s.modifyDrive fun d => { d with state := .stopped, move := none }).FormSound := h.of_unit rfl
    rw [State.endMove_chain move]
    exact (((stopped.settleMove m.kind e).endPhase e).of_unit (by simp)).endSource m e

theorem State.FormSound.beginMove (h : s.FormSound) (d : DueMove) : (s.beginMove d).FormSound := by
  have prepared := h.prepareMove d.kind
  have begun (x : Drive → Drive) : ((s.prepareMove d.kind).modifyDrive x).FormSound := prepared.of_unit rfl
  exact .ite ((begun _).endMove .done) (begun _)

theorem State.FormSound.stallMove (h : s.FormSound) (m : MoveContext) : (s.stallMove m).FormSound := by
  have torn := (h.stallCorrection (m.steps - 4 * m.pulses)).tearBy m.kind (-(m.steps - 4 * m.pulses : Nat))
  have set (x : Drive → Drive) := torn.of_unit (State.modifyDrive_formUnit _ x)
  exact .ite ((set _).endMove .jam) (set _)

/-- A step that the drive makes and the form takes (R127, R146). -/
theorem State.FormSound.driven (h : s.FormSound) (d : MoveDir) (paper mark : Bool) (k : MoveKind) (n : Int) :
    (((s.driveStep d).formStep d paper mark).tearBy k n).FormSound :=
  (State.FormSound.formStep (h.of_unit (s.driveStep_formUnit d)) d paper mark).tearBy k n

theorem State.FormSound.stepMove (h : s.FormSound) (m : MoveContext) (paper mark : Bool) : (s.stepMove m paper mark).FormSound := by
  have stepped := h.driven m.dir paper mark m.kind m.dir.delta
  have ejected (found : Bool) := State.FormSound.ite (p := found = true)
    (stepped.modifyForm (f := fun f => { f with paper := .none }) rfl (.inl rfl)) stepped
  have set (found : Bool) (x : Drive → Drive) := (ejected found).of_unit (State.modifyDrive_formUnit _ x)
  exact .ite ((set _ _).endMove .tail) (.ite ((set _ _).stallMove _) (.ite ((set _ _).endMove _) (set _ _)))

theorem State.FormSound.backoffStep (h : s.FormSound) (m : MoveContext) (n : Nat) (paper : Bool) :
    (s.backoffStep m n paper).FormSound :=
  (h.driven .reverse paper false m.kind (-1)).of_unit rfl

theorem State.FormSound.grant (h : s.FormSound) (l : Link) (e : Entry) : (s.grant l e).FormSound := by
  have granted : ((s.modifyHead l fun e => { e with state := .granted }).modifyArb fun a =>
      { a with granted := some { link := l, seq := e.seq }, autoTimer := none }).FormSound := h.of_unit rfl
  unfold State.grant
  dsimp only
  split
  · exact granted.of_unit (by simp)
  · exact granted.of_unit (by simp)
  · exact (granted.of_unit (State.modifyHalt_formUnit _ _)).startRun _ _ _
  · exact granted.startRun _ _ _

theorem State.FormSound.judgeHead (h : s.FormSound) (l : Link) : (s.judgeHead l).FormSound := by
  obtain ⟨-, e⟩ | ⟨d, -, -, e⟩ | ⟨_, -, -, e⟩ | ⟨_, -, -, e⟩ := s.judgeHead_cases l <;> rw [e]
  · exact h
  · exact h.grant l d
  · exact h.of_unit rfl
  · exact h.of_unit rfl

theorem State.FormSound.settle (h : s.FormSound) : s.settle.FormSound := by
  refine State.settle_induct State.FormSound (fun h once => ?_) (fun h => h.of_unit (State.judgeTimers_formUnit _)) h
  obtain ⟨p, -, rfl⟩ | ⟨e, -, -, rfl⟩ | ⟨l, -, -, -, -, rfl⟩ := State.settleOnce_cases once
  · exact h.of_unit (State.planNow_formUnit _ p)
  · exact h.grant .console e
  · exact h.judgeHead l

/-- What leaves the unit, with what its event brings. -/
theorem State.FormSound.settled (h : s.FormSound) (same : t.formUnit = s.formUnit) : t.settle.FormSound :=
  (h.of_unit same).settle

theorem State.FormSound.judgeGates (h : s.FormSound) : s.judgeGates.FormSound := .ite h.settle h

end

end Sys2Proof.Machine

namespace Sys2Proof.Machine

/-! ## SET FORM (R130, R133) -/

/-! ### The stops list -/

/-- A list of stops as R133 keeps it: ascending, so without duplicates. -/
theorem mem_insertStop {x y : Nat} {xs : List Nat} : y ∈ insertStop x xs ↔ y = x ∨ y ∈ xs := by
  induction xs with
  | nil => simp [insertStop]
  | cons z zs ih =>
    unfold insertStop
    split
    · simp
    split
    · next same => simp [same]
    · simp [ih, or_left_comm]

theorem insertStop_ascending {x : Nat} {xs : List Nat} (h : xs.Pairwise (· < ·)) : (insertStop x xs).Pairwise (· < ·) := by
  induction xs with
  | nil => simp [insertStop]
  | cons z zs ih =>
    obtain ⟨above, rest⟩ := List.pairwise_cons.mp h
    unfold insertStop
    split
    · next less => exact List.pairwise_cons.mpr ⟨fun y held => by
        obtain rfl | held := List.mem_cons.mp held
        · exact less
        · exact less.trans (above y held), h⟩
    split
    · exact h
    · next more other =>
      refine List.pairwise_cons.mpr ⟨fun y held => ?_, ih rest⟩
      obtain rfl | held := mem_insertStop.mp held
      · omega
      · exact above y held

theorem mem_sortedStops {y : Nat} {xs : List Nat} : y ∈ xs.foldr insertStop [] ↔ y ∈ xs := by
  induction xs with
  | nil => rfl
  | cons x xs ih => rw [List.foldr_cons, mem_insertStop, ih, List.mem_cons]

theorem sortedStops_ascending (xs : List Nat) : (xs.foldr insertStop []).Pairwise (· < ·) := by
  induction xs with
  | nil => exact .nil
  | cons x xs ih => exact insertStop_ascending ih

theorem stopsFrom_ascending (len : Nat) (xs : List Nat) : (stopsFrom len xs).Pairwise (· < ·) :=
  (sortedStops_ascending _).sublist (List.take_sublist _ _)

theorem stopsFrom_length_le (len : Nat) (xs : List Nat) : (stopsFrom len xs).length ≤ 12 := List.length_take_le _ _

theorem mem_of_mem_stopsFrom {len y : Nat} {xs : List Nat} (h : y ∈ stopsFrom len xs) : y ∈ xs ∧ y < len := by
  simpa [mem_sortedStops] using List.mem_of_mem_take h

/-- A stop on the form is kept, or twelve smaller ones are (R133). -/
theorem mem_stopsFrom_or {len x : Nat} {xs : List Nat} (held : x ∈ xs) (below : x < len) :
    x ∈ stopsFrom len xs ∨ ((stopsFrom len xs).length = 12 ∧ ∀ y ∈ stopsFrom len xs, y < x) := by
  have sorted := sortedStops_ascending (xs.filter fun x => x < len)
  have listed : x ∈ (xs.filter fun x => x < len).foldr insertStop [] := mem_sortedStops.mpr (by simp [held, below])
  unfold stopsFrom
  generalize (xs.filter fun x => x < len).foldr insertStop [] = ys at sorted listed ⊢
  rw [← List.take_append_drop 12 ys] at sorted listed
  obtain kept | dropped := List.mem_append.mp listed
  · exact .inl kept
  · refine .inr ⟨List.length_take_of_le ?_, fun y kept => (List.pairwise_append.mp sorted).2.2 y kept x dropped⟩
    have := List.length_pos_of_mem dropped
    rw [List.length_drop] at this
    omega

/-! ### The fields -/

/-- The state after the length field of a SET FORM (R133, step 1). -/
def State.lengthSet (s : State) (x : Option Nat) : State :=
  match x with
  | some n => s.setLength n
  | none => s

/-- The map after the fields behind the length, each clamped or kept (R133). -/
def FormMap.withFields (m : FormMap) (r : SetFormFields) : FormMap :=
  { m with
    tof := match r.tof with | some x => min x (min 720 (m.len - 1)) | none => m.tof
    trim := match r.trim with | some x => clampInt (-72) 72 x | none => m.trim
    skip := match r.skip with | some x => min x (m.len / 2) | none => m.skip
    stops := match r.stops with | some xs => stopsFrom m.len xs | none => m.stops
    lock := r.lock || m.lock }

/-- The stops that the length of a SET FORM removes, and those of its list that are not kept (R133, log entry 27). -/
def State.stopsLost (s : State) (r : SetFormFields) : Nat :=
  (match r.length with
    | some n => (s.modifyMap fun m => { m with programmed := clampNat 144 8640 n, learned := none }).stopsBeyond
    | none => 0) +
  (match r.stops with
    | some xs => xs.length - (stopsFrom (s.lengthSet r.length).map.len xs).length
    | none => 0)

/-- Each field behind the length is present or absent, and a present one changes its own field of the map (R133). -/
theorem State.applySetForm_of_no_length (s : State) {r : SetFormFields} (absent : r.length = none) :
    (s.applySetForm r).1 = s.modifyMap (·.withFields r) := by
  obtain ⟨length, tof, trim, skip, stops, lock⟩ := r
  subst absent
  cases tof <;> cases trim <;> cases skip <;> cases stops <;> cases lock <;>
    dsimp only [State.applySetForm, State.modifyMap, Bool.false_eq_true, if_false, if_true] <;> rfl

/-- The length comes first, and the other fields are taken on the form that it leaves (R133). -/
theorem State.applySetForm_fst (s : State) (r : SetFormFields) :
    (s.applySetForm r).1 = (s.lengthSet r.length).modifyMap (·.withFields r) := by
  have first : (s.applySetForm r).1 = ((s.lengthSet r.length).applySetForm { r with length := none }).1 := by
    obtain ⟨length, tof, trim, skip, stops, lock⟩ := r
    cases length <;> rfl
  rw [first, State.applySetForm_of_no_length _ rfl]
  rfl

theorem State.applySetForm_snd (s : State) (r : SetFormFields) : (s.applySetForm r).2 = s.stopsLost r := by
  obtain ⟨length, tof, trim, skip, stops, lock⟩ := r
  cases length <;> cases stops <;> rfl

theorem FormMap.withFields_len (m : FormMap) (r : SetFormFields) : (m.withFields r).len = m.len := rfl

theorem FormMap.Legal.withFields {m : FormMap} (h : m.Legal) (r : SetFormFields) : (m.withFields r).Legal where
  programmed := h.programmed
  learned := h.learned
  tof := by
    show (match r.tof with | some x => min x (min 720 (m.len - 1)) | none => m.tof) ≤ min 720 (m.len - 1)
    split
    · exact Nat.min_le_right _ _
    · exact h.tof
  trim := by
    show -72 ≤ (match r.trim with | some x => clampInt (-72) 72 x | none => m.trim) ∧
      (match r.trim with | some x => clampInt (-72) 72 x | none => m.trim) ≤ 72
    cases r.trim with
    | some x => exact clampInt_bounds (by decide) x
    | none => exact h.trim
  skip := by
    show (match r.skip with | some x => min x (m.len / 2) | none => m.skip) ≤ m.len / 2
    split
    · exact Nat.min_le_right _ _
    · exact h.skip
  few := by
    show (match r.stops with | some xs => stopsFrom m.len xs | none => m.stops).length ≤ 12
    split
    · exact stopsFrom_length_le _ _
    · exact h.few
  ascending := by
    show (match r.stops with | some xs => stopsFrom m.len xs | none => m.stops).Pairwise (· < ·)
    split
    · exact stopsFrom_ascending _ _
    · exact h.ascending
  below := by
    show ∀ x ∈ (match r.stops with | some xs => stopsFrom m.len xs | none => m.stops), x < m.len
    split
    · exact fun x held => (mem_of_mem_stopsFrom held).2
    · exact h.below

theorem State.FormSound.applySetForm {s : State} (h : s.FormSound) (r : SetFormFields) : (s.applySetForm r).1.FormSound := by
  have length : (s.lengthSet r.length).FormSound := by
    unfold State.lengthSet
    split
    · next n _ =>
      have programmed := h.relength (p := clampNat 144 8640 n) (l := none) (clampNat_bounds (by decide) n)
        fun n held => by cases held
      exact programmed.modifyForm (f := fun f => { f with candidate := none, edge := f.edge.unlocked }) rfl (.inr rfl)
    · exact h
  rw [State.applySetForm_fst]
  exact ⟨length.map.withFields r, length.offset, length.candidate⟩

/-! ## Resets (R126, R129, R144, R164) -/

theorem State.powerOnReset_formSound (s : State) (pins : PowerOnPins) : (s.powerOnReset pins).FormSound :=
  ⟨FormMap.powerOn_legal, FormMap.powerOn_legal.len_pos, fun n held => by cases held⟩

/-- The engine reset takes the power-on map, and reduces the offset to its length (R144). -/
theorem State.engineReset_formSound (s : State) : s.engineReset.FormSound := by
  rw [State.engineReset_frame]
  exact ⟨FormMap.powerOn_legal, Nat.mod_lt s.withdrawnForm.offset (by decide : 0 < 3168), fun n held => by cases held⟩

/-! ## Requests -/

section
variable {s : State} (h : s.FormSound) (l : Link) (f : Frame)
include h

theorem State.FormSound.respond (st : Status) (bs : List Byte) : (s.respond l f st bs).FormSound := h.of_unit rfl

theorem State.FormSound.takePutLine : (s.takePutLine l f).FormSound := by
  unfold State.takePutLine
  split
  · exact h.respond l f _ _
  · exact .ite (h.settled (by simp)) (h.respond l f _ _)

theorem State.FormSound.takePutMotion : (s.takePutMotion l f).FormSound := by
  unfold State.takePutMotion
  refine .ite (h.respond l f _ _) ?_
  split
  · exact h.respond l f _ _
  · exact .ite (h.settled (by simp)) (h.respond l f _ _)

theorem State.FormSound.takeSetForm : (s.takeSetForm l f).FormSound := by
  have applied := (h.applySetForm (setFormOf f.payload))
  exact .ite (h.respond l f _ _) (.ite (h.respond l f _ _) (applied.of_unit (by simp)))

theorem State.FormSound.takeCancel : (s.takeCancel l f).FormSound := by
  unfold State.takeCancel
  exact h.settled (by simp)

theorem State.FormSound.takeClear : (s.takeClear l f).FormSound := by
  unfold State.takeClear
  exact .ite (h.respond l f _ _) (h.settled (by simp))

theorem State.FormSound.takeTallySet : (s.takeTallySet l f).FormSound := by
  unfold State.takeTallySet State.respondTally
  exact h.settled (by simp)

theorem State.FormSound.takeTallyMask : (s.takeTallyMask l f).FormSound := by
  unfold State.takeTallyMask State.respondTally
  exact h.settled (by simp)

theorem State.FormSound.takeEngineReset : (s.takeEngineReset l f).FormSound :=
  .ite (h.respond l f _ _) (s.engineReset_formSound.respond l f _ _)

theorem State.FormSound.takeLinkReset : (s.takeLinkReset l f).FormSound := by
  unfold State.takeLinkReset
  exact h.settled (by simp)

theorem State.FormSound.takeRequest : (s.takeRequest l f).FormSound := by
  unfold State.takeRequest
  cases f.kind with
  | noOp | readState | readPosition => exact h.respond l f _ _
  | setHead => exact h.of_unit (by simp [State.takeSetHead])
  | takeNotice | tallyArm | tallyClear => exact h.of_unit rfl
  | putLine => exact h.takePutLine l f
  | putMotion => exact h.takePutMotion l f
  | setForm => exact h.takeSetForm l f
  | cancel => exact h.takeCancel l f
  | tallySet => exact h.takeTallySet l f
  | tallyMask => exact h.takeTallyMask l f
  | clear => exact h.takeClear l f
  | engineReset => exact h.takeEngineReset l f
  | linkReset => exact h.takeLinkReset l f

theorem State.FormSound.byteArrives (b : Byte) : (s.byteArrives l b).FormSound := by
  have heard : (s.receive l (rxByte (s.port.get l).rx b).rx 1).FormSound := h.of_unit rfl
  refine .ite ?_ h
  split
  · exact heard.takeRequest l _
  · exact heard

/-- A request command takes its frame as a request does, whatever its kind. -/
theorem State.FormSound.request (k : ReqKind) (bytes : List Byte) {take : State → Link → Frame → State}
    (taken : ∀ {t : State} (f : Frame), t.FormSound → (take t l f).FormSound) : (s.request k l bytes take).FormSound := by
  obtain ⟨f, -, -, e⟩ | ⟨-, e⟩ := s.request_cases k l bytes take <;> rw [e]
  · exact taken f (h.of_unit rfl)
  · exact h

end

/-! ## The commands -/

/-- Every next state of an outcome has a sound form. -/
def formSoundThrough (o : Host.Outcome State Fault Refusal) : Prop := ∀ t, o = .next t → t.FormSound

section
variable {s t : State}

theorem State.FormSound.through (h : s.FormSound) : formSoundThrough (.next s) := fun _ e => by
  cases e
  exact h

theorem formSoundThrough_ite {p : Prop} [Decidable p] (a : t.FormSound) (b : s.FormSound) :
    formSoundThrough (if p then .next t else .next s) := by
  split
  · exact a.through
  · exact b.through

variable (h : s.FormSound)
include h

theorem execCarriageStart_formSound : formSoundThrough (execCarriageStart s) := by
  unfold execCarriageStart
  split
  · split
    · exact (h.of_unit (s.giveStart_formUnit _ _ _)).through
    · exact (h.of_unit (t := s.discardPlan _) rfl).through
  · exact h.through

theorem execDelayTimerExpiry_formSound (col : PinColumn) : formSoundThrough (execDelayTimerExpiry col s) := by
  unfold execDelayTimerExpiry
  split
  · exact ((h.of_unit (s.fireEntry_formUnit _)).of_unit (t := (s.fireEntry _).modifySequ _) rfl).through
  · exact h.through

/-- The end of a strike pulse changes its channel and the pin's record (R88, R92 to R96). -/
theorem strikePulse_formSound (p : Pin) (mA : Nat) :
    formSoundThrough (execDriveEnd p mA s) ∧ formSoundThrough (execOvercurrent p s) ∧ formSoundThrough (execHoldEnd p s) := by
  have short : (s.shortPulse p).FormSound := h.of_unit (by simp [State.shortPulse])
  have judged : ((s.setChannel p (.hold holdTicks)).judgeDriveEnd p mA).FormSound := h.of_unit (by simp [State.judgeDriveEnd])
  refine ⟨?_, ?_, ?_⟩
  · unfold execDriveEnd
    split
    · exact formSoundThrough_ite short judged
    · exact h.through
  · unfold execOvercurrent
    split
    · exact short.through
    · exact h.through
  · unfold execHoldEnd
    split
    · exact (h.of_unit (s.setChannel_formUnit p _)).through
    · exact h.through

theorem execRecoveryEnd_formSound (p : Pin) : formSoundThrough (execRecoveryEnd p s) := by
  unfold execRecoveryEnd
  split
  · exact (h.settled (by simp)).through
  · exact h.through

theorem execMoveStart_formSound (paper : Bool) : formSoundThrough (execMoveStart paper s) := by
  have sensed : (s.modifyForm fun f => { f with paperSensor := paper }).FormSound := h.modifyForm rfl (.inl rfl)
  unfold execMoveStart
  split
  · exact (sensed.beginMove _).settle.through
  · exact h.through

theorem execStep_formSound (paper mark : Bool) : formSoundThrough (execStep paper mark s) := by
  unfold execStep
  split
  · exact (h.stepMove _ paper mark).settle.through
  · exact (h.backoffStep _ _ paper).through
  · exact h.through

theorem execSensorPulse_formSound : formSoundThrough (execSensorPulse s) := by
  unfold execSensorPulse
  split
  · exact formSoundThrough_ite (h.of_unit (s.modifyDrive_formUnit _)) h
  · exact h.through

theorem execRetryTimerExpiry_formSound : formSoundThrough (execRetryTimerExpiry s) := by
  unfold execRetryTimerExpiry
  split
  · exact (h.of_unit (s.modifyDrive_formUnit _)).through
  · exact h.through

theorem execQualifiedEdge_formSound (u : Fin 2) : formSoundThrough (execQualifiedEdge u s) := by
  unfold execQualifiedEdge
  split
  · exact (h.settled (by simp)).through
  · exact h.through

/-- Every command keeps the form sound. -/
theorem exec_formSound (c : Instr) : formSoundThrough (exec c s) := by
  cases c with
  | powerOnReset pins => exact (s.powerOnReset_formSound pins).through
  | selectFalls l | selectRises l => exact (h.of_unit (s.modifyPort_formUnit l _)).through
  | byteArrives l b => exact (h.byteArrives l b).through
  | noOp l bytes | readState l bytes | readPosition l bytes | takeNotice l bytes | tallyArm l bytes | tallyClear l bytes =>
    exact (h.request l _ bytes fun f sound => sound.of_unit rfl).through
  | putLine l bytes => exact (h.request l _ bytes fun f sound => sound.takePutLine l f).through
  | putMotion l bytes => exact (h.request l _ bytes fun f sound => sound.takePutMotion l f).through
  | setForm l bytes => exact (h.request l _ bytes fun f sound => sound.takeSetForm l f).through
  | setHead l bytes => exact (h.request l _ bytes fun f sound => sound.of_unit (by simp [State.takeSetHead])).through
  | cancel l bytes => exact (h.request l _ bytes fun f sound => sound.takeCancel l f).through
  | tallySet l bytes => exact (h.request l _ bytes fun f sound => sound.takeTallySet l f).through
  | tallyMask l bytes => exact (h.request l _ bytes fun f sound => sound.takeTallyMask l f).through
  | clear l bytes => exact (h.request l _ bytes fun f sound => sound.takeClear l f).through
  | engineReset l bytes => exact (h.request l _ bytes fun f sound => sound.takeEngineReset l f).through
  | linkReset l bytes => exact (h.request l _ bytes fun f sound => sound.takeLinkReset l f).through
  | countChange ch dt => exact (h.settled (t := ((s.advance dt).takeCount ch _).countEffect _) (by simp)).through
  | illegalTransition => exact (h.settled (t := (s.modifyCar _).carriageFails .encoder) (by simp)).through
  | stall => exact formSoundThrough_ite (h.settled (t := s.atStandstill.carriageFails .stall) (by simp)) h
  | openPeriodSuspension | indexEdge level => exact (h.of_unit (s.modifyCar_formUnit _)).through
  | automaticHoming => exact formSoundThrough_ite (h.of_unit (t := s.atStandstill.startHoming) rfl) h
  | homingRestEnd =>
    exact formSoundThrough_ite (.ite (h.of_unit (t := s.atStandstill.setHoming _) rfl)
      (h.of_unit (t := s.atStandstill.beginSeek) rfl)) h
  | planComplete => exact ((h.of_unit (t := { s with lists := s.lists.map StrikeList.complete }) rfl).of_unit
      (State.beginDwell_formUnit _)).through
  | carriageStart => exact execCarriageStart_formSound h
  | delayTimerExpiry col => exact execDelayTimerExpiry_formSound h col
  | driveEnd p mA => exact (strikePulse_formSound h p mA).1
  | overcurrent p => exact (strikePulse_formSound h p 0).2.1
  | holdEnd p => exact (strikePulse_formSound h p 0).2.2
  | recoveryEnd p => exact execRecoveryEnd_formSound h p
  | coilRise t => exact formSoundThrough_ite (h.settled (s.testPulseEnd_formUnit _)) h
  | testPulseTimeout => exact (h.settled (s.testPulseEnd_formUnit _)).through
  | windowEnd => exact (h.of_unit s.judgeHeat_decay_formUnit).judgeGates.through
  | temperatureConversion code => exact formSoundThrough_ite (h.of_unit (s.takeTemperature_formUnit _)).judgeGates h
  | supplyConversion code => exact formSoundThrough_ite (h.of_unit (s.takeSupply_formUnit _)).judgeGates h
  | dwellRunsOut => exact (h.of_unit (t := { s with dwell := s.dwell.expire }) rfl).through
  | moveStart paper => exact execMoveStart_formSound h paper
  | step paper mark => exact execStep_formSound h paper mark
  | sensorPulse => exact execSensorPulse_formSound h
  | retryTimerExpiry => exact execRetryTimerExpiry_formSound h
  | idleReleaseTimerExpiry => exact formSoundThrough_ite (h.settled (s.releaseHold_formUnit)) h
  | automaticTear => exact formSoundThrough_ite (h.settled (t := (s.modifyArb _).askTear) (by simp)) h
  | tallyInputChange u level => exact (h.of_unit (s.modifyTally_formUnit u _)).through
  | qualifiedEdge u => exact execQualifiedEdge_formSound h u

end

/-- Settles O56: POWER_ON_RESET and an engine reset leave a sound form, every other command keeps it (`exec_formSound`), and
a tick leaves the form. -/
theorem formSoundIsKept : Obligations.FormSoundIsKept := by
  unfold Obligations.FormSoundIsKept
  intro s t sound run
  unfold step at run
  split at run
  · exact (sound.of_unit (s.advance_formUnit 1)).through t run
  · next c rest _ => exact exec_formSound (sound.of_unit (t := { s with pending := rest }) rfl) c t run

end Sys2Proof.Machine

namespace Sys2Proof.Machine

/-! ## What a SET FORM writes, field by field (R130, R133) -/

/-- A length field writes the length, and what the change of the effective length makes of the rest (R130, R133). -/
theorem State.setLength_eq (s : State) {n c : Nat} (hc : c = max 144 (min 8640 n)) : s.setLength n = { s with
    form := { s.form with
      offset := s.form.offset % c, pendingCorrection := none, candidate := none
      edge := if s.form.edge = .locked then .seeking else s.form.edge }
    map := { s.map with
      programmed := c, learned := none, tof := min s.map.tof (min 720 (c - 1)), skip := min s.map.skip (c / 2)
      stops := s.map.stops.filter (fun x => x < c) } } := by
  subst hc
  rfl

theorem State.stopsLost_of_length (s : State) {r : SetFormFields} {n c : Nat} (length : r.length = some n)
    (hc : c = max 144 (min 8640 n)) : s.stopsLost r = (s.map.stops.filter (fun x => c ≤ x)).length +
      (match r.stops with | some xs => xs.length - (stopsFrom c xs).length | none => 0) := by
  subst hc
  unfold State.stopsLost
  rw [length]
  rfl

/-- Settles O21: the length is written by `State.setLength` and the other fields by `FormMap.withFields`
(`State.applySetForm_fst`); the stops kept are those of `stopsFrom`. -/
theorem setFormWritesTheMap : Obligations.SetFormWritesTheMap := by
  unfold Obligations.SetFormWritesTheMap
  intro s t r n len run hlen
  have written := s.applySetForm_fst r
  have lost := s.applySetForm_snd r
  rw [run] at written lost
  dsimp only at written lost
  have given (xs : List Nat) (h : r.stops = some xs) : t.map.stops = stopsFrom len xs := by
    rw [hlen, written, State.modifyMap_map, FormMap.withFields_len, FormMap.withFields, h]
  have kept (xs : List Nat) (h : r.stops = some xs) : t.map.stops.Pairwise (· < ·) ∧ t.map.stops.length ≤ 12 ∧
      (∀ y ∈ t.map.stops, y ∈ xs ∧ y < len) ∧
      (∀ x ∈ xs, x < len → x ∈ t.map.stops ∨ (t.map.stops.length = 12 ∧ ∀ y ∈ t.map.stops, y < x)) := by
    rw [given xs h]
    exact ⟨stopsFrom_ascending _ _, stopsFrom_length_le _ _, fun y => mem_of_mem_stopsFrom, fun x => mem_stopsFrom_or⟩
  obtain ⟨length, tof, trim, skip, stops, lock⟩ := r
  cases length with
  | none =>
    have written : t = s.modifyMap (·.withFields ⟨none, tof, trim, skip, stops, lock⟩) := written
    subst written
    have len_eq : len = s.map.len := hlen
    subst len_eq
    exact ⟨rfl, rfl, rfl, rfl, rfl, rfl, rfl, (by cases stops <;> exact lost), fun none => (by subst none; rfl),
      kept, fun _ => rfl, fun given => (by cases given)⟩
  | some x =>
    obtain ⟨c, hc⟩ : ∃ c, c = max 144 (min 8640 x) := ⟨_, rfl⟩
    have written : t = (s.setLength x).modifyMap (·.withFields ⟨some x, tof, trim, skip, stops, lock⟩) := written
    rw [s.setLength_eq hc] at written
    subst written
    have len_eq : len = c := hlen
    subst len_eq
    rw [s.stopsLost_of_length rfl hc] at lost
    exact ⟨rfl, hc, rfl, rfl, rfl, rfl, rfl, (by cases stops <;> exact lost), fun none => (by subst none; rfl),
      kept, fun given => (by cases given), fun _ => rfl⟩

end Sys2Proof.Machine

namespace Sys2Proof.Machine

/-! ## The offset and the form number after steps (R127)

A position is the pair of form number and offset; a step back is one division of the lowered offset by the length, and `k`
steps back are one division too, by `State.stallCorrection`'s induction over the steps. -/

section
variable {f : FormPosition} {len : Nat}

theorem FormPosition.forward_offset (h : f.offset < len) : (f.forward len).offset = (f.offset + 1) % len := by
  unfold FormPosition.forward
  dsimp only
  split
  · rw [show f.offset + 1 = len by omega, Nat.mod_self]
  · rw [Nat.mod_eq_of_lt (by omega)]

theorem FormPosition.forward_form (h : f.offset < len) :
    (f.forward len).form = if f.offset + 1 = len then f.form + 1 else f.form :=
  if_congr ⟨fun _ => by omega, fun _ => by omega⟩ rfl rfl

theorem FormPosition.reverse_offset (h : f.offset < len) : (f.reverse len).offset = (f.offset + (len - 1)) % len := by
  unfold FormPosition.reverse
  dsimp only
  split
  · rw [Nat.mod_eq_of_lt (by omega)]
    omega
  · rw [show f.offset + (len - 1) = f.offset - 1 + len by omega, Nat.add_mod_right, Nat.mod_eq_of_lt (by omega)]

/-- A step back divides the lowered offset by the length: the remainder is the offset, the quotient goes to the form
number. -/
theorem FormPosition.reverse_division (h : f.offset < len) : ((f.reverse len).offset : Int) = (f.offset - 1 : Int) % len ∧
    (f.reverse len).form = f.form + BitVec.ofInt 16 ((f.offset - 1 : Int) / len) := by
  unfold FormPosition.reverse
  dsimp only
  split
  · next zero =>
    have split_minus_one : (f.offset - 1 : Int) % len = len - 1 ∧ (f.offset - 1 : Int) / len = -1 :=
      ⟨by rw [zero, ← Int.add_emod_right, Int.emod_eq_of_lt] <;> omega, Int.ediv_eq_neg_one_of_neg_of_le (by omega) (by omega)⟩
    rw [split_minus_one.1, split_minus_one.2]
    exact ⟨by omega, BitVec.sub_eq_add_neg _ _⟩
  · rw [Int.emod_eq_of_lt (by omega) (by omega), Int.ediv_eq_zero_of_lt (by omega) (by omega)]
    exact ⟨by omega, (BitVec.add_zero _).symm⟩

theorem FormPosition.withdraw_division (k : Nat) (h : f.offset < len) :
    ((f.withdraw len k).offset : Int) = (f.offset - k : Int) % len ∧
      (f.withdraw len k).form = f.form + BitVec.ofInt 16 ((f.offset - k : Int) / len) := by
  induction k generalizing f with
  | zero =>
    rw [Int.emod_eq_of_lt (by omega) (by omega), Int.ediv_eq_zero_of_lt (by omega) (by omega)]
    exact ⟨by simp [FormPosition.withdraw], (BitVec.add_zero _).symm⟩
  | succ k ih =>
    obtain ⟨offset, form⟩ := ih (FormPosition.reverse_offset_lt h)
    obtain ⟨lowered, carried⟩ := FormPosition.reverse_division h
    have divided := Int.emod_add_mul_ediv (f.offset - 1 : Int) len
    have rest : (f.offset - (k + 1 : Nat) : Int) = ((f.reverse len).offset - k : Int) + len * ((f.offset - 1 : Int) / len) := by
      omega
    rw [FormPosition.withdraw, rest, Int.add_mul_emod_self_left, Int.add_mul_ediv_left _ _ (by omega), form, carried,
      BitVec.add_assoc, ← BitVec.ofInt_add, Int.add_comm ((f.offset - 1 : Int) / len)]
    exact ⟨offset, rfl⟩

end

theorem PaperState.tailBy_of_not_tail {p : PaperState} (h : ∀ d, p ≠ .tail d) (k : Int) : p.tailBy k = p := by
  cases p with
  | tail d => exact absurd rfl (h d)
  | _ => rfl

theorem State.stallCorrection_eq (s : State) (k : Nat) (below : s.form.offset < s.map.len) :
    s.stallCorrection k = { s with form := { s.form with
      odometer := s.form.odometer - BitVec.ofNat 32 k
      offset := ((s.form.offset - k : Int) % s.map.len).toNat
      form := s.form.form + BitVec.ofInt 16 ((s.form.offset - k : Int) / s.map.len)
      forwardMark := if s.form.forwardMark = s.form.odometer then s.form.odometer - BitVec.ofNat 32 k else s.form.forwardMark
      paper := s.form.paper.tailBy k } } := by
  obtain ⟨offset, form⟩ := FormPosition.withdraw_division k below
  rw [← offset, Int.toNat_natCast, ← form, ← FormPosition.withdraw_paper s.map.len, ← FormPosition.withdraw_odometer s.map.len]
  unfold State.stallCorrection State.modifyForm
  dsimp only
  rw [FormPosition.withdraw_frame]
  split <;> rfl

/-- Settles O49: a step by its division of the offset, the stall correction by that of its steps. -/
theorem stepsWrapTheOffset : Obligations.StepsWrapTheOffset := by
  refine ⟨fun f len _ below => ⟨
    ⟨_, rfl, rfl, rfl, FormPosition.forward_offset below, FormPosition.forward_form below, rfl, ?_, ?_⟩,
    ⟨_, rfl, rfl, rfl, FormPosition.reverse_offset below, rfl, ?_, ?_⟩⟩, fun s t k ht _ below => ?_⟩
  · exact fun d tail => congrArg (·.tailBy (-1)) tail
  · exact fun away => PaperState.tailBy_of_not_tail away _
  · exact fun d tail => congrArg (·.tailBy 1) tail
  · exact fun away => PaperState.tailBy_of_not_tail away _
  · exact ht.trans (s.stallCorrection_eq k below)

/-! ## The phase correction (R139) -/

theorem FormMap.correctionTarget_bounds (m : FormMap) (o e : Odo) (positive : 0 < m.len) :
    0 ≤ m.correctionTarget o e ∧ m.correctionTarget o e < m.len :=
  ⟨Int.emod_nonneg _ (by omega), Int.emod_lt_of_pos _ (by omega)⟩

/-- The correction is the distance to the target but for whole forms. -/
theorem correctionDelta_eq (len : Nat) (target offset : Int) :
    ∃ n : Int, correctionDelta len target offset = target - offset + n * len := by
  have divided := Int.emod_add_mul_ediv (target - offset) len
  unfold correctionDelta
  dsimp only
  split
  · exact ⟨-((target - offset) / len), by linarith⟩
  · exact ⟨-((target - offset) / len) - 1, by linarith⟩

/-- Settles O51: the correction meets its target but for whole forms (`correctionDelta_eq`) within the range of R139
(`correctionDelta_range`). -/
theorem phaseCorrectionMeetsItsTarget : Obligations.PhaseCorrectionMeetsItsTarget := by
  intro s positive _
  refine ⟨fun none => by rw [State.phaseCorrection, none], fun e pending => ?_⟩
  obtain ⟨above, below⟩ := s.map.correctionTarget_bounds s.form.odometer e positive
  have x_eq := Int.toNat_of_nonneg above
  obtain ⟨low, high⟩ := correctionDelta_range (s.map.correctionTarget s.form.odometer e) s.form.offset positive
  refine ⟨(s.map.correctionTarget s.form.odometer e).toNat, _, x_eq, ?_, low, high, by rw [State.phaseCorrection, pending]; rfl⟩
  rw [x_eq]
  exact correctionDelta_eq _ _ _

end Sys2Proof.Machine

namespace Sys2Proof.Machine

/-! ## MOVE_START (R131, R132, R146, R153 to R158) -/

/-- The state with the paper sensor's level read. -/
def State.readSensor (s : State) (paper : Bool) : State := s.modifyForm fun f => { f with paperSensor := paper }

section
variable {s x : State} {paper searches : Bool} {src : MoveSource} {k : MoveKind} {g : FormPosition} {dir : MoveDir} {n : Nat}

/-- The start of a due move: its direction and distance from the record with the sensor read, the record as the kind of
move prepares it, and the end of a move of distance 0 (log entry 20). -/
theorem execMoveStart_of_due (stopped : s.drive.state = .stopped) (car : s.car.state = .stopped)
    (due : s.drive.due = some ⟨src, k⟩) (direction : (s.readSensor paper).moveDir k = dir)
    (distance : (s.readSensor paper).moveDistance k = (n, searches))
    (prepared : (s.readSensor paper).prepareMove k = { s with form := g })
    (hx : x = { s with form := g, drive := { s.drive with
      state := .stepping, move := some ⟨src, k, dir, n, searches, 0, 0, 0, 0, s.form.form⟩, due := none } }) :
    (n ≠ 0 → exec (.moveStart paper) s = .next x.settle) ∧
      (n = 0 → exec (.moveStart paper) s = .next (x.endMove .done).settle) := by
  have startable : s.startable = some ⟨src, k⟩ := by
    rw [State.startable, if_pos ⟨decide_eq_true stopped, car⟩, due]
  have begun : (s.readSensor paper).beginMove ⟨src, k⟩ = if n = 0 then x.endMove .done else x := by
    rw [hx, State.beginMove, direction, distance, prepared]
    rfl
  have started : exec (.moveStart paper) s = .next ((s.readSensor paper).beginMove ⟨src, k⟩).settle := by
    show execMoveStart paper s = _
    rw [execMoveStart, startable]
    rfl
  rw [started, begun]
  exact ⟨fun some_way => by rw [if_neg some_way], fun no_way => by rw [if_pos no_way]⟩

/-- A move of fixed distance has the direction and the distance of `State.fixedMove`, and its start prepares nothing. -/
theorem State.fixedMove_spec (fixed : s.fixedMove k = some (dir, n)) :
    s.moveDir k = dir ∧ s.moveDistance k = (n, false) ∧ s.prepareMove k = s := by
  cases k with
  | tearAdvance | load | park | eject => cases fixed
  | back | feed | reverse | vtab | formfeed | tearFeed | subForward | subReverse | trailing | trailingReverse =>
    obtain ⟨rfl, rfl⟩ := Prod.mk.inj (Option.some.inj fixed)
    exact ⟨rfl, rfl, rfl⟩

theorem State.readSensor_fixedMove (s : State) (paper : Bool) (k : MoveKind) : (s.readSensor paper).fixedMove k = s.fixedMove k := by
  cases k <;> rfl

end

/-! ## The skip zone (R132) -/

section
variable {m : FormMap} {o n : Nat}

theorem FormMap.skipExtended_of_in (zone : m.skip ≠ 0) (inside : m.len - m.skip ≤ (o + n) % m.len) :
    m.skipExtended o n = n + (m.len - (o + n) % m.len) := if_pos ⟨zone, inside⟩

theorem FormMap.skipExtended_of_out (outside : m.skip = 0 ∨ (o + n) % m.len < m.len - m.skip) : m.skipExtended o n = n :=
  if_neg fun ⟨zone, inside⟩ => by omega

theorem FormMap.skipExtended_ge : n ≤ m.skipExtended o n := by
  unfold FormMap.skipExtended
  dsimp only
  split <;> omega

theorem mod_of_filled_form {a len : Nat} (positive : 0 < len) : (a + (len - a % len)) % len = 0 := by
  have below := Nat.mod_lt a positive
  have divided := Nat.mod_add_div a len
  rw [show a + (len - a % len) = len * (a / len + 1) by rw [Nat.mul_add]; omega, Nat.mul_mod_right]

/-- The skip zone and the lock enter the distance of no move but a FEED and a forward trailing feed. -/
theorem State.moveDistance_of_map {s : State} {m : FormMap} {k : MoveKind} (programmed : m.programmed = s.map.programmed)
    (learned : m.learned = s.map.learned) (tof : m.tof = s.map.tof) (trim : m.trim = s.map.trim) (stops : m.stops = s.map.stops)
    (other : ∀ j, k ≠ .feed j ∧ k ≠ .trailing j) : ({ s with map := m } : State).moveDistance k = s.moveDistance k := by
  have map : m = { s.map with skip := m.skip, lock := m.lock } := by
    dsimp only
    rw [← programmed, ← learned, ← tof, ← trim, ← stops]
  rw [map]
  cases k with
  | feed j => exact absurd rfl (other j).1
  | trailing j => exact absurd rfl (other j).2
  | _ => rfl

end

/-- Settles O52: both kinds of move have the distance `FormMap.skipExtended`, and MOVE_START makes it
(`execMoveStart_of_due`). -/
theorem skipZoneExtendsFeeds : Obligations.SkipZoneExtendsFeeds := by
  intro s n e positive _ he
  have feeds (k : MoveKind) (kind : k = .feed n ∨ k = .trailing n) :
      s.fixedMove k = some (.forward, s.map.skipExtended s.form.offset n) ∧
        s.moveDistance k = (s.map.skipExtended s.form.offset n, false) := by
    obtain rfl | rfl := kind <;> exact ⟨rfl, rfl⟩
  refine ⟨fun k kind => ?_, fun m programmed learned tof trim stops k => State.moveDistance_of_map programmed learned tof trim stops,
    fun len skip hn => ⟨fun offset => ?_, fun offset => ?_⟩⟩
  · obtain ⟨fixed, distance⟩ := feeds k kind
    rw [distance]
    refine ⟨fun zone inside => ?_, fun outside => ?_, fun src paper stopped car due some_way => ?_⟩
    · subst he
      rw [FormMap.skipExtended_of_in zone inside]
      refine ⟨rfl, ?_⟩
      rw [← Nat.add_assoc]
      exact mod_of_filled_form positive
    · subst he
      rw [FormMap.skipExtended_of_out outside]
    · obtain ⟨direction, length, prepared⟩ := State.fixedMove_spec ((s.readSensor_fixedMove paper k).trans fixed)
      obtain ⟨starts, -⟩ := execMoveStart_of_due stopped car due direction length prepared rfl
      have far : s.map.skipExtended s.form.offset n ≠ 0 := by
        have := FormMap.skipExtended_ge (m := s.map) (o := s.form.offset) (n := n)
        omega
      refine ⟨_, ⟨src, k, .forward, s.map.skipExtended s.form.offset n, false, 0, 0, 0, 0, s.form.form⟩, starts far, ?_, ?_, rfl,
        rfl, rfl⟩ <;> rw [(State.settle_settling _).frame]
  · rw [(feeds _ (.inr rfl)).2, FormMap.skipExtended, len, skip, offset, hn]
    rfl
  · rw [(feeds _ (.inr rfl)).2, FormMap.skipExtended, len, skip, offset, hn]
    rfl

end Sys2Proof.Machine

namespace Sys2Proof.Machine

/-! ## A tear advance of no distance (R154, log entry 20) -/

section
variable {s u v : State} {src : MoveSource}

theorem MotionRun.add_of_no_way (r : MotionRun) (src : MoveSource) (form : BitVec 16) :
    r.add ⟨src, .tearAdvance, .forward, 0, false, 0, 0, 0, 0, form⟩ = r := by
  simp [MotionRun.add, MoveKind.searches]

/-- The end of a tear advance of no distance that a TEAR entry makes (R128, R154, R160): FORM BOUNDARY at the offset 0, TEAR
POSITION, and the entry completes. -/
theorem State.endMove_tear_of_no_way {l : Link} {q : SeqNo} {r : MotionRun}
    (move : s.drive.move = some ⟨src, .tearAdvance, .forward, 0, false, 0, 0, 0, 0, s.form.form⟩)
    (source : src = .entry l q) (run : s.drive.run = some r) (kind : r.kind = .tear) (due : s.drive.due = none)
    (pending : s.form.pendingCorrection = none) (tear : s.form.tear = .atTear)
    (hu : u = { s with drive := ⟨.stopped, none, none, none⟩ })
    (crossed : s.form.offset = 0 → v = u.postBoth (.formBoundary s.form.form 0 s.map.len .forward s.form.trusted))
    (within : s.form.offset ≠ 0 → v = u) :
    s.endMove .done = ((v.postBoth (.tearPosition s.form.form s.form.offset s.form.tearDistance src)).post r.link
      (.moveDone r.link r.seq .tear .done none (some r.distance) r.moved r.back r.stalls s.form.form s.form.offset
        s.form.paper .atTear s.form.path s.form.trusted)).completeEntry r.link := by
  obtain ⟨y, hy⟩ : ∃ y : State, y = { s with drive := ⟨.stopped, none, none, some r⟩ } := ⟨_, rfl⟩
  have stopped : ({ s with drive := { s.drive with state := .stopped, move := none } } : State) = y := by
    dsimp only
    rw [hy, due, run]
  have form : y.form = s.form := by rw [hy]
  have uncorrected : y.phaseCorrection = y := by rw [State.phaseCorrection, form, pending]
  obtain ⟨x, edge, inside, xForm, xRun, hv⟩ : ∃ x : State,
      (s.form.offset = 0 → x = y.postBoth (.formBoundary s.form.form s.form.offset s.map.len .forward s.form.trusted)) ∧
      (s.form.offset ≠ 0 → x = y) ∧ x.form = s.form ∧ x.drive.run = some r ∧
      v = { x with drive := { x.drive with run := none } } := by
    by_cases boundary : s.form.offset = 0
    · exact ⟨_, fun _ => rfl, fun inside => absurd boundary inside, form, by rw [hy]; rfl,
        by rw [crossed boundary, hu, boundary, hy]; rfl⟩
    · exact ⟨y, fun zero => absurd zero boundary, fun _ => rfl, form, by rw [hy], by rw [within boundary, hu, hy]⟩
  obtain ⟨n, hn⟩ : ∃ n, n = Notice.tearPosition s.form.form s.form.offset s.form.tearDistance src := ⟨_, rfl⟩
  have ended := State.endMove_eq (s := s) (e := .done) (f := s.form) (v := y) (x := x) (y := x.postBoth n) (z := x.postBoth n) move
    (fun t same => same ▸ rfl) (fun jam => MoveEnd.noConfusion jam) (fun _ => by rw [stopped, uncorrected])
    (fun h => by rw [form] at h; rw [edge (h.resolve_right fun other => other rfl), hy])
    (fun h _ => inside (by rw [← form]; exact h))
    (by rw [if_neg MoveEnd.noConfusion, if_pos ⟨rfl, rfl⟩, xForm, hn]) ((x.postBoth n).haltMove_eq .done)
  have runs : (x.postBoth n).drive.run = some r := xRun
  rw [ended, (State.endSource_entry source runs rfl).2.2 rfl, MotionRun.add_of_no_way,
    State.runNext_of_last MoveKind.noConfusion MoveKind.noConfusion (fun h => MoveKind.noConfusion h)
      (by rintro (h | h) <;> cases h), State.completeRun_eq, kind, hv, ← hn, ← tear, ← xForm]
  rfl

end

/-! ## The kinds of move that prepare the record (R154, R156 to R158) -/

theorem freshEdge_eq (fitted : Bool) (path : PaperPath) :
    freshEdge fitted path = if fitted = true ∧ path = .tractor then .seeking else .off := by
  simp [freshEdge]

theorem State.prepareMove_eject {t : State} {p : PaperState}
    (left : (if t.form.paper.isTail then PaperState.none else t.form.paper) = p) :
    t.prepareMove .eject = { t with form := { t.form with paper := p } } := by
  rw [← left]
  rfl

/-- Settles O53: `execMoveStart_of_due` with the direction, the distance and the record of each kind of move. -/
theorem moveStartFixesTheDistance : Obligations.MoveStartFixesTheDistance := by
  intro s paper src k f go stopped car due hf hgo
  have starts {x : State} (searches : Bool) (g : FormPosition) (dir : MoveDir) (n : Nat) direction distance prepared hx :=
    execMoveStart_of_due (x := x) (searches := searches) (g := g) (dir := dir) (n := n) stopped car due (paper := paper)
      direction distance prepared hx
  refine ⟨fun dir n x fixed hx => ?_, fun n x kind hn hx => ?_,
    fun u v l q r kind short pending source run rKind hu crossed within => ?_, fun kind absent => ?_, fun learns kind present hlearns => ?_, fun kind => ?_, fun d kind tail far => ?_, fun kind away => ?_⟩
  · obtain ⟨direction, distance, prepared⟩ := State.fixedMove_spec ((s.readSensor_fixedMove paper k).trans fixed)
    refine starts false f dir n direction distance ?_ (hx.trans (hgo _ _))
    rw [prepared, hf]
    rfl
  · subst kind hf
    exact starts false _ .forward n rfl (congrArg (·, false) hn.symm) rfl (hx.trans (hgo _ _))
  · have no_way : (288 + s.map.trim - s.map.tof).toNat = 0 := by omega
    subst kind hf
    exact ((starts false { s.form with paperSensor := paper, tear := .atTear, tearDistance := 0 } .forward 0 rfl
      (congrArg (·, false) no_way) rfl rfl).2 rfl).trans (congrArg (fun t : State => Host.Outcome.next t.settle)
        (State.endMove_tear_of_no_way rfl source run rKind rfl pending rfl hu crossed within))
  · subst kind absent hf
    refine (starts true _ .forward 4320 rfl rfl ?_ (hgo _ _)).1 (by decide)
    rw [← freshEdge_eq]
    rfl
  · subst kind present hf
    obtain ⟨g, hg⟩ : ∃ g : FormPosition, g = { s.form with
      paperSensor := true, edge := freshEdge s.edgeFitted s.form.path
      previousEdge := if freshEdge s.edgeFitted s.form.path = .off then s.form.previousEdge else some s.form.odometer } := ⟨_, rfl⟩
    refine ⟨g, (starts false _ .forward (864 + s.map.tof) rfl rfl ?_ (hgo _ _)).1 (by omega), fun h => ?_, fun h => ?_⟩
    · rw [hg]
      rfl
    · have fresh : freshEdge s.edgeFitted s.form.path = .seeking := by
        rw [freshEdge_eq, if_pos (hlearns.mp h)]
      rw [hg, fresh]
      rfl
    · have off : freshEdge s.edgeFitted s.form.path = .off := by
        rw [freshEdge_eq, if_neg fun learning => h (hlearns.mpr learning)]
      rw [hg, off]
      rfl
  · subst kind hf
    exact (starts true _ .reverse 9504 rfl rfl rfl (hgo _ _)).1 (by decide)
  · subst kind hf
    refine (starts false _ .forward (d + 288).toNat rfl ?_ ?_ (hgo _ _)).1 (by omega)
    · rw [State.moveDistance, State.readSensor, State.modifyForm]
      dsimp only
      rw [tail]
    · exact State.prepareMove_eject (t := s.readSensor paper) (if_pos (by rw [State.readSensor, State.modifyForm, tail]; rfl))
  · subst kind hf
    refine (starts true _ .forward 9504 rfl ?_ ?_ (hgo _ _)).1 (by decide)
    · rw [State.moveDistance, State.readSensor, State.modifyForm]
      dsimp only
      split
      · next d tail => exact absurd tail (away d)
      · rfl
    · have out : s.form.paper.isTail = false := by
        cases paper : s.form.paper with
        | tail d => exact absurd paper (away d)
        | _ => rfl
      exact State.prepareMove_eject (t := s.readSensor paper) (if_neg (by rw [State.readSensor, State.modifyForm, out]; decide))

end Sys2Proof.Machine

namespace Sys2Proof.Machine

/-! ## Perforations and length learning (R135 to R140)

A forward step is taken in four stages: the record, the mark (`State.takeMark`), the aging (`State.takeAge`) and the sensor. The
lemmas give what each stage makes, and `State.formStep_forward` puts them together. -/

theorem PaperState.tailBy_eq_present (p : PaperState) (k : Int) : p.tailBy k = .present ↔ p = .present := by
  cases p <;> simp [PaperState.tailBy]

theorem PaperState.tailBy_eq_loading (p : PaperState) (k : Int) (b : Bool) : p.tailBy k = .loading b ↔ p = .loading b := by
  cases p <;> simp [PaperState.tailBy]

theorem FormPosition.carriesMark_iff (f : FormPosition) : f.carriesMark = true ↔ 0 < (f.odometer + 1 - f.forwardMark).toInt :=
  decide_eq_true_iff

theorem FormPosition.forward_forwardMark {f : FormPosition} (carries : f.carriesMark = true) (len : Nat) :
    (f.forward len).forwardMark = (f.forward len).odometer := if_pos (f.carriesMark_iff.mp carries)

section
variable {s : State}

theorem State.takesPerforations_iff : s.takesPerforations = true ↔ s.edgeFitted = true ∧ s.form.path = .tractor ∧
    s.form.edge ≠ .off ∧ (s.form.paper = .present ∨ s.form.paper = .loading true) := by
  simp [State.takesPerforations, and_assoc, or_comm]

/-! ### Aging (R140) -/

theorem State.agedOut_iff : s.agedOut = true ↔ (s.form.edge = .seeking ∨ s.form.edge = .locked) ∧
    ∃ p, s.form.previousEdge = some p ∧ 2 * (s.map.len : Int) < (s.form.forwardMark - p).toInt := by
  unfold State.agedOut
  cases s.form.previousEdge <;> simp [odoDiff]

theorem State.takeAge_of_not_aged (young : s.agedOut ≠ true) : s.takeAge = s := if_neg young

/-- A previous edge at the forward mark has not aged. -/
theorem State.takeAge_of_edge (edge : s.form.previousEdge = some s.form.forwardMark) : s.takeAge = s :=
  State.takeAge_of_not_aged fun aged => by
    obtain ⟨-, p, previous, old⟩ := State.agedOut_iff.mp aged
    rw [edge, Option.some.injEq] at previous
    rw [previous, sub_self, show (0 : Odo).toInt = 0 from rfl] at old
    omega

theorem State.takeAge_of_off (off : s.form.edge = .off) : s.takeAge = s :=
  State.takeAge_of_not_aged fun aged => by
    obtain ⟨learning, -⟩ := State.agedOut_iff.mp aged
    rw [off] at learning
    obtain h | h := learning <;> cases h

theorem State.age_of_none (none : s.map.learned = none) : s.age = ({ s with form := { s.form with
      candidate := .none, previousEdge := .none, pendingCorrection := .none, edge := .lost } } : State).postBoth
    (.edgeLost s.map.len 0 s.form.form s.form.offset) := by
  have map : { s.map with learned := .none } = s.map := by rw [← none]
  unfold State.age
  dsimp only [State.modifyMap, State.modifyForm]
  rw [map, none]
  rfl

theorem State.age_of_some {c n : Nat} (learned : s.map.learned = some c) (hn : n = s.map.programmed) :
    s.age = ({ s with
      form := { s.form with
        offset := s.form.offset % n, candidate := none, previousEdge := none, pendingCorrection := none, edge := .lost }
      map := { s.map with
        learned := none, tof := min s.map.tof (min 720 (n - 1)), skip := min s.map.skip (n / 2)
        stops := s.map.stops.filter (fun y => y < n) } } : State).postBoth
      (.edgeLost n (s.map.stops.filter (fun y => n ≤ y)).length s.form.form (s.form.offset % n)) := by
  unfold State.age
  dsimp only [State.modifyMap, State.modifyForm]
  rw [learned, hn]
  rfl

/-! ### A perforation event (R135, R137, R138) -/

theorem State.migrate_eq (s : State) (c : Nat) (e : Odo) : s.migrate c e = ({ s with
    form := { s.form with
      offset := s.form.offset % c, edge := .locked, pendingCorrection := some e, candidate := none }
    map := { s.map with
      learned := some c, tof := min s.map.tof (min 720 (c - 1)), skip := min s.map.skip (c / 2)
      stops := s.map.stops.filter (fun y => y < c) } } : State).postBoth
    (.formLength c s.map.len s.map.programmed (s.map.stops.filter (fun y => c ≤ y)).length s.form.form (s.form.offset % c)) := rfl

theorem State.perforation_of_loading {b : Bool} (loading : s.form.paper = .loading b) (e : Odo) :
    s.perforation e = { s with form := { s.form with previousEdge := some e } } := by
  rw [State.perforation, loading]
  rfl

theorem State.perforation_begins (present : s.form.paper = .present) (begins : s.form.edge = .lost ∨ s.form.previousEdge = none)
    (e : Odo) : s.perforation e = { s with form := { s.form with previousEdge := some e, edge := .seeking } } := by
  rw [State.perforation, present]
  obtain lost | none := begins
  · rw [lost]
    rfl
  · rw [none]
    cases s.form.edge <;> rfl

theorem State.perforation_measures {p : Odo} (present : s.form.paper = .present) (held : s.form.edge ≠ .lost)
    (previous : s.form.previousEdge = some p) (e : Odo) : s.perforation e = s.judgeLength p e := by
  rw [State.perforation, present, previous]
  cases edge : s.form.edge with
  | lost => exact absurd edge held
  | off | seeking | locked => rfl

theorem within3_iff (m : Int) (len : Nat) : within3 m len = true ↔ (len : Int) - 3 ≤ m ∧ m ≤ (len : Int) + 3 := by
  simp [within3]

theorem EdgeState.unlocked_of_learning {e : EdgeState} (on : e ≠ .off) (held : e ≠ .lost) : e.unlocked = .seeking := by
  cases e with
  | off => exact absurd rfl on
  | lost => exact absurd rfl held
  | seeking | locked => rfl

/-! The four outcomes of a measured length `m`; `near` and `far` compare it with the effective length. -/

section
variable {p e : Odo} {m : Int} (hm : m = (e - p).toInt)
include hm

theorem State.judgeLength_locks (near : (s.map.len : Int) - 3 ≤ m ∧ m ≤ s.map.len + 3) :
    s.judgeLength p e = { s with form := { s.form with
      previousEdge := some e, edge := .locked, pendingCorrection := some e, candidate := none } } := by
  subst hm
  exact if_pos ((within3_iff _ _).mpr near)

variable (far : ¬ ((s.map.len : Int) - 3 ≤ m ∧ m ≤ s.map.len + 3))
include far

theorem State.judgeLength_spurious (out : m < 144 ∨ 8640 < m) : s.judgeLength p e =
    { s with form := { s.form with previousEdge := some e, edge := s.form.edge.unlocked } } := by
  subst hm
  exact (if_neg fun near => far ((within3_iff _ _).mp near)).trans (if_pos out)

variable (length : ¬ (m < 144 ∨ 8640 < m))
include length

theorem State.judgeLength_candidate (other : ∀ c : Nat, s.form.candidate = some c → ¬ ((c : Int) - 3 ≤ m ∧ m ≤ c + 3)) :
    s.judgeLength p e = { s with form := { s.form with
      previousEdge := some e, edge := s.form.edge.unlocked, candidate := some m.toNat } } := by
  subst hm
  refine (if_neg fun near => far ((within3_iff _ _).mp near)).trans ((if_neg length).trans ?_)
  dsimp only [State.modifyForm]
  cases held : s.form.candidate with
  | none => rfl
  | some c => exact if_neg fun near => other c held ((within3_iff _ _).mp near)

theorem State.judgeLength_learns {c : Nat} (held : s.form.candidate = some c) (again : (c : Int) - 3 ≤ m ∧ m ≤ c + 3) :
    s.judgeLength p e = ({ s with form := { s.form with previousEdge := some e } } : State).migrate c e := by
  subst hm
  refine (if_neg fun near => far ((within3_iff _ _).mp near)).trans ((if_neg length).trans ?_)
  dsimp only [State.modifyForm]
  rw [held]
  exact if_pos ((within3_iff _ _).mpr again)

end

end

end Sys2Proof.Machine

namespace Sys2Proof.Machine

/-! ## A step of the Form Position Unit (R127, R135 to R141) -/

/-- The state whose record has made a forward step, with the mark, the aging and the sensor still to come. -/
def State.steppedForward (s : State) : State := { s with form := s.form.forward s.map.len }

section
variable {s : State} {paper mark : Bool}

theorem State.steppedForward_takesPerforations (s : State) : s.steppedForward.takesPerforations = s.takesPerforations := by
  rw [Bool.eq_iff_iff, State.takesPerforations_iff, State.takesPerforations_iff]
  show _ ∧ _ ∧ _ ∧ (s.form.paper.tailBy (-1) = _ ∨ s.form.paper.tailBy (-1) = _) ↔ _
  rw [PaperState.tailBy_eq_present, PaperState.tailBy_eq_loading]
  rfl

/-- A step whose mark is a perforation event leaves the previous edge at the forward mark, which has not aged. -/
theorem State.formStep_of_event {t : State} (carries : s.form.carriesMark = true) (takes : s.takesPerforations = true)
    (made : s.steppedForward.perforation (s.form.odometer + 1) = t) (edge : t.form.previousEdge = some t.form.forwardMark) :
    s.formStep .forward paper true = t.sensePaper .forward paper := by
  have taken : s.steppedForward.takeMark paper (true && s.form.carriesMark) = t := by
    rw [State.takeMark, State.steppedForward_takesPerforations, carries, takes, if_neg, ← made]
    · rfl
    · show s.form.paper.tailBy (-1) ≠ _
      rw [ne_eq, PaperState.tailBy_eq_loading]
      obtain ⟨-, -, -, present | arrived⟩ := State.takesPerforations_iff.mp takes
      · rw [present]; exact PaperState.noConfusion
      · rw [arrived]; decide
  exact (congrArg (fun u : State => u.takeAge.sensePaper .forward paper) taken).trans (by rw [State.takeAge_of_edge edge])

/-- A step without a perforation event and without a paper arrival. -/
theorem State.formStep_of_no_event (seeks : s.form.paper ≠ .loading false ∨ paper = false)
    (none : ¬ (mark = true ∧ s.form.carriesMark = true ∧ s.takesPerforations = true)) :
    s.formStep .forward paper mark = s.steppedForward.takeAge.sensePaper .forward paper := by
  have left : s.steppedForward.takeMark paper (mark && s.form.carriesMark) = s.steppedForward := by
    rw [State.takeMark, State.steppedForward_takesPerforations]
    split
    · next loading =>
      rw [(seeks.resolve_left fun other => other ((PaperState.tailBy_eq_loading _ _ _).mp loading))]
      rfl
    · exact if_neg (by rw [Bool.and_eq_true, Bool.and_eq_true, and_assoc]; exact none)
  exact congrArg (fun u : State => u.takeAge.sensePaper .forward paper) left

/-- A step with which paper arrives at the station. -/
theorem State.formStep_of_arrival (loading : s.form.paper = .loading false) :
    s.formStep .forward true mark = s.steppedForward.paperArrives.sensePaper .forward true := by
  have taken (marked : Bool) : s.steppedForward.takeMark true marked = s.steppedForward.paperArrives :=
    if_pos ((PaperState.tailBy_eq_loading _ _ _).mpr loading)
  have young : s.steppedForward.paperArrives.takeAge = s.steppedForward.paperArrives := by
    by_cases off : s.form.edge = .off
    · exact State.takeAge_of_off off
    · exact State.takeAge_of_edge (if_neg off)
  rw [← young, ← taken (mark && s.form.carriesMark)]
  rfl

end

/-! ## The paper sensor (R141) -/

section
variable {s : State} {d : MoveDir} {paper : Bool}

theorem State.sensePaper_of_away (tail : ∀ n, s.form.paper ≠ .tail n) (present : s.form.paper ≠ .present) :
    s.sensePaper d paper = { s with form := { s.form with paperSensor := paper } } := by
  unfold State.sensePaper State.modifyForm
  dsimp only
  cases held : s.form.paper with
  | tail n => exact absurd held (tail n)
  | present => exact absurd held present
  | _ => rfl

theorem State.sensePaper_of_tail {n : Int} (tail : s.form.paper = .tail n) : s.sensePaper d paper =
    { s with form := if paper then { s.form with paperSensor := paper, paper := .present }
      else { s.form with paperSensor := paper } } := by
  unfold State.sensePaper State.modifyForm
  dsimp only
  rw [tail]
  cases paper <;> rfl

theorem State.sensePaper_of_present (present : s.form.paper = .present) : s.sensePaper d paper =
    (match paper, d with
      | true, _ => { s with form := { s.form with paperSensor := paper, noPaperRun := 0 } }
      | false, .reverse => { s with form := { s.form with paperSensor := paper, noPaperRun := s.form.noPaperRun - 1 } }
      | false, .forward => if 72 ≤ s.form.noPaperRun + 1 then
          ({ s with form := { s.form with paperSensor := paper, paper := .tail 792, noPaperRun := 0 } } : State).postBoth
            (.paperOut s.form.form s.form.offset 792)
        else { s with form := { s.form with paperSensor := paper, noPaperRun := s.form.noPaperRun + 1 } }) := by
  unfold State.sensePaper State.modifyForm
  dsimp only
  rw [present]
  cases paper <;> cases d <;> rfl

end

/-- Settles O50: the stages of a step, the outcomes of a measured length (`State.judgeLength_locks` and the lemmas after it)
and the samples of the sensor. -/
theorem perforationsLearnTheLength : Obligations.PerforationsLearnTheLength := by
  refine ⟨fun s t paper e f beyond go present ht he hf hgo hbeyond => ?_,
    fun x d paper mark g w taken aged hg hw htaken haged => ?_, fun x d paper g w hg hw => ?_⟩
  · have eventful : beyond ↔ s.form.carriesMark = true ∧ s.takesPerforations = true := by
      rw [hbeyond, he, FormPosition.carriesMark_iff, State.takesPerforations_iff]
      tauto
    obtain rfl : go = fun g => ({ s with form := g } : State).sensePaper .forward paper := funext hgo
    subst ht he hf
    refine ⟨fun quiet => ?_, fun event => ?_⟩
    · rw [State.formStep_of_no_event (.inl (by rw [present]; exact PaperState.noConfusion)) fun h => quiet (eventful.mpr h.2),
        State.formStep_of_no_event (.inl (by rw [present]; exact PaperState.noConfusion)) fun h => Bool.noConfusion h.1]
    obtain ⟨carries, takes⟩ := eventful.mp event
    obtain ⟨-, -, on, -⟩ := hbeyond.mp event
    have here : s.steppedForward.form.paper = .present := (PaperState.tailBy_eq_present _ _).mpr present
    have mark : some (s.form.odometer + 1) = some (s.form.forward s.map.len).forwardMark :=
      congrArg some (FormPosition.forward_forwardMark carries s.map.len).symm
    refine ⟨fun begins => ?_, fun p m held previous hm => ?_⟩
    · exact State.formStep_of_event carries takes (State.perforation_begins here begins _) mark
    have measured := State.perforation_measures here held previous (s.form.odometer + 1)
    have unlocked : s.steppedForward.form.edge.unlocked = .seeking := EdgeState.unlocked_of_learning on held
    refine ⟨fun low high => ?_, fun out => ⟨fun short => ?_, fun low high other => ?_,
      fun c low high candidate near above => ?_⟩⟩
    · exact State.formStep_of_event carries takes (measured.trans (State.judgeLength_locks hm ⟨low, high⟩)) mark
    all_goals have far : ¬ ((s.map.len : Int) - 3 ≤ m ∧ m ≤ s.map.len + 3) := by omega
    · have judged := State.judgeLength_spurious (s := s.steppedForward) hm far short
      rw [unlocked] at judged
      exact State.formStep_of_event carries takes (measured.trans judged) mark
    · have judged := State.judgeLength_candidate (s := s.steppedForward) hm far (by omega)
        (fun c candidate => by have := other c candidate; omega)
      rw [unlocked] at judged
      exact State.formStep_of_event carries takes (measured.trans judged) mark
    · have judged := State.judgeLength_learns (s := s.steppedForward) hm far (by omega) candidate ⟨near, above⟩
      exact State.formStep_of_event carries takes (measured.trans (judged.trans (State.migrate_eq _ c _))) mark
  · obtain rfl : w = fun y => { x with form := y } := funext hw
    refine ⟨fun dir => ?_, fun dir loading there => ?_, fun loading event => ?_, fun dir seeks quiet => ?_⟩
    · subst dir hg
      rfl
    · subst dir hg there
      exact State.formStep_of_arrival loading
    · obtain ⟨marked, dir, fitted, path, on, beyond, -⟩ := htaken.mp event
      subst dir hg marked
      have carries := x.form.carriesMark_iff.mpr beyond
      exact State.formStep_of_event carries (State.takesPerforations_iff.mpr ⟨fitted, path, on, .inr loading⟩)
        (State.perforation_of_loading ((PaperState.tailBy_eq_loading _ _ _).mpr loading) _)
        (congrArg some (FormPosition.forward_forwardMark carries x.map.len).symm)
    · subst dir hg
      have none : ¬ (mark = true ∧ x.form.carriesMark = true ∧ x.takesPerforations = true) := by
        rintro ⟨marked, carries, takes⟩
        obtain ⟨fitted, path, on, paper⟩ := State.takesPerforations_iff.mp takes
        exact quiet (htaken.mpr ⟨marked, rfl, fitted, path, on, x.form.carriesMark_iff.mp carries, paper⟩)
      have judged : x.steppedForward.agedOut = true ↔ aged := State.agedOut_iff.trans haged.symm
      have step := State.formStep_of_no_event seeks none
      refine ⟨fun young => ?_, fun old none => ?_, fun c n old learned hn => ?_⟩
      · rw [step, State.takeAge_of_not_aged fun h => young (judged.mp h)]
        rfl
      · rw [step, State.takeAge, if_pos (judged.mpr old), State.age_of_none (s := x.steppedForward) none]
        rfl
      · rw [step, State.takeAge, if_pos (judged.mpr old), State.age_of_some (s := x.steppedForward) learned hn]
        rfl
  · obtain rfl : w = fun y => { x with form := y } := funext hw
    subst hg
    refine ⟨fun present there => ?_, fun present gone dir => ?_, fun present gone dir => ⟨fun few => ?_, fun many => ?_⟩,
      fun n tail => State.sensePaper_of_tail tail, State.sensePaper_of_away⟩
    · subst there
      exact State.sensePaper_of_present present
    · subst gone dir
      exact State.sensePaper_of_present present
    · subst gone dir
      exact (State.sensePaper_of_present present).trans (if_neg (by omega))
    · subst gone dir
      exact (State.sensePaper_of_present present).trans (if_pos (by omega))

end Sys2Proof.Machine

namespace Sys2Proof.Machine

/-! ## The grant order (R165, R166) -/

section
variable {s : State}

theorem State.headReady_iff {l : Link} : s.headReady l = true ↔ ∃ e, s.headEntry l = some e ∧ e.state = .queued := by
  unfold State.headReady
  cases s.headEntry l <;> simp [Entry.ready]

theorem State.urgentReady_iff : s.urgentReady = true ↔
    ∃ e f, s.headEntry .console = some e ∧ e.state = .queued ∧ e.record = .line f ∧ f.urgent = true := by
  unfold State.urgentReady
  cases s.headEntry .console with
  | none => simp
  | some e => cases h : e.record <;> simp [Entry.ready, Record.urgent, h]

theorem State.urgentReady_of_not_ready (waits : s.headReady .console = false) : s.urgentReady = false := by
  by_contra urgent
  obtain ⟨e, -, head, queued, -, -⟩ := State.urgentReady_iff.mp (eq_true_of_ne_false urgent)
  exact Bool.noConfusion (waits.symm.trans (State.headReady_iff.mpr ⟨e, head, queued⟩))

/-! ## The paper-tail check (R152, R167) -/

theorem Record.tailChecked_iff (r : Record) : r.tailChecked = true ↔ (∃ g, r = .line g) ∨
    (∃ n, r = .motion (.feed n) ∨ r = .motion (.reverse n)) ∨
      r = .motion .vtab ∨ r = .motion .formfeed ∨ r = .motion .tear := by
  cases r with
  | line f => simp [Record.tailChecked]
  | motion k => cases k <;> simp [Record.tailChecked, MotionKind.needsPaper]

theorem State.judgePaper_of_line {g : LineFields} (away : s.form.paper = .none ∨ s.form.paper = .parked) :
    s.judgePaper (.line g) = .noPaper := by
  rw [State.judgePaper]
  obtain none | parked := away
  · rw [none]; rfl
  · rw [parked]; rfl

theorem State.judgePaper_of_tail {d : Int} (r : Record) (tail : s.form.paper = .tail d) :
    s.judgePaper r = if r.tailChecked = true ∧ d - s.forwardTravel r ≤ 72 then .paperOut else .grant := by
  rw [State.judgePaper, tail]
  exact if_neg fun h => Bool.noConfusion h.2

theorem State.judgePaper_of_present (r : Record) (present : s.form.paper = .present) : s.judgePaper r = .grant := by
  rw [State.judgePaper, present]
  exact if_neg fun h => Bool.noConfusion h.2

theorem State.judgePaper_of_motion (k : MotionKind) (free : (∀ d, s.form.paper ≠ .tail d) ∨ (Record.motion k).tailChecked = false) :
    s.judgePaper (.motion k) = .grant := by
  cases paper : s.form.paper with
  | tail d =>
    rw [State.judgePaper_of_tail _ paper, free.resolve_left fun none => none d paper]
    rfl
  | _ =>
    rw [State.judgePaper, paper]
    rfl

/-! ## The forward travel (R155, R167, log entry 21) -/

theorem State.offsetAfterReturn_of_atTear {o : Nat} (tear : s.form.tear = .atTear)
    (offset : (o : Int) = (s.form.offset - s.form.tearDistance) % s.map.len) : s.offsetAfterReturn = o := by
  rw [State.offsetAfterReturn, if_pos tear, ← offset, Int.toNat_natCast]

theorem State.forwardReturn_of_atTear (tear : s.form.tear = .atTear) :
    s.forwardReturn = if s.form.tearDistance < 0 then s.form.tearDistance.natAbs else 0 :=
  if_congr (and_iff_right tear) rfl rfl

end

/-- Settles O19: the order by `State.select`'s branches, the check by the paper states, the travel by the tear states. -/
theorem grantOrderAndPaperCheck : Obligations.GrantOrderAndPaperCheck := by
  refine ⟨fun s => ⟨fun urgent => ?_, fun calm hold ready => ?_, fun calm hold waits => ?_, fun calm free ready => ?_,
      fun free waits ready => ?_, fun console job => ?_, fun l => State.headReady_iff, State.urgentReady_iff⟩,
    fun s r => ⟨?_, fun d tail checked => ?_, State.judgePaper_of_present r, ?_, r.tailChecked_iff, fun kinds => ?_⟩,
    fun s tear => ?_, fun s d o a tear positive hd ho ha => ?_⟩
  · simp [State.select, urgent]
  · simp [State.select, calm, hold, ready]
  · simp [State.select, calm, hold, waits]
  · simp [State.select, calm, free, ready]
  · simp [State.select, State.urgentReady_of_not_ready waits, free, waits, ready]
  · simp [State.select, State.urgentReady_of_not_ready console, console, job]
  · rintro g rfl away
    exact State.judgePaper_of_line away
  · rw [State.judgePaper_of_tail r tail, checked]
    by_cases short : d - s.forwardTravel r ≤ 72 <;> simp [short, Int.not_lt.mpr, Int.not_le.mp]
  · rintro k rfl away
    exact State.judgePaper_of_motion k (.inl away)
  · obtain rfl | rfl | ⟨p, rfl⟩ | ⟨p, rfl⟩ := kinds <;> exact State.judgePaper_of_motion _ (.inr rfl)
  · have stays : s.offsetAfterReturn = s.form.offset ∧ s.forwardReturn = 0 := by
      simp [State.offsetAfterReturn, State.forwardReturn, tear]
    obtain ⟨offset, back⟩ := stays
    simp [State.forwardTravel, State.lineTravel, FormMap.tearAdvanceDistance, offset, back, tear]
  · subst hd
    have offset := State.offsetAfterReturn_of_atTear tear ho
    have back := (State.forwardReturn_of_atTear tear).trans ha.symm
    simp [State.forwardTravel, State.lineTravel, offset, back, tear]

end Sys2Proof.Machine

namespace Sys2Proof.Machine

/-! ## The form map in bytes (R129, R192) -/

/-- The pieces of the bytes of the form map. -/
def FormMap.chunks (m : FormMap) : List (List Byte) :=
  [u16 m.programmed, optional 2 (m.learned.map u16), u16 m.tof, i8 m.trim, u16 m.skip, u8 m.stops.length,
    (m.stops.map u16).flatten, flagByte m.lock]

/-- The lengths of those pieces, for a number of stops. -/
def formMapLengths (n : Nat) : List Nat := [2, 3, 2, 1, 2, 1, 2 * n, 1]

section
variable {m : FormMap}

theorem FormMap.bytes_eq (m : FormMap) : m.bytes = m.chunks.flatten := by
  unfold FormMap.bytes FormMap.chunks stopBytes Machine.counted
  rw [List.length_map]
  simp only [List.flatten_cons, List.flatten_nil, List.append_nil, List.append_assoc]

theorem FormMap.chunks_lengths (m : FormMap) : m.chunks.map List.length = formMapLengths m.stops.length := by
  have stops : ((m.stops.map u16).flatten).length = 2 * m.stops.length := by
    rw [flatten_length (w := 2) (by simp), List.length_map]
  simp [FormMap.chunks, formMapLengths, stops]

theorem FormMap.bytes_length (m : FormMap) : m.bytes.length = 12 + 2 * m.stops.length := by
  rw [FormMap.bytes_eq, List.length_flatten, FormMap.chunks_lengths]
  simp only [formMapLengths, List.sum_cons, List.sum_nil]
  omega

/-- A piece of the bytes of the form map, by its place in the list of pieces. -/
theorem FormMap.field {a i : Nat} {c : List Byte} (hc : m.chunks[i]? = some c)
    (ha : ((formMapLengths m.stops.length).take i).sum = a) : StandsAt m.bytes a c :=
  .ofLengths m.bytes_eq m.chunks_lengths hc ha

theorem FormMap.field_learned (sound : m.Legal) :
    (m.learned = none → byteAt m.bytes 2 = 0) ∧ ∀ n, m.learned = some n → byteAt m.bytes 2 = 1 ∧ wordAt m.bytes 3 = n :=
  (FormMap.field (m := m) (i := 1) (a := 2) rfl rfl).readOptional (f := id) fun n learned => by
    have := (sound.learned n learned).2
    exact Nat.lt_of_le_of_lt this (by decide)

theorem FormMap.field_stop (sound : m.Legal) {i x : Nat} (stop : m.stops[i]? = some x) : wordAt m.bytes (11 + 2 * i) = x := by
  have list := FormMap.field (m := m) (i := 6) (a := 11) rfl rfl
  have piece : (m.stops.map u16)[i]? = some (u16 x) := by rw [List.getElem?_map, stop]; rfl
  have below := sound.below x (List.mem_of_getElem? stop)
  have len := sound.len_le
  exact (list.within (StandsAt.ofWidth (by simp) piece)).readWord (by omega)

end

/-! ## The SET FORM payload (R133, R192) -/

/-- The words of a list of byte pairs that stands behind ten bytes. -/
theorem wordAt_pairs {head : List Byte} (ten : head.length = 10) {xs : List (Byte × Byte)} {i : Nat} {x : Byte × Byte}
    (hx : xs[i]? = some x) :
    wordAt (head ++ (xs.map (fun x => [x.1, x.2])).flatten) (10 + 2 * i) = x.1.toNat + 256 * x.2.toNat := by
  have list : StandsAt (head ++ (xs.map (fun x => [x.1, x.2])).flatten) 10 (xs.map (fun x => [x.1, x.2])).flatten :=
    ⟨head, [], (List.append_nil _).symm, ten⟩
  have pair : (xs.map (fun x => [x.1, x.2]))[i]? = some [x.1, x.2] := by rw [List.getElem?_map, hx]; rfl
  have width : ∀ c ∈ xs.map (fun x => [x.1, x.2]), c.length = 2 := fun c hc => by
    obtain ⟨y, -, rfl⟩ := List.mem_map.mp hc
    rfl
  exact (list.within (StandsAt.ofWidth width pair)).word (i := 0) (Nat.lt_succ_self 1)

/-- Settles O20: the frame is taken by `State.takeSetForm`; the payload and the map are read by the places of their fields. -/
theorem setFormAnswered : Obligations.SetFormAnswered := by
  refine ⟨fun l bytes s f hf kind => ?_, fun m l0 l1 t0 t1 d k0 k1 lock n xs count => ?_, fun m b sound hb => ?_⟩
  · have run : exec (.setForm l bytes) s = .next ((s.heard l bytes).takeSetForm l f) :=
      congrArg Host.Outcome.next (State.request_of_frameOf State.takeSetForm hf kind)
    have answer (st : Status) (p : List Byte) : f.answer st p = ⟨0x83, f.tag, st, p⟩ := by
      rw [Frame.answer, kind]
      rfl
    refine ⟨fun job field => ?_, fun job field locked => ?_, fun x allowed hx => ?_⟩
    · rw [run, State.takeSetForm, if_pos ⟨job, field⟩, State.respond, answer]
      rfl
    · rw [run, State.takeSetForm, if_neg fun h => Bool.noConfusion (field.symm.trans h.2), if_pos ⟨job, locked⟩, State.respond,
        answer]
      rfl
    · have open_field : ¬ (l = .job ∧ (setFormOf f.payload).lock = true) := by
        rintro ⟨rfl, field⟩
        obtain console | ⟨clear, -⟩ := allowed
        · exact Link.noConfusion console
        · exact Bool.noConfusion (clear.symm.trans field)
      have open_lock : ¬ (l = .job ∧ (s.heard l bytes).map.lock = true) := by
        rintro ⟨rfl, lock⟩
        obtain console | ⟨-, clear⟩ := allowed
        · exact Link.noConfusion console
        · exact Bool.noConfusion (clear.symm.trans lock)
      rw [run, State.takeSetForm, if_neg open_field, if_neg open_lock, hx]
      dsimp only
      rw [State.respond, answer]
      rfl
  · have stops : (List.range (byteAt ([m, l0, l1, t0, t1, d, k0, k1, lock, n] ++ (xs.map (fun x => [x.1, x.2])).flatten) 9)).map
        (fun i => wordAt ([m, l0, l1, t0, t1, d, k0, k1, lock, n] ++ (xs.map (fun x => [x.1, x.2])).flatten) (10 + 2 * i)) =
          xs.map (fun x => x.1.toNat + 256 * x.2.toNat) := by
      refine List.ext_getElem (by rw [List.length_map, List.length_map, List.length_range, count]; rfl) fun i hi hj => ?_
      rw [List.getElem_map, List.getElem_map, List.getElem_range]
      exact wordAt_pairs rfl (List.getElem?_eq_getElem _)
    rw [setFormOf, stops]
    rfl
  · subst hb
    have len := sound.len_le
    have programmed := sound.programmed.2
    have tof := sound.tof
    have skip := sound.skip
    have few := sound.few
    obtain ⟨absent, present⟩ := FormMap.field_learned sound
    refine ⟨m.bytes_length, (FormMap.field (i := 0) rfl rfl).readWord (by omega), ?_,
      (FormMap.field (i := 2) rfl rfl).readWord (by omega), (FormMap.field (i := 3) rfl rfl).readByte (BitVec.isLt _),
      (FormMap.field (i := 4) rfl rfl).readWord (by omega), (FormMap.field (i := 5) rfl rfl).readByte (by omega),
      fun i x => FormMap.field_stop sound, (FormMap.field (i := 7) rfl ?_).readFlag⟩
    · cases learned : m.learned with
      | none => exact absent learned
      | some n => exact present n learned
    · simp only [formMapLengths, List.take, List.sum_cons, List.sum_nil]
      omega

end Sys2Proof.Machine

namespace Sys2Proof.Machine

/-! ## The Arbiter's timers as they are judged (R168, R170, R175, log entry 18) -/

section
variable {s : State}

/-- The idle-release timer is started by its four conditions together (R170). -/
theorem State.judgeIdleTimer_starts (hold : s.arb.hold = true) (empty : s.store.job.queue = []) (free : s.arb.granted = none)
    (still : s.arb.idleTimer = none) : s.judgeIdleTimer.arb.idleTimer = some (s.arb.head.idleRelease * 5000000) := by
  rw [State.judgeIdleTimer, if_pos ⟨hold, empty, free, still⟩]
  rfl

theorem State.judgeIdleTimer_of_not (other : s.arb.hold = false ∨ s.store.job.queue ≠ [] ∨ s.arb.granted ≠ none ∨
    s.arb.idleTimer ≠ none) : s.judgeIdleTimer = s := by
  refine if_neg fun ⟨hold, empty, free, still⟩ => ?_
  obtain shut | waiting | busy | runs := other
  · exact Bool.noConfusion (hold.symm.trans shut)
  · exact waiting empty
  · exact busy free
  · exact runs still

theorem State.judgeIdleTimer_autoTimer (s : State) : s.judgeIdleTimer.arb.autoTimer = s.arb.autoTimer := by
  unfold State.judgeIdleTimer
  split <;> rfl

/-- The start of the idle-release timer is no matter for the conditions of the auto-tear timer. -/
theorem State.judgeIdleTimer_tearCondition (s : State) : s.judgeIdleTimer.tearCondition = s.tearCondition := by
  unfold State.judgeIdleTimer
  split <;> rfl

theorem State.tearCondition_iff : s.tearCondition = true ↔ s.engine = .idle ∧ s.store.job.queue = [] ∧
    s.store.console.queue = [] ∧ s.form.path = .tractor ∧ s.form.paper = .present ∧ s.form.offset = 0 ∧
      s.form.tear = .atPrint ∧ s.arb.head.autoTear ≠ 0 := by
  simp only [State.tearCondition, State.isIdle, Bool.and_eq_true, decide_eq_true_eq, List.isEmpty_iff, and_assoc]

theorem State.judgeTearTimer_idleTimer (s : State) : s.judgeTearTimer.arb.idleTimer = s.arb.idleTimer := by
  unfold State.judgeTearTimer
  split
  · split <;> rfl
  · rfl

theorem State.judgeTearTimer_starts (tear : s.tearCondition = true) (still : s.arb.autoTimer = none) :
    s.judgeTearTimer.arb.autoTimer = some (s.arb.head.autoTear * 10000000) := by
  rw [State.judgeTearTimer, if_pos tear, if_pos still]
  rfl

theorem State.judgeTearTimer_runs (tear : s.tearCondition = true) (runs : s.arb.autoTimer ≠ none) : s.judgeTearTimer = s := by
  rw [State.judgeTearTimer, if_pos tear, if_neg runs]

theorem State.judgeTearTimer_stops (other : s.tearCondition ≠ true) : s.judgeTearTimer.arb.autoTimer = none := by
  rw [State.judgeTearTimer, if_neg other]
  rfl

theorem State.judgeTimers_idleTimer (s : State) : s.judgeTimers.arb.idleTimer = s.judgeIdleTimer.arb.idleTimer :=
  s.judgeIdleTimer.judgeTearTimer_idleTimer

/-- The auto-tear timer starts when its conditions come to hold (R175). -/
theorem State.judgeTimers_tear_starts (tear : s.tearCondition = true) (still : s.arb.autoTimer = none) :
    s.judgeTimers.arb.autoTimer = some (s.arb.head.autoTear * 10000000) := by
  rw [State.judgeTimers, State.judgeTearTimer_starts (s.judgeIdleTimer_tearCondition.trans tear)
    (s.judgeIdleTimer_autoTimer.trans still), State.judgeIdleTimer_head]

/-- The auto-tear timer runs on while its conditions hold (R175). -/
theorem State.judgeTimers_tear_runs (tear : s.tearCondition = true) (runs : s.arb.autoTimer ≠ none) :
    s.judgeTimers.arb.autoTimer = s.arb.autoTimer := by
  have on : s.judgeIdleTimer.arb.autoTimer ≠ none := s.judgeIdleTimer_autoTimer ▸ runs
  rw [State.judgeTimers, State.judgeTearTimer_runs (s.judgeIdleTimer_tearCondition.trans tear) on, State.judgeIdleTimer_autoTimer]

/-- The auto-tear timer stops when one of its conditions ends (R175). -/
theorem State.judgeTimers_tear_stops (other : s.tearCondition ≠ true) : s.judgeTimers.arb.autoTimer = none :=
  State.judgeTearTimer_stops (s.judgeIdleTimer_tearCondition ▸ other)

/-! ## The expiry of a timer (R154, R169, R170, R175) -/

theorem State.exec_idleRelease_of_running {n : Nat} (runs : s.arb.idleTimer = some n) :
    exec .idleReleaseTimerExpiry s = .next s.releaseHold.settle :=
  if_pos (Option.isSome_of_eq_some runs)

theorem State.exec_automaticTear_of_running {n : Nat} (runs : s.arb.autoTimer = some n) :
    exec .automaticTear s = .next (s.modifyArb (fun a => { a with autoTimer := none })).askTear.settle :=
  if_pos (Option.isSome_of_eq_some runs)

/-- The tear advance falls due on the TRACTOR path with paper PRESENT (R154). -/
theorem State.askTear_of_present (path : s.form.path = .tractor) (paper : s.form.paper = .present) :
    s.askTear = s.setDue (some ⟨.auto, .tearAdvance⟩) :=
  if_pos ⟨path, paper⟩

theorem State.askTear_of_other (other : s.form.path = .sheet ∨ s.form.paper ≠ .present) : s.askTear = s := by
  refine if_neg fun ⟨path, paper⟩ => ?_
  obtain sheet | away := other
  · exact PaperPath.noConfusion (path.symm.trans sheet)
  · exact away paper

end

/-! ## A tally unit and its qualified edge (R178, R179) -/

section
variable {s : State} {u : Fin 2}

@[simp] theorem State.modifyTally_tallyUnit (s : State) (u : Fin 2) (f : TallyUnit → TallyUnit) :
    (s.modifyTally u f).tallyUnit u = f (s.tallyUnit u) :=
  Vector.getElem_set_self u.isLt

/-- Two changes of one unit are the change by the one and then the other. -/
theorem State.modifyTally_modifyTally (s : State) (u : Fin 2) (f g : TallyUnit → TallyUnit) :
    (s.modifyTally u f).modifyTally u g = s.modifyTally u (fun t => g (f t)) := by
  rw [State.modifyTally, State.modifyTally_tallyUnit, State.modifyTally_tally, Vector.set_set]
  rfl

theorem State.exec_tallyRise (low : (s.tallyUnit u).qual = .low) :
    exec (.tallyInputChange u true) s = .next (s.modifyTally u (fun t => { t with qual := .rising 0 })) := by
  have risen : (s.tallyUnit u).qual.input true = .rising 0 := by rw [low]; rfl
  exact congrArg (fun q => Host.Outcome.next (s.modifyTally u (fun t => { t with qual := q }))) risen

theorem State.exec_tallyFall : exec (.tallyInputChange u false) s = .next (s.modifyTally u (fun t => { t with qual := .low })) :=
  rfl

theorem State.exec_qualifiedEdge_of_rising {n : Nat} (rising : (s.tallyUnit u).qual = .rising n) :
    exec (.qualifiedEdge u) s = .next ((s.modifyTally u (fun t => { t with qual := .high })).qualifiedEdge u).settle := by
  show execQualifiedEdge u s = _
  rw [execQualifiedEdge, rising]

variable {t : TallyUnit}

theorem State.qualifiedEdge_of_off (unit : s.tallyUnit u = t) (off : t.mode = .off) : s.qualifiedEdge u = s := by
  simp only [State.qualifiedEdge, unit, off]

theorem State.qualifiedEdge_of_masked (unit : s.tallyUnit u = t) (on : t.mode ≠ .off) (masked : t.unmasked = false) :
    s.qualifiedEdge u = s.modifyTally u (fun t => { t with latch := true }) := by
  cases mode : t.mode with
  | off => exact absurd mode on
  | edge | count => simp only [State.qualifiedEdge, unit, mode, masked]

theorem State.qualifiedEdge_of_edge (unit : s.tallyUnit u = t) (edge : t.mode = .edge) (unmasked : t.unmasked = true) :
    s.qualifiedEdge u = s.release u .edge := by
  simp only [State.qualifiedEdge, unit, edge, unmasked]

/-- In COUNT mode the edge counts down, and releases at 1 (R179). -/
theorem State.qualifiedEdge_of_count (unit : s.tallyUnit u = t) (count : t.mode = .count) (unmasked : t.unmasked = true) :
    s.qualifiedEdge u = if t.present = 0 then s
      else if t.present = 1 then (s.modifyTally u (fun t => { t with present := t.armed })).release u .count
      else s.modifyTally u (fun t => { t with present := t.present - 1 }) := by
  simp only [State.qualifiedEdge, unit, count, unmasked]

end

/-- Settles O55: each timer by the judgement that starts it, and by its expiry; each input by the rows of R179, where the
change of the unit by its edge follows that of its qualification (`State.modifyTally_modifyTally`). -/
theorem timersAndTallyInputs : Obligations.TimersAndTallyInputs := by
  unfold Obligations.TimersAndTallyInputs
  intro s
  refine ⟨⟨s.judgeTimers.arb.idleTimer, s.judgeTimers.arb.autoTimer, s.judgeTimers_frame, fun hold empty free still => ?_,
    fun other => ?_, fun c hc => ?_⟩, fun n runs => State.exec_idleRelease_of_running runs, fun n runs path paper => ?_,
    fun n runs other => ?_, fun i t go ht hgo => ?_⟩
  · exact s.judgeTimers_idleTimer.trans (State.judgeIdleTimer_starts hold empty free still)
  · rw [s.judgeTimers_idleTimer, State.judgeIdleTimer_of_not other]
  · have condition : s.tearCondition = true ↔ c := State.tearCondition_iff.trans hc.symm
    exact ⟨fun holds => State.judgeTimers_tear_starts (condition.mpr holds),
      fun holds => State.judgeTimers_tear_runs (condition.mpr holds),
      fun other => State.judgeTimers_tear_stops (other ∘ condition.mp)⟩
  · rw [State.exec_automaticTear_of_running runs, State.askTear_of_present (s := s.modifyArb _) path paper]
    rfl
  · rw [State.exec_automaticTear_of_running runs, State.askTear_of_other (s := s.modifyArb _) other]
    rfl
  · obtain rfl : go = fun x => s.modifyTally i (fun _ => x) := funext hgo
    subst ht
    refine ⟨State.exec_tallyRise, State.exec_tallyFall, fun n rising => ?_⟩
    have unit := s.modifyTally_tallyUnit i (fun t => { t with qual := .high })
    rw [State.exec_qualifiedEdge_of_rising rising]
    refine ⟨fun off => ?_, fun on masked => ?_, fun edge unmasked => ?_, fun count unmasked zero => ?_,
      fun count unmasked one => ?_, fun count unmasked more => ?_⟩
    · rw [State.qualifiedEdge_of_off unit off]
      rfl
    · rw [State.qualifiedEdge_of_masked unit on masked, State.modifyTally_modifyTally]
      rfl
    · rw [State.qualifiedEdge_of_edge unit edge unmasked]
      rfl
    all_goals rw [State.qualifiedEdge_of_count unit count unmasked]
    · rw [if_pos zero]
      rfl
    · have nonzero : (s.tallyUnit i).present ≠ 0 := by rw [one]; decide
      rw [if_neg nonzero, if_pos one, State.modifyTally_modifyTally]
      rfl
    · have nonzero : (s.tallyUnit i).present ≠ 0 := by bv_omega
      have other : (s.tallyUnit i).present ≠ 1 := by bv_omega
      rw [if_neg nonzero, if_neg other, State.modifyTally_modifyTally]
      rfl

end Sys2Proof.Machine

namespace Sys2Proof.Machine

/-! ## The payload of a tally request (R183, R192) -/

/-- The bounds of R183: a mode above COUNT is COUNT. -/
theorem tallyModeOf_eq (n : Nat) : tallyModeOf n = if n = 0 then .off else if n = 1 then .edge else .count := by
  match n with
  | 0 => rfl
  | 1 => rfl
  | n + 2 => rfl

/-- A word of the payload has its low byte first (R192). -/
theorem ofNat_wordBytes (lo hi : Byte) : BitVec.ofNat 16 (lo.toNat + 256 * hi.toNat) = hi ++ lo := by
  have below := lo.isLt
  refine BitVec.eq_of_toNat_eq ?_
  rw [BitVec.toNat_append, ← Nat.shiftLeft_add_eq_or_of_lt below, Nat.shiftLeft_eq, BitVec.toNat_ofNat]
  omega

/-! ## The oldest HELD record and the pending latch (R179) -/

theorem TallyUnit.latchReady_iff {t : TallyUnit} :
    t.latchReady = true ↔ t.unmasked = true ∧ t.mode ≠ .off ∧ t.latch = true := by
  simp only [TallyUnit.latchReady, Bool.and_eq_true, decide_eq_true_eq, and_assoc]

section
variable {s : State} {i : Fin 2}

/-- None is found over both links just when no entry of either queue is HELD for the input. -/
theorem State.oldestHeld_eq_none_iff :
    s.oldestHeld i = none ↔ ∀ k, ∀ e ∈ (s.store.get k).queue, e.heldFor i = false := by
  refine ⟨fun none k e he => ?_, State.oldestHeld_none⟩
  by_contra held
  have found := State.oldestHeld_isSome he (eq_true_of_ne_false held)
  rw [none] at found
  exact Bool.noConfusion found

/-- A latch that is ready and finds a record is consumed by the release it makes (R179). -/
theorem State.latchRelease_of_ready (ready : (s.tallyUnit i).latchReady = true) (found : (s.oldestHeld i).isSome = true) :
    s.latchRelease i = (s.modifyTally i (fun t => { t with latch := false })).release i .latch :=
  if_pos ⟨ready, found⟩

theorem State.latchRelease_of_not (other : (s.tallyUnit i).latchReady ≠ true ∨ s.oldestHeld i = none) :
    s.latchRelease i = s := by
  refine if_neg fun ⟨ready, found⟩ => ?_
  obtain shut | none := other
  · exact shut ready
  · rw [none] at found
    exact Bool.noConfusion found

end

/-! ## The four tally requests (R177, R183) -/

section
variable {s v : State} {l : Link} {f : Frame} {i : Fin 2}

theorem tallyInputOf_cons {b : Byte} {rest : List Byte} (payload : f.payload = b :: rest)
    (input : i = if b.toNat = 0 then 0 else 1) : tallyInputOf f.payload = i := by
  rw [payload, input]
  rfl

/-- The answer of a tally request carries every field of its unit (R177). -/
theorem State.respondTally_eq {k : ReqKind} (kind : f.kind = k) (s : State) (l : Link) (i : Fin 2) :
    s.respondTally l f i = s.answered l ⟨responseKind k.code, f.tag, .ok, (s.tallyUnit i).bytes⟩ := by
  rw [State.respondTally, State.respond, Frame.answer, kind]
  rfl

/-- TALLY SET writes the mode and the set value; from OFF it may release from the latch (R177, R179). -/
theorem State.takeTallySet_eq {b m lo hi : Byte} (payload : f.payload = [b, m, lo, hi]) (input : tallyInputOf f.payload = i)
    {u : State} (hu : u = s.modifyTally i (fun t => { t with
      mode := if m.toNat = 0 then .off else if m.toNat = 1 then .edge else .count
      setValue := hi ++ lo }))
    (on : (s.tallyUnit i).mode ≠ .off → v = u) (off : (s.tallyUnit i).mode = .off → v = u.latchRelease i) :
    s.takeTallySet l f = (v.respondTally l f i).settle := by
  have mode : byteAt f.payload 1 = m.toNat := by rw [payload]; rfl
  have value : BitVec.ofNat 16 (wordAt f.payload 2) = hi ++ lo := by
    rw [← ofNat_wordBytes, payload]
    rfl
  rw [State.takeTallySet, input, mode, value, tallyModeOf_eq]
  rw [← hu]
  split
  · next was => rw [off was]
  · next was => rw [on was]

/-- TALLY MASK writes the mask; an unmasking may release from the latch (R177, R179). -/
theorem State.takeTallyMask_eq {b m : Byte} (payload : f.payload = [b, m]) (input : tallyInputOf f.payload = i)
    {u : State} (hu : u = s.modifyTally i (fun t => { t with unmasked := m.toNat != 0 }))
    (masks : m.toNat = 0 → v = u) (unmasks : m.toNat ≠ 0 → v = u.latchRelease i) :
    s.takeTallyMask l f = (v.respondTally l f i).settle := by
  have mask : byteAt f.payload 1 = m.toNat := by rw [payload]; rfl
  have flag : decide (m.toNat ≠ 0) = (m.toNat != 0) := by cases m.toNat <;> rfl
  rw [State.takeTallyMask, input, mask]
  rw [flag, ← hu]
  split
  · next nonzero => rw [unmasks nonzero]
  · next zero => rw [masks (not_not.mp zero)]

end

/-- Settles O28: each frame is taken by its request, whose unit and answer are read off; the latch by its readiness and the
oldest HELD record. -/
theorem tallyRequestsWriteTheUnit : Obligations.TallyRequestsWriteTheUnit := by
  unfold Obligations.TallyRequestsWriteTheUnit
  intro l bytes s f b rest i hf payload value
  have input := tallyInputOf_cons payload value
  refine ⟨fun m lo hi u v kind tail hu on off => ?_, fun u kind hu => ?_, fun m u v kind tail hu masks unmasks => ?_,
    fun u kind hu => ?_, fun u unmasked on latch found => ?_, fun u other => ?_,
    fun u => ⟨State.oldestHeld_eq_none_iff, TallyUnit.latchReady_iff⟩⟩
  · have run : exec (.tallySet l bytes) s = .next ((s.heard l bytes).takeTallySet l f) :=
      congrArg Host.Outcome.next (State.request_of_frameOf State.takeTallySet hf kind)
    rw [run, State.takeTallySet_eq (tail ▸ payload) input hu on off, State.respondTally_eq kind]
    rfl
  · have run : exec (.tallyArm l bytes) s = .next ((s.heard l bytes).takeTallyArm l f) :=
      congrArg Host.Outcome.next (State.request_of_frameOf State.takeTallyArm hf kind)
    rw [run, State.takeTallyArm, input, ← hu, State.respondTally_eq kind]
    rfl
  · have run : exec (.tallyMask l bytes) s = .next ((s.heard l bytes).takeTallyMask l f) :=
      congrArg Host.Outcome.next (State.request_of_frameOf State.takeTallyMask hf kind)
    rw [run, State.takeTallyMask_eq (tail ▸ payload) input hu masks unmasks, State.respondTally_eq kind]
    rfl
  · have run : exec (.tallyClear l bytes) s = .next ((s.heard l bytes).takeTallyClear l f) :=
      congrArg Host.Outcome.next (State.request_of_frameOf State.takeTallyClear hf kind)
    rw [run, State.takeTallyClear, input, ← hu, State.respondTally_eq kind]
    rfl
  · exact State.latchRelease_of_ready (TallyUnit.latchReady_iff.mpr ⟨unmasked, on, latch⟩) found
  · refine State.latchRelease_of_not ?_
    simpa only [ne_eq, TallyUnit.latchReady_iff, not_and_or, not_not, Bool.not_eq_true, or_assoc] using other

end Sys2Proof.Machine

namespace Sys2Proof.Machine

/-! ## One byte at the receiver, case by case (R181, R191) -/

/-- The codes of the kinds are 0 to 15 (R191). -/
theorem kindOfByte_isSome_iff (b : Byte) : (kindOfByte b).isSome = true ↔ b.toNat < 16 := by
  simp [kindOfByte, ReqKind.all]

/-- The good lengths of a kind: those of a SET FORM are 10 and 2 for each of up to 16 stops (R181, R191). -/
theorem lengthGood_iff (k : ReqKind) (n : Nat) : lengthGood k n = true ↔ n ≤ 16384 ∧
    (∀ m, k.fixedLength = some m → n = m) ∧ (k = .setForm → ∃ j, j ≤ 16 ∧ n = 10 + 2 * j) := by
  have stops : (10 ≤ n ∧ n ≤ 42) ∧ n % 2 = 0 ↔ ∃ j, j ≤ 16 ∧ n = 10 + 2 * j :=
    ⟨fun h => ⟨(n - 10) / 2, by omega, by omega⟩, fun ⟨j, _, _⟩ => by omega⟩
  cases k <;> simp [lengthGood, ReqKind.fixedLength, ← stops]

section
variable (k : ReqKind) (tag lo hi b : Byte)

/-- The first byte of a frame names no kind. -/
theorem rxByte_unknownKind (h : 16 ≤ b.toNat) : rxByte (.header []) b = rxBad b none .unknownKind 1 := by
  have unknown : kindOfByte b = none := List.getElem?_eq_none h
  simp only [rxByte, unknown]

/-- The first byte of a frame names its kind. -/
theorem rxByte_kind (h : b.toNat < 16) : rxByte (.header []) b = rxTo (.header [b]) := by
  obtain ⟨k, known⟩ := Option.isSome_iff_exists.mp ((kindOfByte_isSome_iff b).mpr h)
  simp only [rxByte, known]

/-- The last byte of a header of a known kind judges the declared length. -/
theorem rxByte_header (n : Nat) (hn : lo.toNat + 256 * hi.toNat = n) :
    rxByte (.header [k.code, tag, lo]) hi =
      if lengthGood k n = true then if n = 0 then rxDone k tag [] else rxTo (.payload k tag n [])
      else rxBad k.code (some tag) .length 4 := by
  subst hn
  simp only [rxByte, rxHeader, kindOfByte_code]
  cases lengthGood k (lo.toNat + 256 * hi.toNat) <;> rfl

variable (n : Nat) (got : List Byte)

/-- Byte 9 of a SET FORM payload does not agree with the declared length. -/
theorem rxByte_stopCount (h : got.length = 9) (disagrees : n ≠ 10 + 2 * b.toNat) :
    rxByte (.payload .setForm tag n got) b = rxBad 0x03 (some tag) .length 14 :=
  if_pos ⟨rfl, by simp [h], disagrees⟩

/-- Any other payload byte joins the payload, which it may complete. -/
theorem rxByte_payload (agrees : k = .setForm → got.length = 9 → n = 10 + 2 * b.toNat) :
    rxByte (.payload k tag n got) b =
      if n ≤ got.length + 1 then rxDone k tag (got ++ [b]) else rxTo (.payload k tag n (got ++ [b])) := by
  have good : ¬ (k = .setForm ∧ (got ++ [b]).length = 10 ∧ n ≠ 10 + 2 * b.toNat) := by
    rintro ⟨kind, ninth, disagrees⟩
    exact disagrees (agrees kind (by simpa using ninth))
  calc rxByte (.payload k tag n got) b
    _ = if n ≤ (got ++ [b]).length then rxDone k tag (got ++ [b]) else rxTo (.payload k tag n (got ++ [b])) := if_neg good
    _ = _ := by rw [List.length_append, List.length_singleton]

end

/-! ## A select period (R180 to R182) -/

/-- While SEL is low a byte that completes no frame moves the receiver and the byte position alone (R180, R181). -/
theorem State.byteArrives_of_quiet {s : State} {l : Link} {b : Byte} {r : RxState} (low : (s.port.get l).selLow = true)
    (quiet : rxByte (s.port.get l).rx b = rxTo r) : s.byteArrives l b = s.receive l r 1 := by
  simp only [State.byteArrives, if_pos low, quiet, rxTo]

/-- While SEL is low the byte that completes a frame takes its request (R181). -/
theorem State.byteArrives_of_taken {s : State} {l : Link} {b : Byte} {f : Frame} (low : (s.port.get l).selLow = true)
    (taken : (rxByte (s.port.get l).rx b).taken = some f) :
    s.byteArrives l b = (s.heard l [b]).takeRequest l f := by
  simp only [State.byteArrives, if_pos low, taken, rxByte_taken taken]
  rfl

/-- A response on the wire: the five bytes of its header, then its payload (R191). -/
theorem Response.wire_eq (r : Response) : r.wire = r.kindByte :: r.tag :: BitVec.ofNat 8 r.status.code ::
    BitVec.ofNat 8 r.payload.length :: BitVec.ofNat 8 (r.payload.length / 256) :: r.payload := rfl

theorem Response.wire_length (r : Response) : r.wire.length = 5 + r.payload.length := by
  rw [Response.wire_eq, Nat.add_comm]
  rfl

theorem LinkPort.sdo_of_high {p : LinkPort} (high : p.selLow = false) : p.sdo = none := by
  simp [LinkPort.sdo, high]

theorem LinkPort.sdo_of_none {p : LinkPort} (low : p.selLow = true) (pending : p.response = none) : p.sdo = some 0xFF := by
  simp [LinkPort.sdo, low, pending]

theorem LinkPort.sdo_of_some {p : LinkPort} {r : Response} (low : p.selLow = true) (pending : p.response = some r) :
    p.sdo = some ((r.wire[p.position]?).getD 0xFF) := by
  simp [LinkPort.sdo, low, pending]

/-- A byte of the response stands on SDO in its own byte position (R180, R191). -/
theorem LinkPort.sdo_of_wire {p : LinkPort} {r : Response} {b : Byte} (low : p.selLow = true)
    (pending : p.response = some r) (byte : r.wire[p.position]? = some b) : p.sdo = some b := by
  rw [LinkPort.sdo_of_some low pending, byte, Option.getD_some]

theorem LinkPort.selectFalls_of_high {p : LinkPort} (high : p.selLow = false) :
    p.selectFalls = { p with selLow := true, rx := .header [], position := 0, built := none } := by
  simp [LinkPort.selectFalls, high]

theorem LinkPort.selectRises_of_low {p : LinkPort} (low : p.selLow = true) : p.selectRises =
    { p with selLow := false, rx := .idle, position := 0, built := none, response := p.responseAtRise } := if_pos low

/-- A frame that is bad at the rise of SEL is answered MALFORMED (R182). -/
theorem LinkPort.responseAtRise_of_malformed {p : LinkPort} {b : BadFrame} (bad : p.rx.malformed = some b) :
    p.responseAtRise = some b.response := by
  rw [LinkPort.responseAtRise, bad]

/-- With no bad frame the response built in the period becomes pending, else the one before stays (R182). -/
theorem LinkPort.responseAtRise_of_sound {p : LinkPort} (sound : p.rx.malformed = none) :
    p.responseAtRise = p.built.or p.response := by
  rw [LinkPort.responseAtRise, sound]

/-! ## The statements on single bytes -/

/-- Settles O8: the port at the rise of SEL, with its response by what the receiver then holds. -/
theorem selectRisesFillsTheSlot : Obligations.SelectRisesFillsTheSlot := by
  unfold Obligations.SelectRisesFillsTheSlot
  intro l s low
  refine ⟨_, rfl, ?_⟩
  rw [LinkPort.selectRises_of_low low]
  refine ⟨⟨_, rfl⟩, fun rx built => ?_, fun k rest rx => ?_, fun k tag len got rx => ?_, fun b rx => ?_,
    fun r rx built => ?_⟩ <;> dsimp only
  · rw [LinkPort.responseAtRise_of_sound (congrArg RxState.malformed rx), built, Option.none_or]
  · exact LinkPort.responseAtRise_of_malformed (congrArg RxState.malformed rx)
  · exact LinkPort.responseAtRise_of_malformed (congrArg RxState.malformed rx)
  · exact LinkPort.responseAtRise_of_malformed (congrArg RxState.malformed rx)
  · rw [LinkPort.responseAtRise_of_sound (congrArg RxState.malformed rx), built, Option.some_or]

/-- Settles O9: each clause is the receiver's equation for its byte, which completes no frame. -/
theorem byteMovesTheReceiver : Obligations.ByteMovesTheReceiver := by
  unfold Obligations.ByteMovesTheReceiver
  refine ⟨by decide, lengthGood_iff, fun l s low => ⟨fun r => s.receive l r 1, fun r => rfl, ?_⟩⟩
  have moves {b : Byte} {r r' : RxState} (rx : (s.port.get l).rx = r) (quiet : rxByte r b = rxTo r') :
      exec (.byteArrives l b) s = .next (s.receive l r' 1) :=
    congrArg Host.Outcome.next (State.byteArrives_of_quiet low (rx ▸ quiet))
  refine ⟨fun b rx h => moves rx (rxByte_unknownKind b h), fun b rx h => moves rx (rxByte_kind b h),
    fun k b rx => moves rx rfl, fun k tag b rx => moves rx rfl, fun k tag lo hi rx bad => moves rx ?_,
    fun k tag lo hi rx good nonzero => moves rx ?_,
    fun tag n got b rx ninth disagrees => moves rx (rxByte_stopCount tag b n got ninth disagrees),
    fun k tag n got b rx other more => moves rx ?_, fun b rx => moves rx rfl,
    fun bad b rx => ⟨fun tag => moves rx ?_, fun tag known => moves rx ?_⟩⟩
  · have refused : ¬ lengthGood k (lo.toNat + 256 * hi.toNat) = true := by
      rw [lengthGood_iff]
      rintro ⟨most, fixed, stops⟩
      obtain long | ⟨m, length, differs⟩ | ⟨kind, noStops⟩ := bad
      · omega
      · exact differs (fixed m length)
      · obtain ⟨j, atMost, count⟩ := stops kind
        exact noStops j atMost count
    rw [rxByte_header k tag lo hi _ rfl, if_neg refused]
    rfl
  · rw [rxByte_header k tag lo hi _ rfl, if_pos good, if_neg nonzero]
  · rw [rxByte_payload k tag b n got (fun kind ninth => absurd ninth (other kind)), if_neg (by omega)]
  · simp only [rxByte, tag, Option.getD_none]
  · simp only [rxByte, known, Option.getD_some]
    rw [← known]

/-- Settles O7: the port at the fall of SEL, and each byte of the response's wire form by its position. -/
theorem selectFallsOpensAPeriod : Obligations.SelectFallsOpensAPeriod := by
  unfold Obligations.SelectFallsOpensAPeriod
  refine ⟨fun l s high => ⟨_, rfl, LinkPort.selectFalls_of_high high, LinkPort.sdo_of_high high, ?_⟩,
    fun p => ⟨LinkPort.sdo_of_high, LinkPort.sdo_of_none, fun r low pending => ?_⟩⟩
  · rw [LinkPort.selectFalls_of_high high]
    split
    · next pending => exact LinkPort.sdo_of_none rfl pending
    · next r pending => exact LinkPort.sdo_of_wire rfl pending rfl
  · have carries {i : Nat} {b : Byte} (byte : r.wire[i]? = some b) (position : p.position = i) : p.sdo = some b :=
      LinkPort.sdo_of_wire low pending (position ▸ byte)
    refine ⟨carries rfl, carries rfl, carries ?_, carries rfl, carries rfl, fun i b payload => carries ?_, fun beyond => ?_⟩
    · cases status : r.status <;> simp [Response.wire_eq, status, Status.code]
    · rw [Response.wire_eq, Nat.add_comm 5 i]
      exact payload
    · have past : r.wire[p.position]? = none := List.getElem?_eq_none (r.wire_length ▸ beyond)
      rw [LinkPort.sdo_of_some low pending, past, Option.getD_none]

end Sys2Proof.Machine

namespace Sys2Proof.Machine

/-! ## A request command and its bytes (R181, log entry 3) -/

section
variable {s : State} {l : Link} {b : Byte} {bs : List Byte} {f : Frame}

/-- A request command whose bytes complete its frame takes the request in the state that has heard them (R181). -/
theorem exec_requestCommand (frame : s.frameOf l bs = some f) :
    exec (requestCommand f.kind l bs) s = .next ((s.heard l bs).takeRequest l f) := by
  obtain ⟨kind, tag, payload⟩ := f
  cases kind <;> exact congrArg Host.Outcome.next (State.request_of_frameOf _ frame rfl)

/-- Only in a select period do bytes complete a frame (R180). -/
theorem State.selLow_of_frameOf (frame : s.frameOf l bs = some f) : (s.port.get l).selLow = true := by
  by_contra high
  simp [State.frameOf, high] at frame

theorem State.frameOf_of_low (low : (s.port.get l).selLow = true) :
    s.frameOf l bs = (rxRun (s.port.get l).rx bs).taken := if_pos low

/-- A first byte that completes no frame may arrive before the rest. -/
theorem State.frameOf_receive (low : (s.port.get l).selLow = true) (quiet : (rxByte (s.port.get l).rx b).taken = none) :
    (s.receive l (rxByte (s.port.get l).rx b).rx 1).frameOf l bs = s.frameOf l (b :: bs) := by
  rw [State.frameOf_of_low (by simpa using low), State.frameOf_of_low low, rxRun_cons_taken, quiet, Option.none_or,
    State.receive_port, PerLink.get_set_same]

theorem State.heard_receive (r : RxState) : (s.receive l r 1).heard l bs = s.heard l (b :: bs) := by
  simp only [State.heard, State.receive, State.modifyPort, PerLink.get_set_same, PerLink.set_set, List.length_cons,
    Nat.add_assoc, Nat.add_comm 1]

end

/-- Settles O10: both sides take the same frame in the state that has heard the same bytes. -/
theorem requestIsItsBytes : Obligations.RequestIsItsBytes := by
  unfold Obligations.RequestIsItsBytes
  refine ⟨fun l b s f low taken => ?_, fun l b bs s t f quiet frame arrives => ?_⟩
  · have frame : s.frameOf l [b] = some f := by
      rw [State.frameOf_of_low low, rxRun_cons_taken, taken, Option.some_or]
    rw [exec_requestCommand frame]
    exact congrArg Host.Outcome.next (State.byteArrives_of_taken low taken)
  · have low := State.selLow_of_frameOf frame
    have next : s.receive l (rxByte (s.port.get l).rx b).rx 1 = t :=
      (State.byteArrives_of_quiet low (congrArg (RxStep.mk _) quiet)).symm.trans (Host.Outcome.next.inj arrives)
    subst next
    rw [exec_requestCommand frame, exec_requestCommand ((State.frameOf_receive low quiet).trans frame),
      State.heard_receive]

/-! ## Whole frames (R181, R191) -/

/-- After bytes that complete no frame the receiver goes on from where they left it. -/
theorem rxRun_append_of_quiet {r q : RxState} {as : List Byte} (bs : List Byte) (quiet : rxRun r as = rxTo q) :
    rxRun r (as ++ bs) = rxRun q bs := by
  have rx := rxRun_append_rx r as bs
  have taken := rxRun_append_taken r as bs
  rw [quiet] at rx taken
  exact congrArg₂ RxStep.mk rx (taken.trans (Option.none_or ..))

/-- A byte that completes a frame after bytes that do not: the frame is taken there and not before. -/
theorem rxRun_done_at_last {r q : RxState} {as : List Byte} {b : Byte} {k : ReqKind} {tag : Byte} {payload : List Byte}
    (quiet : rxRun r as = rxTo q) (done : rxByte q b = rxDone k tag payload) :
    rxRun r (as ++ [b]) = rxDone k tag payload ∧
      ∀ n, n < (as ++ [b]).length → (rxRun r ((as ++ [b]).take n)).taken = none := by
  refine ⟨?_, fun n short => ?_⟩
  · rw [rxRun_append_of_quiet [b] quiet, rxRun, done]
    rfl
  · have within : n ≤ as.length := by simpa [Nat.lt_succ_iff] using short
    have whole : (rxRun r (as.take n ++ as.drop n)).taken = none := by rw [List.take_append_drop, quiet]; rfl
    rw [rxRun_append_taken, Option.or_eq_none_iff] at whole
    rw [List.take_append_of_le_length within]
    exact whole.1

section
variable (k : ReqKind) (tag : Byte)

/-- The first three bytes of a header of a known kind. -/
theorem rxRun_kindTagLow (lo : Byte) : rxRun (.header []) [k.code, tag, lo] = rxTo (.header [k.code, tag, lo]) := by
  have known := rxByte_kind k.code ((kindOfByte_isSome_iff _).mp (by simp))
  rw [rxRun, known]
  rfl

/-- The last byte of a request's header, with the length of a payload that its kind allows. -/
theorem rxByte_requestHeader {n : Nat} (good : lengthGood k n = true) :
    rxByte (.header [k.code, tag, BitVec.ofNat 8 n]) (BitVec.ofNat 8 (n / 256)) =
      if n = 0 then rxDone k tag [] else rxTo (.payload k tag n []) := by
  obtain ⟨most, -, -⟩ := (lengthGood_iff k n).mp good
  have word : (BitVec.ofNat 8 n).toNat + 256 * (BitVec.ofNat 8 (n / 256)).toNat = n := by
    simp only [BitVec.toNat_ofNat]
    omega
  rw [rxByte_header k tag _ _ n word, if_pos good]

variable (payload : List Byte) (consistent : k = .setForm → payload.length = 10 + 2 * byteAt payload 9)
include consistent

/-- A byte of a payload whose stop count, if it has one, agrees with its length. -/
theorem rxByte_payload_getElem {n : Nat} (h : n < payload.length) :
    rxByte (.payload k tag payload.length (payload.take n)) payload[n] =
      if payload.length = n + 1 then rxDone k tag payload
      else rxTo (.payload k tag payload.length (payload.take (n + 1))) := by
  have before : (payload.take n).length = n := List.length_take_of_le h.le
  have agrees : k = .setForm → (payload.take n).length = 9 → payload.length = 10 + 2 * payload[n].toNat := by
    intro kind ninth
    obtain rfl : n = 9 := before.symm.trans ninth
    simpa [byteAt, List.getElem?_eq_getElem h] using consistent kind
  rw [rxByte_payload k tag _ _ _ agrees, before, List.take_concat_get' payload n h]
  by_cases last : payload.length = n + 1
  · rw [if_pos last, if_pos last.le, ← last, List.take_length]
  · rw [if_neg last, if_neg (by omega)]

/-- The bytes of a payload, all but the last, leave the receiver in PAYLOAD. -/
theorem rxRun_payload_take {n : Nat} (h : n < payload.length) :
    rxRun (.payload k tag payload.length []) (payload.take n) = rxTo (.payload k tag payload.length (payload.take n)) := by
  induction n with
  | zero => rfl
  | succ n ih =>
    have here : n < payload.length := by omega
    have byte := rxByte_payload_getElem k tag payload consistent here
    rw [if_neg h.ne'] at byte
    calc rxRun (.payload k tag payload.length []) (payload.take (n + 1))
      _ = rxRun (.payload k tag payload.length []) (payload.take n ++ [payload[n]]) := by
        rw [List.take_concat_get' payload n here]
      _ = rxRun (.payload k tag payload.length (payload.take n)) [payload[n]] := rxRun_append_of_quiet _ (ih here)
      _ = rxTo (.payload k tag payload.length (payload.take (n + 1))) := by rw [rxRun, byte]; rfl

end

/-- Settles O11: a frame without payload is complete at the last byte of its header, any other at the last of its payload. -/
theorem receiverTakesWholeFrame : Obligations.ReceiverTakesWholeFrame := by
  unfold Obligations.ReceiverTakesWholeFrame
  intro k tag payload good consistent
  have header := rxByte_requestHeader k tag good
  have start := rxRun_kindTagLow k tag (BitVec.ofNat 8 payload.length)
  by_cases empty : payload.length = 0
  · rw [if_pos empty] at header
    obtain rfl := List.length_eq_zero_iff.mp empty
    exact rxRun_done_at_last start header
  · rw [if_neg empty] at header
    obtain ⟨n, length⟩ := Nat.exists_eq_succ_of_ne_zero empty
    have here : n < payload.length := by omega
    have byte := rxByte_payload_getElem k tag payload consistent here
    rw [if_pos length] at byte
    have opened : rxRun (.header []) ([k.code, tag, BitVec.ofNat 8 payload.length] ++
        [BitVec.ofNat 8 (payload.length / 256)]) = rxTo (.payload k tag payload.length []) := by
      rw [rxRun_append_of_quiet _ start, rxRun, header]
      rfl
    have quiet := (rxRun_append_of_quiet (payload.take n) opened).trans
      (rxRun_payload_take k tag payload consistent here)
    have whole : requestBytes k tag payload = ([k.code, tag, BitVec.ofNat 8 payload.length] ++
        [BitVec.ofNat 8 (payload.length / 256)] ++ payload.take n) ++ [payload[n]] := by
      rw [List.append_assoc, List.take_concat_get' payload n here, ← Nat.succ_eq_add_one, ← length, List.take_length]
      rfl
    rw [whole]
    exact rxRun_done_at_last quiet byte

end Sys2Proof.Machine

namespace Sys2Proof.Machine

/-! ## A step with a command waiting -/

/-- Of the two branches of a step, a waiting command selects the one that runs it. -/
theorem step_of_pending {s : State} {c : Instr} {rest : List Instr} (waiting : s.pending = c :: rest) :
    step s = exec c { s with pending := rest } := by
  unfold step
  rw [waiting]

/-- Settles O1: the queue with `c` put in front has `c` waiting (`step_of_pending`), and taking `c` off it again leaves `rest`. -/
theorem stepRunsFrontCommand : Obligations.StepRunsFrontCommand := by
  unfold Obligations.StepRunsFrontCommand
  intro c rest s
  have waiting : ({ s with pending := c :: rest } : State).pending = c :: rest := rfl
  exact step_of_pending waiting

end Sys2Proof.Machine
